-- ==== Sys2Proof/Word.lean ====
section
/-! DEFINITION. The word types of the Ravjor 2416 and the plainest arithmetic on integers:
rig time is 48 bits wide (R1), port words are 32 bits wide (R187), samples are 16 bits wide (R115). -/

namespace Sys2Proof

/-- A 32-bit port word (R187). -/
abbrev Word := BitVec 32

/-- An 8-bit field of a word. -/
abbrev Byte := BitVec 8

/-- A 16-bit field of a word, or one sample of Sample Memory (R115). -/
abbrev Half := BitVec 16

/-- The rig time, a 48-bit count of microseconds (R1). -/
abbrev RigTime := BitVec 48

/-- The range in which every sum of the manual that is clamped is clamped: `lo..hi`, both ends included. -/
def clampInt (lo hi v : Int) : Int := max lo (min hi v)

end Sys2Proof
end

