-- ==== Sys2Proof/Types.lean ====
section
/-! DEFINITION. The plain data the blocks of the Ravjor 2416 hold: one enumeration for each set of
names of the manual, one structure for each record, and the contents of the responses. -/

namespace Sys2Proof

/-! ## Ports, modes, codes -/

/-- The two serial ports (chapter 10). -/
inductive Port where
  | M | B
  deriving DecidableEq, Repr, Inhabited

/-- A subset of the two ports: a notify set or a destination set (R67, R129, R150). -/
structure PortSet where
  m : Bool := false
  b : Bool := false
  deriving DecidableEq, Repr, Inhabited

/-- The part mode (R168). -/
inductive Mode where
  | config | run | safe
  deriving DecidableEq, Repr, Inhabited

/-- The status codes of a response (R192, R201). -/
inductive Status where
  | ok | unknownKind | wrongPort | badLength | badValue | wrongMode | wrongState | busy | full
  | notFound | overlap | notSource
  deriving DecidableEq, Repr, Inhabited

/-- The nine notice flags, in the bit order of R203. -/
inductive Notice where
  | captureReady | captureGap | faultEvent | relayFault | overcurrent | replayEvent
  | deadlineMissed | safeEntered | linkResync
  deriving DecidableEq, Repr, Inhabited

/-- A time, angle and cycle stamp (R71, R150). -/
structure Stamp where
  time  : RigTime
  angle : Nat
  cycle : Half
  deriving DecidableEq, Repr, Inhabited

/-! ## Angle Base (chapter 1) -/

/-- The three patterns (R15). -/
inductive Pattern where
  | crank | cam0 | cam1
  deriving DecidableEq, Repr, Inhabited

/-- One value for each of the three patterns. -/
structure PerPattern (α : Type) where
  crank : α
  cam0  : α
  cam1  : α
  deriving DecidableEq, Repr, Inhabited

/-- A window of a pattern, the half-open range from `start` up to `stop` (R15). -/
structure Window where
  start : Nat
  stop  : Nat
  deriving DecidableEq, Repr, Inhabited

/-- The writer of the target speed (R11 to R13). -/
inductive SpeedSource where
  | model | bench | replay (n : Fin 4)
  deriving DecidableEq, Repr, Inhabited

/-- The Angle Base (R3 to R22). A staged table is present exactly while its staged-valid flag is set
(R15: it is empty whenever the flag is clear). The angle count and the increment are derived. -/
structure AngleBase where
  phase    : BitVec 32 := 0
  cycle    : Half := 0
  speed    : Nat := 0
  target   : Nat := 0
  ramp     : Nat := 0
  source   : SpeedSource := .model
  safeRamp : Nat := 400
  active   : PerPattern (List Window) := ⟨[], [], []⟩
  staged   : PerPattern (Option (List Window)) := ⟨none, none, none⟩
  deriving DecidableEq, Repr, Inhabited

/-! ## Channel Table (chapter 2) -/

/-- The kind of a channel, fixed by its index (R23). -/
inductive ChannelKind where
  | analog | pulse | switch
  deriving DecidableEq, Repr, Inhabited

/-- The mode of a pulse channel (R23). -/
inductive PulseMode where
  | free | wheel
  deriving DecidableEq, Repr, Inhabited

/-- The base source of a channel (R24). -/
inductive BaseSource where
  | live | forced | replay
  deriving DecidableEq, Repr, Inhabited

/-- The driver state of a channel (R40, R41). -/
inductive Driver where
  | off | driving | tripped
  deriving DecidableEq, Repr, Inhabited

/-- A live, staged or forced value (R23). For a pulse channel `value` is the period and `aux` the high
time, in half-microseconds; for the other kinds `aux` is 0. -/
structure Value where
  value : Int := 0
  aux   : Nat := 0
  deriving DecidableEq, Repr, Inhabited

/-- The running period of a FREE generator (R32): its effective pair, the half-microseconds counted
since its period start, and whether the output is at the active level. -/
structure Generator where
  period  : Nat
  high    : Nat
  elapsed : Nat
  active  : Bool
  deriving DecidableEq, Repr, Inhabited

/-- A channel record with what the Output Stage keeps beside it (R23, R26, R32, R33, R41, R110). -/
structure Channel where
  mode        : PulseMode := .free
  source      : BaseSource := .live
  live        : Value := {}
  slot        : Option Value := none
  forced      : Value := {}
  safe        : Nat := 0
  inverted    : Bool := false
  pattern     : Pattern := .crank
  offset      : Nat := 0
  autoRestore : Bool := true
  keepOut     : Bool := false
  driver      : Driver := .off
  /-- the last output of R23: a code, a switch level, or the pin-side level of a pulse channel -/
  lastOutput  : Nat := 0
  /-- the clamped indication of R26 and R32 -/
  clamped     : Bool := false
  /-- the running period of R32; absent while the channel is stopped or halted -/
  gen         : Option Generator := none
  /-- the buffered pair of R33 -/
  buffer      : Option Value := none
  /-- the grid points up to and with the one at which a start that fell off the grid opens; 0 without one (R32) -/
  wait        : Nat := 0
  /-- ticks since the first tick of the unbroken run in current limit (R41); absent when discarded -/
  limitTicks  : Option Nat := none
  /-- the noise source of R110 -/
  noise       : Half := 0
  /-- whether the last refresh or period start made a draw (R31, R110) -/
  drawn       : Bool := false
  /-- what the driver presents: the DAC code, 1 for a switch that is ON, 1 for a pulse pin that is high -/
  pin         : Nat := 0
  /-- whether a FREEZE overlay holds the pulse pin, so that polarity does not move it (R109) -/
  pinHeld     : Bool := false
  deriving DecidableEq, Repr, Inhabited

/-- The echo of the last live value applied (R30). -/
structure Echo where
  channel : Fin 24
  value   : Value
  time    : RigTime
  deriving DecidableEq, Repr

/-! ## Relay Matrix (chapter 3) -/

/-- The five relays of a relay set. -/
inductive RelayName where
  | path | gnd | bat | x0 | x1
  deriving DecidableEq, Repr, Inhabited

/-- One value for each relay of a relay set. -/
structure PerRelay (α : Type) where
  path : α
  gnd  : α
  bat  : α
  x0   : α
  x1   : α
  deriving DecidableEq, Repr, Inhabited

/-- The two positions of a contact. -/
inductive Position where
  | opened | closed
  deriving DecidableEq, Repr, Inhabited

/-- The state of a relay (R47). -/
inductive RelayState where
  | opened | closed | movingOpen | movingClosed
  deriving DecidableEq, Repr, Inhabited

/-- A movement in flight: ticks since its command, and the timing in force at the command, in ms (R48). -/
structure Movement where
  elapsed : Nat
  settle  : Nat
  timeout : Nat
  deriving DecidableEq, Repr, Inhabited

/-- One relay: its state, its failed mark and its movement in flight (R47 to R49). -/
structure Relay where
  state    : RelayState
  failed   : Bool := false
  movement : Option Movement := none
  deriving DecidableEq, Repr, Inhabited

/-- The two steps of a normalisation (R57). -/
inductive NormStep where
  | breaking | joining
  deriving DecidableEq, Repr, Inhabited

/-- The relay record of a channel (R47). The normalising mark is yes while `normalising` is present. -/
structure RelaySet where
  relays      : PerRelay Relay
  inService   : Bool := true
  holder      : Option (Fin 64) := none
  normalising : Option NormStep := none
  deriving DecidableEq, Repr

/-- The two cross buses. -/
inductive Bus where
  | x0 | x1
  deriving DecidableEq, Repr, Inhabited

/-- The holders of the two cross buses (R52). -/
structure BusHolders where
  x0 : Option (Fin 64) := none
  x1 : Option (Fin 64) := none
  deriving DecidableEq, Repr, Inhabited

/-- The settle time and confirmation timeout, in ms (R50). -/
structure RelayTiming where
  settle  : Nat := 3
  timeout : Nat := 20
  deriving DecidableEq, Repr, Inhabited

/-- A four-sample filter: the battery flag (`level` is BATTERY_PRESENT, R62) or the SAFE line state
(`level` is ASSERTED, R169), with its count of consecutive disagreeing samples. -/
structure LineFilter where
  level : Bool
  count : Nat := 0
  deriving DecidableEq, Repr, Inhabited

/-! ## Fault Table (chapters 4 and 5) -/

/-- The state of a fault record (R67). -/
inductive FaultState where
  | free | armed | waiting | starting | active | stopping | done | failed
  deriving DecidableEq, Repr, Inhabited

/-- The eleven fault kinds, in the code order of R205. -/
inductive FaultKind where
  | openWire | shortGnd | shortBat | pinShort | stuckAt | freeze | offset | gain | noise
  | missTooth | extraTooth
  deriving DecidableEq, Repr, Inhabited

/-- The parameter of a fault record (R69): a number, or the start and width of an extra tooth. -/
inductive Param where
  | int (v : Int)
  | extra (start width : Nat)
  deriving DecidableEq, Repr, Inhabited

/-- The edge selection of a trigger, a duration or a capture input (R82, R150). -/
inductive EdgeSel where
  | rise | fall | both
  deriving DecidableEq, Repr, Inhabited

/-- The two fault events of an activation (R83). -/
inductive FaultEvent where
  | start | stop
  deriving DecidableEq, Repr, Inhabited

/-- A trigger with its settings (R79 to R83); an absent cycle is ANY. -/
inductive Trigger where
  | atTime (t : RigTime)
  | atAngle (cycle : Option Half) (angle : Nat)
  | onCapture (input : Fin 16) (edge : EdgeSel) (count : Nat)
  | onFault (source : Fin 64) (event : FaultEvent)
  deriving DecidableEq, Repr, Inhabited

/-- A duration with its settings (R85 to R88). -/
inductive Duration where
  | untilRelease
  | time (us : Nat)
  | angle (counts : Nat)
  | cycles (wraps : Nat)
  | capture (input : Fin 16) (edge : EdgeSel) (count : Nat)
  deriving DecidableEq, Repr, Inhabited

/-- The fail reasons (R72). -/
inductive FailReason where
  | relayTimeout | noBattery | outOfService
  deriving DecidableEq, Repr, Inhabited

/-- The sequence in flight for a relay record (R54): start or stop, and the step that runs. -/
structure Sequence where
  stop : Bool
  step : Nat
  deriving DecidableEq, Repr, Inhabited

/-- A fault record (R67). `frozen` is the captured FREEZE value (R109), `seq` the sequence the Relay
Matrix runs for the record (R54). `fresh` is the model's own: the record entered ARMED or ACTIVE since
the last tick, so that nothing of that tick counts toward it (R74, R85, R89). -/
structure FaultRecord where
  state          : FaultState := .free
  target         : Fin 24 := 0
  partner        : Option (Fin 24) := none
  bus            : Option Bus := none
  kind           : FaultKind := .openWire
  level          : Nat := 0
  param          : Param := .int 0
  trigger        : Trigger := .atTime 0
  duration       : Duration := .untilRelease
  repeats        : Nat := 0
  repeatPeriod   : Nat := 0
  notify         : PortSet := {}
  releasePending : Bool := false
  activations    : Nat := 0
  startStamp     : Option Stamp := none
  endStamp       : Option Stamp := none
  failReason     : Option FailReason := none
  trigProgress   : Nat := 0
  durProgress    : Nat := 0
  frozen         : Option Nat := none
  seq            : Option Sequence := none
  fresh          : Bool := false
  deriving DecidableEq, Repr

/-! ## Sample Memory and segments (chapter 6) -/

/-- A segment record (R117). -/
structure Segment where
  defined : Bool := false
  base    : Nat := 0
  length  : Nat := 0
  refs    : Nat := 0
  deriving DecidableEq, Repr, Inhabited

/-- A sample transfer in flight (R123 to R126): its port and tag, its direction, what it names, the
address of its first sample fixed when it was taken, its count, and the samples of a write. -/
structure Transfer where
  port    : Port
  tag     : Byte
  write   : Bool
  segment : Fin 32
  offset  : Nat
  address : Nat
  count   : Nat
  samples : List Half
  deriving DecidableEq, Repr

/-! ## Replay engines (chapter 7) -/

/-- The state of an engine (R129). -/
inductive EngineState where
  | idle | running | paused | underrun
  deriving DecidableEq, Repr, Inhabited

/-- The target of an engine (R129). -/
inductive Target where
  | analog (c : Fin 12)
  | speed
  deriving DecidableEq, Repr, Inhabited

/-- The pacing of an engine (R129): the period P in microseconds, or N samples a cycle. -/
inductive Pacing where
  | time (p : Nat)
  | angle (n : Nat)
  deriving DecidableEq, Repr, Inhabited

/-- A descriptor (R130). -/
structure Descriptor where
  segment : Fin 32
  first   : Nat
  count   : Nat
  loops   : Nat
  final   : Bool
  ready   : Bool
  deriving DecidableEq, Repr

/-- An engine record (R129), with the reset values of R149. -/
structure Engine where
  state    : EngineState := .idle
  target   : Target := .analog 0
  pacing   : Pacing := .time 1000
  interp   : Bool := false
  gain     : Nat := 4096
  offset   : Int := 0
  notify   : PortSet := {}
  current  : Option Descriptor := none
  queue    : List Descriptor := []
  k        : Nat := 0
  e        : Nat := 0
  awaiting : Bool := false
  lastOut  : Option Int := none
  clamped  : Bool := false
  deriving DecidableEq, Repr

/-! ## Capture Unit (chapter 8) -/

/-- The settings of a capture input (R150), with the reset values of R167. -/
structure CaptureSettings where
  enabled   : Bool := false
  level     : Nat := 0
  divider   : Nat := 1
  agreement : Nat := 2
  edges     : EdgeSel := .both
  dest      : PortSet := {}
  trip      : Bool := false
  width     : Bool := false
  deriving DecidableEq, Repr, Inhabited

/-- A capture input (R150): its settings, its comparator output (`true` is HIGH) and its live state; an
absent filtered level is UNKNOWN. `edge` is the model's own: the stamp of the edge whose agreement the sample of
this tick has reached, until CAPTURE_EDGE_REPORT takes it (R153). -/
structure CaptureInput where
  settings   : CaptureSettings := {}
  comparator : Bool := false
  level      : Option Bool := none
  disagree   : Nat := 0
  runStamp   : Option Stamp := none
  lastEdge   : Option Stamp := none
  edge       : Option Stamp := none
  deriving DecidableEq, Repr, Inhabited

/-- A capture record (R156); `rise` is the edge. -/
structure CaptureRecord where
  input : Fin 16
  rise  : Bool
  stamp : Stamp
  gap   : Bool
  width : Option Nat
  deriving DecidableEq, Repr

/-! ## Run Control (chapter 9) -/

/-- The causes of an entry to SAFE (R174). -/
inductive SafeCause where
  | safeLine
  | trip (input : Fin 16)
  | deadlineLost
  | request
  deriving DecidableEq, Repr, Inhabited

/-- The safe cause record (R168). -/
structure CauseRecord where
  cause : SafeCause
  time  : RigTime
  deriving DecidableEq, Repr, Inhabited

/-- The state of the deadline monitor (R178). -/
inductive MonitorState where
  | off | onTime | late | lost
  deriving DecidableEq, Repr, Inhabited

/-- The deadline monitor (R177, R178): its settings, its state, its miss count and the ticks left on
its timer, absent while the timer is stopped. -/
structure Monitor where
  enabled  : Bool := false
  deadline : Nat := 100
  limit    : Nat := 3
  state    : MonitorState := .off
  misses   : Nat := 0
  timer    : Option Nat := none
  deriving DecidableEq, Repr, Inhabited

/-- Run Control (R168, R169, R177). -/
structure RunControl where
  mode    : Mode := .config
  safe    : LineFilter := { level := true }
  cause   : Option CauseRecord := none
  monitor : Monitor := {}
  deriving DecidableEq, Repr, Inhabited

/-! ## Operands of the requests, field by field as R203 and R205 lay them out -/

/-- One entry of LIVE_UPDATE (R203). -/
structure LiveEntry where
  channel   : BitVec 6
  placement : BitVec 2
  aux       : BitVec 24
  value     : Word
  deriving DecidableEq, Repr, Inhabited

/-- One window word of LOAD_PATTERN (R203). -/
structure WindowWord where
  start : Half
  stop  : Half
  deriving DecidableEq, Repr, Inhabited

/-- The fields SET_CHANNEL may carry, each present or absent (R43, R205). -/
structure ChannelArgs where
  wheel       : Option Bool := none
  pattern     : Option (BitVec 2) := none
  offset      : Option Half := none
  source      : Option (BitVec 2) := none
  safe        : Option Half := none
  inverted    : Option Bool := none
  autoRestore : Option Bool := none
  keepOut     : Option Bool := none
  deriving DecidableEq, Repr, Inhabited

/-- The trigger words of ARM_FAULT (R205), before they are judged; `unknown` holds a kind code outside 0..3. -/
inductive RawTrigger where
  | atTime (t : RigTime)
  | atAngle (any : Bool) (cycle angle : Half)
  | onCapture (input edge count : Byte)
  | onFault (source event : Byte)
  | unknown (kind : BitVec 4)
  deriving DecidableEq, Repr, Inhabited

/-- The duration words of ARM_FAULT (R205), before they are judged; `unknown` holds a kind code outside 0..4. -/
inductive RawDuration where
  | untilRelease
  | time (v : Word)
  | angle (v : Word)
  | cycles (v : Word)
  | capture (input edge count : Byte)
  | unknown (kind : BitVec 4)
  deriving DecidableEq, Repr, Inhabited

/-- The definition ARM_FAULT carries (R73, R205). -/
structure FaultArgs where
  target   : Byte
  partner  : Byte
  kind     : BitVec 4
  level    : BitVec 3
  param    : Word
  trigger  : RawTrigger
  duration : RawDuration
  repeats  : Half
  notify   : BitVec 2
  period   : Word
  deriving DecidableEq, Repr, Inhabited

/-- The settings SET_REPLAY carries (R131, R205). -/
structure ReplayArgs where
  target : Byte
  pacing : BitVec 4
  interp : Bool
  notify : BitVec 2
  rate   : Half
  gain   : Word
  offset : Word
  deriving DecidableEq, Repr, Inhabited

/-- The descriptor QUEUE_REPLAY carries (R133, R205). -/
structure DescriptorArgs where
  segment : Byte
  final   : Bool
  loops   : BitVec 12
  first   : Word
  count   : Word
  deriving DecidableEq, Repr, Inhabited

/-- The settings SET_CAPTURE carries (R163, R205). -/
structure CaptureArgs where
  level     : Byte
  divider   : Byte
  agreement : Byte
  enabled   : Bool
  edges     : BitVec 2
  dest      : Byte
  trip      : Bool
  width     : Bool
  deriving DecidableEq, Repr, Inhabited

/-! ## Request kinds (R202) -/

/-- The request kinds of the part, in the order of their codes (R202). -/
inductive RequestKind where
  | start | stop | enterSafe | resume | resetRig | setDeadline | readRunState
  | setSpeed | setAngleBase | loadPattern | readAngleBase | readPattern
  | liveUpdate | stepMark | setChannel | force | echo | readChannel
  | setRelayTiming | readRelays
  | armFault | releaseFault | clearFault | readFault
  | defineSegment | freeSegment | writeSamples | readSamples | readSegment
  | setReplay | queueReplay | stopReplay | readReplay
  | setCapture | takeCaptures | readCaptureState
  | readNotices | clearNotices | setNoticeEnable
  deriving DecidableEq, Repr, Inhabited

/-! ## Responses -/

/-- The output a FORCE response carries (R31). -/
inductive OutputView where
  | level (v : Nat)
  | pair (period high : Nat)
  | stopped
  deriving DecidableEq, Repr, Inhabited

/-- What an OK response carries after its status word, field by field as the chapters list it. -/
inductive Body where
  | nothing
  | mode (m : Mode) (monitor : MonitorState)
  | modeOnly (m : Mode)
  | modeCause (m : Mode) (cause : Option CauseRecord)
  | monitor (m : Monitor)
  | runState (time : RigTime) (run : RunControl) (counts : List Nat) (anyMoving : Bool)
  | speed (target speed : Nat) (clamped : Bool)
  | angleBase (time : RigTime) (base : AngleBase) (angle increment : Nat) (held : Bool)
      (windows : PerPattern Nat) (flags : PerPattern Bool)
  | placed (staged : Bool)
  | pattern (windows : List Window) (flag : Bool)
  | count (n : Nat)
  | channel (ch : Channel)
  | forced (before after : OutputView) (clamped : Bool)
  | echo (e : Option Echo)
  | channelRead (kind : ChannelKind) (ch : Channel) (base : Value) (inService : Bool) (effective : Option (Fin 64))
  | timing (t : RelayTiming)
  | relays (set : RelaySet) (sense : PerRelay Bool) (buses : BusHolders) (battery : Bool)
      (t : RelayTiming)
  | fault (r : FaultRecord)
  | release (state : FaultState) (releasePending : Bool)
  | faultRead (r : FaultRecord) (place : Option Nat) (effective : Option Bool)
  | segment (g : Segment)
  | written (segment : Fin 32) (offset count : Nat)
  | samples (l : List Half)
  | engine (g : Engine)
  | queued (n : Nat) (state : EngineState)
  | engineRead (g : Engine) (remaining : Option Nat) (bound : Bool)
  | capture (i : CaptureInput)
  | captures (l : List CaptureRecord) (left : Nat) (gap : Bool)
  | captureRead (i : CaptureInput) (levels : List (Option Bool)) (countM : Nat) (gapM : Bool)
      (countB : Nat) (gapB : Bool)
  | notices (flags enables : BitVec 9) (atn synced : Bool)
  | cleared (flags : BitVec 9) (atn : Bool)
  | enables (mask flags : BitVec 9) (atn : Bool)
  deriving DecidableEq, Repr

/-- One thing that an OK response carries, in the order its chapter lists them (R201). `absent` stands for what the
manual calls absent or none. -/
inductive Item where
  | absent
  | mark (b : Bool)
  | number (v : Int)
  | notices (f : BitVec 9)
  | value (v : Value)
  | output (v : OutputView)
  | stamp (t : Stamp)
  | window (w : Window)
  | ports (p : PortSet)
  | edges (e : EdgeSel)
  | level (v : Option Bool)
  | mode (m : Mode)
  | monitor (m : MonitorState)
  | cause (c : SafeCause)
  | speedSource (x : SpeedSource)
  | placed (staged : Bool)
  | pulseMode (m : PulseMode)
  | baseSource (b : BaseSource)
  | pattern (q : Pattern)
  | driver (d : Driver)
  | relay (r : RelayState)
  | faultState (f : FaultState)
  | faultKind (k : FaultKind)
  | bus (b : Bus)
  | param (p : Param)
  | trigger (t : Trigger)
  | duration (d : Duration)
  | failReason (r : FailReason)
  | engineState (e : EngineState)
  | target (t : Target)
  | pacing (p : Pacing)
  deriving DecidableEq, Repr

/-- The status of a response and what an OK response carries (R192, R201). -/
structure Reply where
  status : Status
  body   : Body
  deriving DecidableEq, Repr

/-- A response refused with a status code carries the status word alone (R201). -/
def Reply.refuse (c : Status) : Reply := ⟨c, .nothing⟩

/-- An OK response. -/
def Reply.okay (b : Body) : Reply := ⟨.ok, b⟩

/-! ## Ports (chapter 10) -/

/-- A request packet in an inbound queue (R190): the kind and tag of its header, the payload length the
header gave, and the payload words that have arrived. -/
structure Packet where
  kind    : Byte
  tag     : Byte
  need    : Nat
  payload : List Word
  deriving DecidableEq, Repr, Inhabited

/-- A request is complete when its last payload word has arrived (R188). -/
def Packet.complete (p : Packet) : Bool := p.need ≤ p.payload.length

/-- A place of a response queue (R194): reserved while `reply` is absent, formed otherwise. -/
structure Response where
  kind  : Byte
  tag   : Byte
  reply : Option Reply
  deriving DecidableEq, Repr

/-- The link state of a port (R189); HUNT remembers whether the last word was an idle word. -/
inductive Link where
  | hunt (idleSeen : Bool)
  | synced
  deriving DecidableEq, Repr, Inhabited

/-- A port with its notices and its capture queue (R157, R189, R190, R194 to R196, R200). `sent` counts
the words of the head response already clocked out, `outWord` is the word last clocked out. `sticky`
holds the eight sticky flags; CAPTURE_READY is derived from the queue (R159). -/
structure PortState where
  link      : Link := .hunt false
  resetHunt : Bool := true
  inbound   : List Packet := []
  responses : List Response := []
  sent      : Nat := 0
  outWord   : Word := 0xFFFFFFFF
  sticky    : BitVec 9 := 0
  enables   : BitVec 9 := 0
  captures  : List CaptureRecord := []
  gap       : Bool := false
  deriving DecidableEq, Repr

/-! ## Lines and instants -/

/-- The lines the rig drives into the part: not state of the part, so no reset changes them. -/
structure Pins where
  resetLine : Bool
  safeLine  : Bool
  batteryMv : Int
  sense     : Vector (PerRelay Bool) 24
  limit     : Vector Bool 24
  captureMv : Vector Int 16
  deriving DecidableEq, Repr

/-- A change of a line the part samples, applied just before a tick. -/
inductive PinChange where
  | safeLine (asserted : Bool)
  | battery (mv : Int)
  | sense (c : Fin 24) (r : RelayName) (made : Bool)
  | limit (c : Fin 24) (on : Bool)
  deriving DecidableEq, Repr

/-- The events a tick (or the half-tick instant after it) brings about. An event that is due has not yet
been taken at the instant in force. -/
inductive Event where
  | replayAdvance (n : Fin 4)
  | millisecond
  | moveComplete (c : Fin 24) (r : RelayName)
  | moveFail (c : Fin 24) (r : RelayName)
  | battery
  | atTime (k : Fin 64)
  | captureReport (i : Fin 16)
  | onCapture (k : Fin 64)
  | durationEnd (k : Fin 64)
  | periodStart (c : Fin 24)
  | highEnd (c : Fin 24)
  | refresh
  | driverTrip (c : Fin 24)
  | deadline
  | safeLine
  deriving DecidableEq, Repr

end Sys2Proof
end

