-- ==== Sys2Proof/Config.lean ====
section
/-! DEFINITION. The values the manual leaves open. Each is an opaque constant: no proof can see what it is,
so a claim about it holds whatever it is. -/

namespace Sys2Proof

/-- DESIGN CHOICE (assumption 1, safe): the words of one thing an OK response lists, by the kind code of the request
and its place in the list, where chapter 11 does not lay it out. R201 fixes the order of the list. -/
opaque Config.itemWords (kind : Byte) (place : Nat) : Item → List Word

/-- DESIGN CHOICE (assumption 2, safe): how many samples of a write in flight had been written when a rig
reset came (R125). The manual gives no rate for the service the arbiter leaves over. -/
opaque Config.samplesWritten : Nat → Nat

/-- DESIGN CHOICE (assumption 3, safe): the draw a FORCE response uses under a NOISE record that has not
drawn yet. R31 names the draw of the last refresh, and there is none. -/
opaque Config.noDraw : Nat → Half

/-- DESIGN CHOICE (assumption 23, safe): where in the time to the next tick a request lies that starts a FREE
generator (R32). -/
opaque Config.startPlace : Nat → Nat

end Sys2Proof
end

