-- ==== Sys2Proof/Syntax.lean ====
section
/-! DEFINITION. The commands of the Ravjor 2416: one constructor for each row of the table of operations
and events, in the table's order. A request row carries the port that sent it, the tag of its header and
the fields of its payload (R201 to R205). An event row carries what the event names. -/

namespace Sys2Proof

/-- The commands. `p` is the sending port and `t` the tag of a request. -/
inductive Instr where
  /-- POWER_ON_RESET (R184). -/
  | powerOnReset
  /-- RESET_LINE_ASSERT (R185). -/
  | resetLineAssert
  /-- RESET_LINE_RELEASE (R185). -/
  | resetLineRelease
  /-- RIG_TICK (R2), with the changes of the sampled lines since the tick before. -/
  | rigTick (changes : List PinChange)
  /-- MILLISECOND_BOUNDARY (R8). -/
  | millisecondBoundary
  /-- CYCLE_WRAP (R5). -/
  | cycleWrap
  /-- ANALOG_REFRESH (R25). -/
  | analogRefresh
  /-- PERIOD_START (R32) of channel `c`. -/
  | periodStart (c : Fin 24)
  /-- PULSE_HIGH_END (R32) of channel `c`. -/
  | pulseHighEnd (c : Fin 24)
  /-- DRIVER_TRIP (R41) of channel `c`. -/
  | driverTrip (c : Fin 24)
  /-- MOVEMENT_COMPLETE (R48) of relay `r` of channel `c`. -/
  | movementComplete (c : Fin 24) (r : RelayName)
  /-- MOVEMENT_FAIL (R49) of relay `r` of channel `c`. -/
  | movementFail (c : Fin 24) (r : RelayName)
  /-- BATTERY_FLAG_CHANGE (R62). -/
  | batteryFlagChange
  /-- SAFE_LINE_CHANGE (R170). -/
  | safeLineChange
  /-- COMPARATOR_CHANGE (R151): the voltage of input `i`, in millivolts, becomes `mv`. -/
  | comparatorChange (i : Fin 16) (mv : Int)
  /-- CAPTURE_EDGE_REPORT (R154) of input `i`. -/
  | captureEdgeReport (i : Fin 16)
  /-- AT_TIME_TRIGGER (R79) of record `k`. -/
  | atTimeTrigger (k : Fin 64)
  /-- ON_CAPTURE_TRIGGER (R82) of record `k`. -/
  | onCaptureTrigger (k : Fin 64)
  /-- DURATION_END (R85) of record `k`. -/
  | durationEnd (k : Fin 64)
  /-- REPLAY_ADVANCE (R137) of engine `n`. -/
  | replayAdvance (n : Fin 4)
  /-- DEADLINE_EXPIRY (R180). -/
  | deadlineExpiry
  /-- PORT_WORD (R189): word `w` is clocked in on port `p`. -/
  | portWord (p : Port) (w : Word)
  /-- UNKNOWN_KIND (R192): a request with kind code `kind`. -/
  | unknownKind (p : Port) (t kind : Byte) (payload : List Word)
  /-- START (R171). -/
  | start (p : Port) (t : Byte)
  /-- STOP (R172). -/
  | stop (p : Port) (t : Byte)
  /-- ENTER_SAFE (R175). -/
  | enterSafe (p : Port) (t : Byte)
  /-- RESUME (R176). -/
  | resume (p : Port) (t : Byte)
  /-- RESET_RIG (R185). -/
  | resetRig (p : Port) (t : Byte)
  /-- SET_DEADLINE (R177). -/
  | setDeadline (p : Port) (t : Byte) (enabled : Bool) (limit : BitVec 4) (deadline : Half)
  /-- READ_RUN_STATE (R183). -/
  | readRunState (p : Port) (t : Byte)
  /-- SET_SPEED (R11). -/
  | setSpeed (p : Port) (t : Byte) (target : Word) (ramp : Half)
  /-- SET_ANGLE_BASE (R13). -/
  | setAngleBase (p : Port) (t source : Byte) (safeRamp : Half)
  /-- LOAD_PATTERN (R17). -/
  | loadPattern (p : Port) (t pattern : Byte) (windows : List WindowWord)
  /-- READ_ANGLE_BASE (R14). -/
  | readAngleBase (p : Port) (t : Byte)
  /-- READ_PATTERN (R18). -/
  | readPattern (p : Port) (t pattern : Byte) (staged : Bool)
  /-- LIVE_UPDATE (R28). -/
  | liveUpdate (p : Port) (t : Byte) (entries : List LiveEntry)
  /-- STEP_MARK (R29). -/
  | stepMark (p : Port) (t : Byte)
  /-- SET_CHANNEL (R44). -/
  | setChannel (p : Port) (t channel : Byte) (args : ChannelArgs)
  /-- FORCE (R31). -/
  | force (p : Port) (t : Byte) (channel : BitVec 6) (aux : BitVec 24) (value : Word)
  /-- ECHO (R30). -/
  | echo (p : Port) (t : Byte)
  /-- READ_CHANNEL (R45). -/
  | readChannel (p : Port) (t channel : Byte)
  /-- SET_RELAY_TIMING (R50). -/
  | setRelayTiming (p : Port) (t settle timeout : Byte)
  /-- READ_RELAYS (R64). -/
  | readRelays (p : Port) (t channel : Byte)
  /-- ARM_FAULT (R74). -/
  | armFault (p : Port) (t index : Byte) (args : FaultArgs)
  /-- RELEASE_FAULT (R75). -/
  | releaseFault (p : Port) (t index : Byte)
  /-- CLEAR_FAULT (R76). -/
  | clearFault (p : Port) (t index : Byte)
  /-- READ_FAULT (R77). -/
  | readFault (p : Port) (t index : Byte)
  /-- DEFINE_SEGMENT (R119). -/
  | defineSegment (p : Port) (t index : Byte) (base length : Word)
  /-- FREE_SEGMENT (R120). -/
  | freeSegment (p : Port) (t index : Byte)
  /-- WRITE_SAMPLES (R123); the sample count is the length of the list. -/
  | writeSamples (p : Port) (t index : Byte) (offset : Word) (samples : List Half)
  /-- WRITE_SAMPLES_DONE (R125). -/
  | writeSamplesDone
  /-- READ_SAMPLES (R126). -/
  | readSamples (p : Port) (t index : Byte) (offset : Word) (count : Half)
  /-- READ_SAMPLES_DONE (R126) of port `p`. -/
  | readSamplesDone (p : Port)
  /-- READ_SEGMENT (R121). -/
  | readSegment (p : Port) (t index : Byte)
  /-- SET_REPLAY (R132). -/
  | setReplay (p : Port) (t engine : Byte) (args : ReplayArgs)
  /-- QUEUE_REPLAY (R134). -/
  | queueReplay (p : Port) (t engine : Byte) (args : DescriptorArgs)
  /-- STOP_REPLAY (R135). -/
  | stopReplay (p : Port) (t engine : Byte)
  /-- READ_REPLAY (R148). -/
  | readReplay (p : Port) (t engine : Byte)
  /-- SET_CAPTURE (R164). -/
  | setCapture (p : Port) (t input : Byte) (args : CaptureArgs)
  /-- TAKE_CAPTURES (R160). -/
  | takeCaptures (p : Port) (t count : Byte)
  /-- READ_CAPTURE_STATE (R166). -/
  | readCaptureState (p : Port) (t input : Byte)
  /-- READ_NOTICES (R197). -/
  | readNotices (p : Port) (t : Byte)
  /-- CLEAR_NOTICES (R198). -/
  | clearNotices (p : Port) (t : Byte) (set : Word)
  /-- SET_NOTICE_ENABLE (R196). -/
  | setNoticeEnable (p : Port) (t : Byte) (mask : Word)
  deriving DecidableEq, Repr

end Sys2Proof
end

