-- ==== Sys2Proof/Decode.lean ====
section
/-! DEFINITION. The words of the ports: header and status words (R201), the codes, ports and payload
lengths of the request kinds (R192, R193, R202), the payload layouts (R203 to R205) read and written, and
the words of a response. The rows of the table of operations give no bits, so `decodeTableWord` reads none. -/

namespace Sys2Proof

/-! ## Codes -/

/-- The code of a request kind (R202). -/
def RequestKind.code : RequestKind → Byte
  | .start => 0x01 | .stop => 0x02 | .enterSafe => 0x03 | .resume => 0x04 | .resetRig => 0x05
  | .setDeadline => 0x06 | .readRunState => 0x07
  | .setSpeed => 0x10 | .setAngleBase => 0x11 | .loadPattern => 0x12 | .readAngleBase => 0x13
  | .readPattern => 0x14
  | .liveUpdate => 0x20 | .stepMark => 0x21 | .setChannel => 0x22 | .force => 0x23 | .echo => 0x24
  | .readChannel => 0x25
  | .setRelayTiming => 0x30 | .readRelays => 0x31
  | .armFault => 0x40 | .releaseFault => 0x41 | .clearFault => 0x42 | .readFault => 0x43
  | .defineSegment => 0x50 | .freeSegment => 0x51 | .writeSamples => 0x52 | .readSamples => 0x53
  | .readSegment => 0x54
  | .setReplay => 0x60 | .queueReplay => 0x61 | .stopReplay => 0x62 | .readReplay => 0x63
  | .setCapture => 0x70 | .takeCaptures => 0x71 | .readCaptureState => 0x72
  | .readNotices => 0x80 | .clearNotices => 0x81 | .setNoticeEnable => 0x82

/-- Every request kind, in the order of the codes. -/
def RequestKind.all : List RequestKind :=
  [.start, .stop, .enterSafe, .resume, .resetRig, .setDeadline, .readRunState,
   .setSpeed, .setAngleBase, .loadPattern, .readAngleBase, .readPattern,
   .liveUpdate, .stepMark, .setChannel, .force, .echo, .readChannel,
   .setRelayTiming, .readRelays,
   .armFault, .releaseFault, .clearFault, .readFault] ++
  [.defineSegment, .freeSegment, .writeSamples, .readSamples, .readSegment,
   .setReplay, .queueReplay, .stopReplay, .readReplay,
   .setCapture, .takeCaptures, .readCaptureState,
   .readNotices, .clearNotices, .setNoticeEnable]

/-- The request kind a code names, or none (R192, R202). -/
def kindOfCode (c : Byte) : Option RequestKind := RequestKind.all.find? fun k => k.code == c

/-- The permission table of R193. -/
def RequestKind.allowed : RequestKind → Port → Bool
  | .liveUpdate, p | .stepMark, p => p == .M
  | .readAngleBase, _ | .readPattern, _ | .readChannel, _ | .readRelays, _ | .readFault, _
  | .readSegment, _ | .readSamples, _ | .readReplay, _ | .readCaptureState, _ | .readRunState, _
  | .takeCaptures, _ | .readNotices, _ | .clearNotices, _ | .setNoticeEnable, _ | .setSpeed, _ => true
  | .setAngleBase, p | .loadPattern, p | .setChannel, p | .force, p | .echo, p | .setRelayTiming, p
  | .armFault, p | .releaseFault, p | .clearFault, p | .defineSegment, p | .freeSegment, p
  | .writeSamples, p | .setReplay, p | .queueReplay, p | .stopReplay, p | .setCapture, p
  | .setDeadline, p | .start, p | .stop, p | .enterSafe, p | .resume, p | .resetRig, p => p == .B

/-- The status codes of R201. -/
def Status.code : Status → Byte
  | .ok => 0 | .unknownKind => 1 | .wrongPort => 2 | .badLength => 3 | .badValue => 4 | .wrongMode => 5
  | .wrongState => 6 | .busy => 7 | .full => 8 | .notFound => 9 | .overlap => 10 | .notSource => 11

/-- The bit of a notice flag in a notice word (R203). -/
def Notice.bit : Notice → Nat
  | .captureReady => 0 | .captureGap => 1 | .faultEvent => 2 | .relayFault => 3 | .overcurrent => 4
  | .replayEvent => 5 | .deadlineMissed => 6 | .safeEntered => 7 | .linkResync => 8

/-! ## Words and fields -/

/-- The idle word (R187). -/
def idleWord : Word := 0xFFFFFFFF

/-- The marker of a request header (R201). -/
def requestMarker : Byte := 0xC3

/-- The marker of a response header (R201). -/
def responseMarker : Byte := 0x3C

/-- A header word (R201). -/
def headerWord (marker kind tag : Byte) (length : Nat) : Word :=
  marker ++ kind ++ tag ++ BitVec.ofNat 8 length

/-- The field of `n` bits of a word whose lowest bit is bit `lo`. -/
def field (w : Word) (lo n : Nat) : BitVec n := w.extractLsb' lo n

/-- A one-bit field. -/
def bit1 (b : Bool) : BitVec 1 := BitVec.ofBool b

/-- The present mark of an optional field. -/
def markOf {α : Type} (o : Option α) : BitVec 1 := bit1 o.isSome

/-- Samples packed two to a word, the earlier in the high half; an odd last half is 0 (R203). -/
def packSamples : List Half → List Word
  | [] => []
  | [a] => [a ++ (0 : Half)]
  | a :: b :: rest => (a ++ b) :: packSamples rest

/-- The samples of sample words, the earlier from the high half (R203). -/
def unpackSamples : List Word → List Half
  | [] => []
  | w :: rest => field w 16 16 :: field w 0 16 :: unpackSamples rest

/-! ## Reading payloads -/

/-- The entries of a LIVE_UPDATE payload; none where the length is not a whole number of entries (R27). -/
def entriesOf : List Word → Option (List LiveEntry)
  | [] => some []
  | [_] => none
  | a :: v :: rest =>
    (entriesOf rest).map fun l => ⟨field a 26 6, field a 24 2, field a 0 24, v⟩ :: l

/-- A layout of no payload word. -/
def words0 (ws : List Word) (i : Instr) : Option Instr :=
  match ws with
  | [] => some i
  | _ => none

/-- A layout of one payload word. -/
def words1 (ws : List Word) (f : Word → Instr) : Option Instr :=
  match ws with
  | [a] => some (f a)
  | _ => none

/-- A layout of two payload words. -/
def words2 (ws : List Word) (f : Word → Word → Instr) : Option Instr :=
  match ws with
  | [a, b] => some (f a b)
  | _ => none

/-- A layout of three payload words. -/
def words3 (ws : List Word) (f : Word → Word → Word → Instr) : Option Instr :=
  match ws with
  | [a, b, c] => some (f a b c)
  | _ => none

/-- The field `x` where its present mark is set. -/
def whenMarked {α : Type} (w : Word) (bit : Nat) (x : α) : Option α :=
  if w.getLsbD bit then some x else none

/-- SET_CHANNEL's fields (R205). -/
def channelArgs (a b c : Word) : ChannelArgs where
  wheel       := whenMarked a 0 (b.getLsbD 31)
  pattern     := whenMarked a 1 (field b 28 2)
  offset      := whenMarked a 2 (field b 0 16)
  source      := whenMarked a 3 (field b 24 2)
  safe        := whenMarked a 4 (field c 0 16)
  inverted    := whenMarked a 5 (b.getLsbD 22)
  autoRestore := whenMarked a 6 (b.getLsbD 21)
  keepOut     := whenMarked a 7 (b.getLsbD 20)

/-- ARM_FAULT's trigger, words 2 and 3 (R205). -/
def rawTrigger (a b : Word) : RawTrigger :=
  if field a 28 4 = 0 then .atTime (field a 0 16 ++ b)
  else if field a 28 4 = 1 then .atAngle (a.getLsbD 16) (field a 0 16) (field b 0 16)
  else if field a 28 4 = 2 then .onCapture (field a 16 8) (field a 8 8) (field a 0 8)
  else if field a 28 4 = 3 then .onFault (field a 16 8) (field a 8 8)
  else .unknown (field a 28 4)

/-- ARM_FAULT's duration, words 4 and 5 (R205). -/
def rawDuration (a b : Word) : RawDuration :=
  if field a 28 4 = 0 then .untilRelease
  else if field a 28 4 = 1 then .time b
  else if field a 28 4 = 2 then .angle b
  else if field a 28 4 = 3 then .cycles b
  else if field a 28 4 = 4 then .capture (field a 16 8) (field a 8 8) (field a 0 8)
  else .unknown (field a 28 4)

/-- ARM_FAULT's definition (R205). -/
def faultArgs (w0 w1 w2 w3 w4 w5 w6 w7 : Word) : FaultArgs where
  target   := field w0 16 8
  partner  := field w0 8 8
  kind     := field w0 4 4
  level    := field w0 0 3
  param    := w1
  trigger  := rawTrigger w2 w3
  duration := rawDuration w4 w5
  repeats  := field w6 16 16
  notify   := field w6 0 2
  period   := w7

/-- The request a payload spells under a kind, or none where its length does not match the kind's layout
(R192, R202, R203, R205). -/
def decodePayload (k : RequestKind) (p : Port) (t : Byte) (ws : List Word) : Option Instr :=
  match k with
  | .start => words0 ws (.start p t)
  | .stop => words0 ws (.stop p t)
  | .enterSafe => words0 ws (.enterSafe p t)
  | .resume => words0 ws (.resume p t)
  | .resetRig => words0 ws (.resetRig p t)
  | .setDeadline => words1 ws fun a => .setDeadline p t (a.getLsbD 31) (field a 24 4) (field a 0 16)
  | .readRunState => words0 ws (.readRunState p t)
  | .setSpeed => words2 ws fun a b => .setSpeed p t a (field b 0 16)
  | .setAngleBase => words1 ws fun a => .setAngleBase p t (field a 24 8) (field a 0 16)
  | .loadPattern =>
    match ws with
    | [] => none
    | a :: rest =>
      some (.loadPattern p t (field a 24 8) (rest.map fun w => ⟨field w 16 16, field w 0 16⟩))
  | .readAngleBase => words0 ws (.readAngleBase p t)
  | .readPattern => words1 ws fun a => .readPattern p t (field a 24 8) (a.getLsbD 0)
  | .liveUpdate => (entriesOf ws).map fun l => .liveUpdate p t l
  | .stepMark => words0 ws (.stepMark p t)
  | .setChannel => words3 ws fun a b c => .setChannel p t (field a 24 8) (channelArgs a b c)
  | .force => words2 ws fun a b => .force p t (field a 26 6) (field a 0 24) b
  | .echo => words0 ws (.echo p t)
  | .readChannel => words1 ws fun a => .readChannel p t (field a 24 8)
  | .setRelayTiming => words1 ws fun a => .setRelayTiming p t (field a 8 8) (field a 0 8)
  | .readRelays => words1 ws fun a => .readRelays p t (field a 24 8)
  | .armFault =>
    match ws with
    | [w0, w1, w2, w3, w4, w5, w6, w7] =>
      some (.armFault p t (field w0 24 8) (faultArgs w0 w1 w2 w3 w4 w5 w6 w7))
    | _ => none
  | .releaseFault => words1 ws fun a => .releaseFault p t (field a 24 8)
  | .clearFault => words1 ws fun a => .clearFault p t (field a 24 8)
  | .readFault => words1 ws fun a => .readFault p t (field a 24 8)
  | .defineSegment => words3 ws fun a b c => .defineSegment p t (field a 24 8) b c
  | .freeSegment => words1 ws fun a => .freeSegment p t (field a 24 8)
  | .writeSamples =>
    match ws with
    | a :: b :: rest =>
      if rest.length = ((field a 0 16).toNat + 1) / 2 then
        some (.writeSamples p t (field a 24 8) b ((unpackSamples rest).take (field a 0 16).toNat))
      else none
    | _ => none
  | .readSamples => words2 ws fun a b => .readSamples p t (field a 24 8) b (field a 0 16)
  | .readSegment => words1 ws fun a => .readSegment p t (field a 24 8)
  | .setReplay =>
    match ws with
    | [a, b, c, d] =>
      some (.setReplay p t (field a 24 8)
        ⟨field a 16 8, field a 8 4, a.getLsbD 4, field a 0 2, field b 0 16, c, d⟩)
    | _ => none
  | .queueReplay => words3 ws fun a b c =>
      .queueReplay p t (field a 24 8) ⟨field a 16 8, a.getLsbD 15, field a 0 12, b, c⟩
  | .stopReplay => words1 ws fun a => .stopReplay p t (field a 24 8)
  | .readReplay => words1 ws fun a => .readReplay p t (field a 24 8)
  | .setCapture => words2 ws fun a b =>
      .setCapture p t (field a 24 8)
        ⟨field a 16 8, field a 8 8, field a 0 8, b.getLsbD 31, field b 24 2, field b 16 8,
          b.getLsbD 1, b.getLsbD 0⟩
  | .takeCaptures => words1 ws fun a => .takeCaptures p t (field a 0 8)
  | .readCaptureState => words1 ws fun a => .readCaptureState p t (field a 24 8)
  | .readNotices => words0 ws (.readNotices p t)
  | .clearNotices => words1 ws fun a => .clearNotices p t a
  | .setNoticeEnable => words1 ws fun a => .setNoticeEnable p t a

/-- The port's three checks on a taken request, in the order of R192: the kind code, the port, the length. -/
def decodePacket (p : Port) (q : Packet) : Except Status Instr :=
  match kindOfCode q.kind with
  | none => .error .unknownKind
  | some k =>
    if k.allowed p then
      match decodePayload k p q.tag q.payload with
      | none => .error .badLength
      | some i => .ok i
    else .error .wrongPort

/-! ## Writing payloads -/

/-- The field of an absent option is written as 0. -/
def fieldOf {n : Nat} (o : Option (BitVec n)) : BitVec n := o.getD 0

/-- The bit of an absent option is written as 0. -/
def bitOf (o : Option Bool) : BitVec 1 := bit1 (o.getD false)

/-- SET_CHANNEL's three words (R205). -/
def channelWords (channel : Byte) (g : ChannelArgs) : List Word :=
  [channel ++ (0 : Half) ++ markOf g.keepOut ++ markOf g.autoRestore ++ markOf g.inverted ++
      markOf g.safe ++ markOf g.source ++ markOf g.offset ++ markOf g.pattern ++ markOf g.wheel,
   bitOf g.wheel ++ (0 : BitVec 1) ++ fieldOf g.pattern ++ (0 : BitVec 2) ++ fieldOf g.source ++
      (0 : BitVec 1) ++ bitOf g.inverted ++ bitOf g.autoRestore ++ bitOf g.keepOut ++
      (0 : BitVec 4) ++ fieldOf g.offset,
   (0 : Half) ++ fieldOf g.safe]

/-- ARM_FAULT's words 2 and 3 (R205). -/
def triggerWords : RawTrigger → List Word
  | .atTime t => [(0 : Half) ++ t.extractLsb' 32 16, t.extractLsb' 0 32]
  | .atAngle any c a => [(1 : BitVec 4) ++ (0 : BitVec 11) ++ bit1 any ++ c, (0 : Half) ++ a]
  | .onCapture i e n => [(2 : BitVec 4) ++ (0 : BitVec 4) ++ i ++ e ++ n, 0]
  | .onFault k e => [(3 : BitVec 4) ++ (0 : BitVec 4) ++ k ++ e ++ (0 : Byte), 0]
  | .unknown c => [c ++ (0 : BitVec 28), 0]

/-- ARM_FAULT's words 4 and 5 (R205). -/
def durationWords : RawDuration → List Word
  | .untilRelease => [0, 0]
  | .time v => [(1 : BitVec 4) ++ (0 : BitVec 28), v]
  | .angle v => [(2 : BitVec 4) ++ (0 : BitVec 28), v]
  | .cycles v => [(3 : BitVec 4) ++ (0 : BitVec 28), v]
  | .capture i e n => [(4 : BitVec 4) ++ (0 : BitVec 4) ++ i ++ e ++ n, 0]
  | .unknown c => [c ++ (0 : BitVec 28), 0]

/-- ARM_FAULT's eight words (R205). -/
def faultWords (index : Byte) (g : FaultArgs) : List Word :=
  [index ++ g.target ++ g.partner ++ g.kind ++ (0 : BitVec 1) ++ g.level, g.param] ++
  triggerWords g.trigger ++ durationWords g.duration ++
  [g.repeats ++ (0 : BitVec 14) ++ g.notify, g.period]

/-- A word that names a record, a channel, a segment, an engine or an input in its top byte (R205). -/
def indexWord (i : Byte) : Word := i ++ (0 : BitVec 24)

/-- The two words of one LIVE_UPDATE entry (R203). -/
def entryWords (e : LiveEntry) : List Word := [e.channel ++ e.placement ++ e.aux, e.value]

/-- The port and the tag of a request (R188); none for an event. -/
def Instr.sender : Instr → Option (Port × Byte)
  | .powerOnReset | .resetLineAssert | .resetLineRelease | .rigTick _ | .millisecondBoundary
  | .cycleWrap | .analogRefresh | .periodStart _ | .pulseHighEnd _ | .driverTrip _
  | .movementComplete _ _ | .movementFail _ _ | .batteryFlagChange | .safeLineChange
  | .comparatorChange _ _ | .captureEdgeReport _ | .atTimeTrigger _ | .onCaptureTrigger _
  | .durationEnd _ | .replayAdvance _ | .deadlineExpiry | .portWord _ _ | .writeSamplesDone
  | .readSamplesDone _ => none
  | .unknownKind p t _ _ | .start p t | .stop p t | .enterSafe p t | .resume p t | .resetRig p t
  | .setDeadline p t _ _ _ | .readRunState p t | .setSpeed p t _ _ | .setAngleBase p t _ _
  | .loadPattern p t _ _ | .readAngleBase p t | .readPattern p t _ _ | .liveUpdate p t _ | .stepMark p t
  | .setChannel p t _ _ | .force p t _ _ _ | .echo p t | .readChannel p t _ | .setRelayTiming p t _ _
  | .readRelays p t _ | .armFault p t _ _ | .releaseFault p t _ | .clearFault p t _ | .readFault p t _
  | .defineSegment p t _ _ _ | .freeSegment p t _ | .writeSamples p t _ _ _ | .readSamples p t _ _ _
  | .readSegment p t _ | .setReplay p t _ _ | .queueReplay p t _ _ | .stopReplay p t _
  | .readReplay p t _ | .setCapture p t _ _ | .takeCaptures p t _ | .readCaptureState p t _
  | .readNotices p t | .clearNotices p t _ | .setNoticeEnable p t _ => some (p, t)

/-- The kind and payload of a request; none for a command that is no request of the part. -/
def encodePayload : Instr → Option (RequestKind × List Word)
  | .powerOnReset | .resetLineAssert | .resetLineRelease | .rigTick _ | .millisecondBoundary
  | .cycleWrap | .analogRefresh | .periodStart _ | .pulseHighEnd _ | .driverTrip _
  | .movementComplete _ _ | .movementFail _ _ | .batteryFlagChange | .safeLineChange
  | .comparatorChange _ _ | .captureEdgeReport _ | .atTimeTrigger _ | .onCaptureTrigger _
  | .durationEnd _ | .replayAdvance _ | .deadlineExpiry | .portWord _ _ | .writeSamplesDone
  | .readSamplesDone _ | .unknownKind _ _ _ _ => none
  | .start _ _ => some (.start, [])
  | .stop _ _ => some (.stop, [])
  | .enterSafe _ _ => some (.enterSafe, [])
  | .resume _ _ => some (.resume, [])
  | .resetRig _ _ => some (.resetRig, [])
  | .setDeadline _ _ en l d =>
    some (.setDeadline, [bit1 en ++ (0 : BitVec 3) ++ l ++ (0 : Byte) ++ d])
  | .readRunState _ _ => some (.readRunState, [])
  | .setSpeed _ _ x r => some (.setSpeed, [x, (0 : Half) ++ r])
  | .setAngleBase _ _ x r => some (.setAngleBase, [x ++ (0 : Byte) ++ r])
  | .loadPattern _ _ x l => some (.loadPattern, indexWord x :: l.map fun w => w.start ++ w.stop)
  | .readAngleBase _ _ => some (.readAngleBase, [])
  | .readPattern _ _ x s => some (.readPattern, [x ++ (0 : BitVec 23) ++ bit1 s])
  | .liveUpdate _ _ l => some (.liveUpdate, l.flatMap entryWords)
  | .stepMark _ _ => some (.stepMark, [])
  | .setChannel _ _ c g => some (.setChannel, channelWords c g)
  | .force _ _ c x v => some (.force, [c ++ (0 : BitVec 2) ++ x, v])
  | .echo _ _ => some (.echo, [])
  | .readChannel _ _ c => some (.readChannel, [indexWord c])
  | .setRelayTiming _ _ s o => some (.setRelayTiming, [(0 : Half) ++ s ++ o])
  | .readRelays _ _ c => some (.readRelays, [indexWord c])
  | .armFault _ _ i g => some (.armFault, faultWords i g)
  | .releaseFault _ _ i => some (.releaseFault, [indexWord i])
  | .clearFault _ _ i => some (.clearFault, [indexWord i])
  | .readFault _ _ i => some (.readFault, [indexWord i])
  | .defineSegment _ _ i b l => some (.defineSegment, [indexWord i, b, l])
  | .freeSegment _ _ i => some (.freeSegment, [indexWord i])
  | .writeSamples _ _ i o l =>
    some (.writeSamples, (i ++ (0 : Byte) ++ BitVec.ofNat 16 l.length) :: o :: packSamples l)
  | .readSamples _ _ i o n => some (.readSamples, [i ++ (0 : Byte) ++ n, o])
  | .readSegment _ _ i => some (.readSegment, [indexWord i])
  | .setReplay _ _ i g =>
    some (.setReplay, [i ++ g.target ++ (0 : BitVec 4) ++ g.pacing ++ (0 : BitVec 3) ++ bit1 g.interp ++
      (0 : BitVec 2) ++ g.notify, (0 : Half) ++ g.rate, g.gain, g.offset])
  | .queueReplay _ _ i g =>
    some (.queueReplay, [i ++ g.segment ++ bit1 g.final ++ (0 : BitVec 3) ++ g.loops, g.first, g.count])
  | .stopReplay _ _ i => some (.stopReplay, [indexWord i])
  | .readReplay _ _ i => some (.readReplay, [indexWord i])
  | .setCapture _ _ i g =>
    some (.setCapture, [i ++ g.level ++ g.divider ++ g.agreement,
      bit1 g.enabled ++ (0 : BitVec 5) ++ g.edges ++ g.dest ++ (0 : BitVec 14) ++ bit1 g.trip ++
        bit1 g.width])
  | .takeCaptures _ _ n => some (.takeCaptures, [(0 : BitVec 24) ++ n])
  | .readCaptureState _ _ i => some (.readCaptureState, [indexWord i])
  | .readNotices _ _ => some (.readNotices, [])
  | .clearNotices _ _ m => some (.clearNotices, [m])
  | .setNoticeEnable _ _ m => some (.setNoticeEnable, [m])

/-- The packet of a request with tag `t`. -/
def packetOf (t : Byte) (e : RequestKind × List Word) : Packet := ⟨e.1.code, t, e.2.length, e.2⟩

/-- The words of a packet: its header and its payload (R188, R201). -/
def Packet.words (q : Packet) : List Word := headerWord requestMarker q.kind q.tag q.need :: q.payload

/-! ## Responses -/

/-- The four words of a capture record (R204). -/
def captureWords (r : CaptureRecord) : List Word :=
  [BitVec.ofNat 4 r.input.1 ++ bit1 r.rise ++ bit1 r.gap ++ bit1 r.width.isSome ++ (0 : BitVec 9) ++
      r.stamp.time.extractLsb' 32 16,
   r.stamp.time.extractLsb' 0 32,
   r.stamp.cycle ++ (0 : BitVec 2) ++ BitVec.ofNat 14 r.stamp.angle,
   (0 : Byte) ++ BitVec.ofNat 24 (r.width.getD 0)]

/-- What may be absent. -/
def Item.opt {α : Type} (f : α → Item) : Option α → Item
  | some x => f x
  | none => .absent

/-- A count, an index or a time. -/
def Item.nat (n : Nat) : Item := .number n

/-- A holder or another record, or none. -/
def Item.index {n : Nat} (k : Option (Fin n)) : Item := .opt (fun x : Fin n => .nat x.1) k

/-- The channel record (R23). -/
def Channel.items (ch : Channel) : List Item :=
  [.pulseMode ch.mode, .baseSource ch.source, .value ch.live, .mark ch.slot.isSome, .opt .value ch.slot,
   .value ch.forced, .nat ch.safe, .mark ch.inverted, .pattern ch.pattern, .nat ch.offset, .mark ch.autoRestore,
   .mark ch.keepOut, .driver ch.driver]

/-- What a FORCE response and a READ_CHANNEL response show of a generator (R31, R45). -/
def genView : Option Generator → OutputView
  | none => .stopped
  | some g => .pair g.period g.high

/-- What READ_CHANNEL lists after the record and the base value (R45). -/
def Channel.liveItems (ch : Channel) (kind : ChannelKind) : List Item :=
  match kind, ch.mode with
  | .pulse, .free => [.output (genView ch.gen), .opt .value ch.buffer, .mark ch.clamped]
  | .analog, _ => [.mark ch.clamped]
  | .pulse, .wheel | .switch, _ => []

/-- The fault record (R67). -/
def FaultRecord.items (r : FaultRecord) : List Item :=
  [.faultState r.state, .nat r.target.1, .index r.partner, .opt .bus r.bus, .faultKind r.kind, .nat r.level,
   .param r.param, .trigger r.trigger, .duration r.duration, .nat r.repeats, .nat r.repeatPeriod, .ports r.notify,
   .mark r.releasePending, .nat r.activations, .opt .stamp r.startStamp, .opt .stamp r.endStamp,
   .opt .failReason r.failReason, .nat r.trigProgress, .nat r.durProgress]

/-- A descriptor (R130). -/
def Descriptor.items (d : Descriptor) : List Item :=
  [.nat d.segment.1, .nat d.first, .nat d.count, .nat d.loops, .mark d.final, .mark d.ready]

/-- The settings of an engine (R129). -/
def Engine.settingItems (g : Engine) : List Item :=
  [.target g.target, .pacing g.pacing, .mark g.interp, .nat g.gain, .number g.offset, .ports g.notify]

/-- The position of an engine: k, and e under TIME pacing (R129). -/
def Engine.positionItems (g : Engine) : List Item :=
  match g.pacing with
  | .time _ => [.nat g.k, .nat g.e]
  | .angle _ => [.nat g.k]

/-- The engine record (R129). -/
def Engine.items (g : Engine) : List Item :=
  .engineState g.state :: g.settingItems ++ (g.current.map Descriptor.items).getD [.absent] ++
  g.queue.flatMap Descriptor.items ++ g.positionItems ++
  [.mark g.awaiting, .opt .number g.lastOut, .mark g.clamped]

/-- The settings of a capture input (R150). -/
def CaptureSettings.items (x : CaptureSettings) : List Item :=
  [.mark x.enabled, .nat x.level, .nat x.divider, .nat x.agreement, .edges x.edges, .ports x.dest, .mark x.trip,
   .mark x.width]

/-- The settings and the live state of a capture input (R150). -/
def CaptureInput.items (x : CaptureInput) : List Item :=
  x.settings.items ++ [.level (some x.comparator), .level x.level, .nat x.disagree, .opt .stamp x.runStamp,
    .opt .stamp x.lastEdge]

/-- The safe cause record (R168). -/
def causeItems : Option CauseRecord → List Item
  | none => [.absent]
  | some c => [.cause c.cause, .nat c.time.toNat]

/-- One relay of a READ_RELAYS response (R64). -/
def Relay.items (x : Relay) (made : Bool) : List Item :=
  [.relay x.state, .mark x.failed, .mark made, .opt (fun m => .nat m.elapsed) x.movement]

/-- What an OK response lists, in the order of its chapter (R201). READ_SAMPLES and TAKE_CAPTURES have their words
from chapter 11 instead (`okWords`). A thing that a response carries only under a condition of the state (a staged or a
buffered value, a movement's elapsed time, the ticks left, the place in the wait list, a current descriptor) is listed as
absent where it does not hold, and its words, if any, are then free; a thing that only another kind or mode of channel,
or another pacing, has is not listed and takes no words. Chapter 11 is silent on both: DESIGN CHOICE (assumption 1). -/
def Body.items : Body → List Item
  | .nothing | .samples _ | .captures _ _ _ => []
  | .mode m x => [.mode m, .monitor x]
  | .modeOnly m => [.mode m]
  | .modeCause m c => .mode m :: causeItems c
  | .monitor m => [.mark m.enabled, .nat m.deadline, .nat m.limit, .monitor m.state]
  | .runState t r counts moving =>
    [.nat t.toNat, .mode r.mode, .mark r.safe.level, .nat r.safe.count] ++ causeItems r.cause ++
    [.mark r.monitor.enabled, .nat r.monitor.deadline, .nat r.monitor.limit, .monitor r.monitor.state,
     .nat r.monitor.misses, .opt .nat r.monitor.timer] ++ counts.map .nat ++ [.mark moving]
  | .speed t s c => [.nat t, .nat s, .mark c]
  | .angleBase t b a i held w f =>
    [.nat t.toNat, .nat b.phase.toNat, .nat a, .nat b.cycle.toNat, .nat b.speed, .nat b.target, .nat b.ramp, .nat i,
     .speedSource b.source, .nat b.safeRamp, .mark held, .nat w.crank, .mark f.crank, .nat w.cam0, .mark f.cam0,
     .nat w.cam1, .mark f.cam1]
  | .placed x => [.placed x]
  | .pattern l f => l.map .window ++ [.mark f]
  | .count n => [.nat n]
  | .channel ch => ch.items
  | .forced x y c => [.output x, .output y, .mark c]
  | .echo none => [.absent]
  | .echo (some e) => [.nat e.channel.1, .value e.value, .nat e.time.toNat]
  | .channelRead kind ch base inService e =>
    ch.items ++ [.value base, .nat ch.lastOutput] ++ ch.liveItems kind ++ [.mark inService, .index e]
  | .timing t => [.nat t.settle, .nat t.timeout]
  | .relays x sense b battery t =>
    x.relays.path.items sense.path ++ x.relays.gnd.items sense.gnd ++ x.relays.bat.items sense.bat ++
    x.relays.x0.items sense.x0 ++ x.relays.x1.items sense.x1 ++
    [.mark x.inService, .mark x.normalising.isSome, .index x.holder, .index b.x0, .index b.x1, .mark battery,
     .nat t.settle, .nat t.timeout]
  | .fault r => r.items
  | .release x pending => [.faultState x, .mark pending]
  | .faultRead r place effective => r.items ++ [.opt .nat place, .opt .mark effective]
  | .segment g => [.mark g.defined, .nat g.base, .nat g.length, .nat g.refs]
  | .written g o n => [.nat g.1, .nat o, .nat n]
  | .engine g => g.items
  | .queued n x => [.nat n, .engineState x]
  | .engineRead g remaining bound =>
    g.settingItems ++ [.engineState g.state, .mark g.awaiting, .opt .number g.lastOut, .mark g.clamped] ++
    (g.current.map fun d => d.items ++ [.opt .nat remaining] ++ g.positionItems).getD [.absent] ++
    (.nat g.queue.length :: g.queue.flatMap Descriptor.items) ++ [.mark bound]
  | .capture x => x.items
  | .captureRead x levels m gapM b gapB =>
    x.items ++ levels.map .level ++ [.nat m, .mark gapM, .nat b, .mark gapB]
  | .notices f e atn synced => [.notices f, .notices e, .mark atn, .mark synced]
  | .cleared f atn => [.notices f, .mark atn]
  | .enables e f atn => [.notices e, .notices f, .mark atn]

/-- The words of one listed thing: the nine flags or enables stand in the bit order of R203; how the others are
packed is open (assumption 1). -/
def itemWords (kind : Byte) (place : Nat) : Item → List Word
  | .notices f => [(0 : BitVec 23) ++ f]
  | x => Config.itemWords kind place x

/-- The words of listed things in their order, `place` the place of the first (R201). -/
def listWords (kind : Byte) : Nat → List Item → List Word
  | _, [] => []
  | place, x :: rest => itemWords kind place x ++ listWords kind (place + 1) rest

/-- The words of an OK response after the status word: READ_SAMPLES as R203 and TAKE_CAPTURES as R204 lay them out,
the others in the order their chapter lists them (R201), within the 255 words of a packet (R188). -/
def okWords (kind : Byte) : Body → List Word
  | .samples l => ((0 : Half) ++ BitVec.ofNat 16 l.length) :: packSamples l
  | .captures l left gap =>
    (BitVec.ofNat 8 l.length ++ BitVec.ofNat 8 left ++ (0 : BitVec 15) ++ bit1 gap) ::
      l.flatMap captureWords
  | b => (listWords kind 0 b.items).take 254

/-- The words of a formed response: header, status word, further words (R188, R201). -/
def responseWords (kind tag : Byte) (r : Reply) : List Word :=
  let further := okWords kind r.body
  headerWord responseMarker kind tag (1 + further.length) :: ((0 : BitVec 24) ++ r.status.code) :: further

/-! ## The table's words -/

/-- The rows of spec/opcode_table.json give no bits, so no word spells a command of the table. -/
def decodeTableWord (_nbits _w : Nat) : Option Instr := none

end Sys2Proof
end

