-- ==== Sys2Proof/Machine/State.lean ====
section
/-! DEFINITION. The state of the Ravjor 2416 as plain data, the reasons a command can stop, and the state
after a power-on reset. -/

namespace Sys2Proof.Machine

/-- The whole state of the part. The fields from `pins` on are the model's own: the lines the rig drives,
the events of the instant in force not yet taken, the count of free values used, the place of the last start, and
the queue of waiting commands. The increment (R7), the angle count (R3), a channel's effective record (R111), READY
(R190) and ATN (R196) are functions of the state. -/
@[ext]
structure State where
  /-- the rig time (R1) -/
  rigTime    : RigTime
  /-- whether the half-tick instant after the last tick has passed (R32) -/
  halfDone   : Bool
  /-- the Angle Base (chapter 1) -/
  angle      : AngleBase
  /-- the Channel Table (R23) -/
  channels   : Vector Channel 24
  /-- the echo (R30) -/
  lastEcho   : Option Echo
  /-- the relay records (R47) -/
  relays     : Vector RelaySet 24
  /-- the holders of the cross buses (R52) -/
  buses      : BusHolders
  /-- the relay timing settings (R50) -/
  timing     : RelayTiming
  /-- the battery bus monitor (R62) -/
  battery    : LineFilter
  /-- the fault records (R67) -/
  faults     : Vector FaultRecord 64
  /-- the relay wait list, oldest first (R95) -/
  waitList   : List (Fin 64)
  /-- the tail of the wait list that joined at the instant in force, in ascending index (R78, R97) -/
  joining    : List (Fin 64)
  /-- whether the wait list is to be examined at the instant in force (R97) -/
  examineDue : Bool
  /-- Sample Memory, the samples that are not 0, in rising address (R115) -/
  memory     : List (Nat × Half)
  /-- the Segment Table (R117) -/
  segments   : Vector Segment 32
  /-- the sample transfer that is being moved (R124) -/
  moving     : Option Transfer
  /-- the sample transfer that waits for the other port's (R124) -/
  queued     : Option Transfer
  /-- the replay engines (R129) -/
  engines    : Vector Engine 4
  /-- the capture inputs (R150) -/
  inputs     : Vector CaptureInput 16
  /-- Port M (R189 to R196) -/
  portM      : PortState
  /-- Port B (R189 to R196) -/
  portB      : PortState
  /-- Run Control (R168, R169, R177) -/
  run        : RunControl
  /-- the lines the rig drives into the part -/
  pins       : Pins
  /-- the events of the instant in force that are not yet taken -/
  due        : List Event
  /-- how many free values have been used -/
  freeCount  : Nat
  /-- the grid points after the last one passed, up to and with the one at which the last request that started FREE
  generators has its starts open, so that no later request opens an earlier one; 0 where it is passed (R32) -/
  place      : Nat
  /-- the commands that wait, first in, first out -/
  pending    : List Instr
  deriving DecidableEq, Repr

/-- The reasons the machine stops with a fault: none. The manual gives the part no state in which it
stops, so no command raises one (safe). -/
inductive Fault where
  deriving DecidableEq, Repr

/-- The reasons a command has no meaning. -/
inductive Refusal where
  /-- The arm of a command that has no meaning yet: raised by `exec` alone (safe). -/
  | notModelled (mnemonic : String)
  /-- A request of more than 255 payload words: no packet can carry it (R188), so no master can send it.
  Raised by the request commands that carry a list (safe). -/
  | notAPacket
  deriving DecidableEq, Repr

/-! ## Reset values -/

/-- The relay set with its normal set (R47, R66). -/
def normalRelays : PerRelay Relay :=
  ⟨{ state := .closed }, { state := .opened }, { state := .opened }, { state := .opened },
    { state := .opened }⟩

/-- The contacts of a relay set whose coils have been at rest for long. -/
def normalSense : PerRelay Bool := ⟨true, false, false, false, false⟩

/-- A channel record after either reset (R46), with its noise source seeded by its index (R110). -/
def resetChannel (c : Fin 24) : Channel :=
  { noise := 0xACE1 ^^^ BitVec.ofNat 16 c.1 }

/-- The lines as `State.reset` takes them (assumption 4, DESIGN CHOICE): the SAFE chain open, no battery,
contacts at their normal positions, no driver in limit, capture inputs at 0 V. -/
def resetPins : Pins where
  resetLine := false
  safeLine  := true
  batteryMv := 0
  sense     := Vector.replicate 24 normalSense
  limit     := Vector.replicate 24 false
  captureMv := Vector.replicate 16 0

/-- The machine right after a power-on reset (R22, R46, R66, R92, R114, R128, R149, R167, R184, R200),
with no command waiting. -/
def State.reset : State where
  rigTime    := 0
  halfDone   := false
  angle      := {}
  channels   := Vector.ofFn resetChannel
  lastEcho   := none
  relays     := Vector.replicate 24 { relays := normalRelays }
  buses      := {}
  timing     := {}
  battery    := { level := false }
  faults     := Vector.replicate 64 {}
  waitList   := []
  joining    := []
  examineDue := false
  memory     := []
  segments   := Vector.replicate 32 {}
  moving     := none
  queued     := none
  engines    := Vector.replicate 4 {}
  inputs     := Vector.replicate 16 {}
  portM      := {}
  portB      := {}
  run        := {}
  pins       := resetPins
  due        := []
  freeCount  := 0
  place      := 0
  pending    := []

end Sys2Proof.Machine
end

