-- ==== Sys2Proof/Machine/Ops.lean ====
section
/-! DEFINITION. The named operations over the parts of the state: the tables of records, the ports, Sample
Memory, and the stamps. -/

namespace Sys2Proof

/-- Whether the port is in the set. -/
def PortSet.has (ps : PortSet) : Port → Bool
  | .M => ps.m
  | .B => ps.b

/-- One relay's entry. -/
def PerRelay.get {α : Type} (x : PerRelay α) : RelayName → α
  | .path => x.path
  | .gnd => x.gnd
  | .bat => x.bat
  | .x0 => x.x0
  | .x1 => x.x1

/-- The entries with one relay's changed. -/
def PerRelay.upd {α : Type} (x : PerRelay α) (r : RelayName) (f : α → α) : PerRelay α :=
  match r with
  | .path => { x with path := f x.path }
  | .gnd => { x with gnd := f x.gnd }
  | .bat => { x with bat := f x.bat }
  | .x0 => { x with x0 := f x.x0 }
  | .x1 => { x with x1 := f x.x1 }

/-- `f` applied to each relay's entry. -/
def PerRelay.map {α β : Type} (f : α → β) (x : PerRelay α) : PerRelay β :=
  ⟨f x.path, f x.gnd, f x.bat, f x.x0, f x.x1⟩

/-- The relays in the order of the table of 3.1. -/
def RelayName.all : List RelayName := [.path, .gnd, .bat, .x0, .x1]

/-- One pattern's entry. -/
def PerPattern.get {α : Type} (x : PerPattern α) : Pattern → α
  | .crank => x.crank
  | .cam0 => x.cam0
  | .cam1 => x.cam1

/-- The entries with one pattern's replaced. -/
def PerPattern.put {α : Type} (x : PerPattern α) (q : Pattern) (v : α) : PerPattern α :=
  match q with
  | .crank => { x with crank := v }
  | .cam0 => { x with cam0 := v }
  | .cam1 => { x with cam1 := v }

/-- `f` applied to each pattern's entry. -/
def PerPattern.map {α β : Type} (f : α → β) (x : PerPattern α) : PerPattern β :=
  ⟨f x.crank, f x.cam0, f x.cam1⟩

/-- The holder of a bus. -/
def BusHolders.get (h : BusHolders) : Bus → Option (Fin 64)
  | .x0 => h.x0
  | .x1 => h.x1

/-- The holders with one bus's replaced. -/
def BusHolders.put (h : BusHolders) (b : Bus) (v : Option (Fin 64)) : BusHolders :=
  match b with
  | .x0 => { h with x0 := v }
  | .x1 => { h with x1 := v }

namespace Machine

/-- The outcome of a command. -/
abbrev Result := Host.Outcome State Fault Refusal

/-- A table with `f` applied to each record and its index. -/
def mapV {α β : Type} {n : Nat} (f : Fin n → α → β) (v : Vector α n) : Vector β n :=
  Vector.ofFn fun i => f i (v.get i)

/-- A table with one record changed. -/
def updV {α : Type} {n : Nat} (v : Vector α n) (i : Fin n) (f : α → α) : Vector α n :=
  v.set i.1 (f (v.get i)) i.2

/-! ## Records by index -/

/-- The record of a channel (R23). -/
def State.channel (s : State) (c : Fin 24) : Channel := s.channels.get c

/-- The state with the record of one channel changed. -/
def State.updChannel (s : State) (c : Fin 24) (f : Channel → Channel) : State :=
  { s with channels := updV s.channels c f }

/-- The relay record of a channel (R47). -/
def State.relaySet (s : State) (c : Fin 24) : RelaySet := s.relays.get c

/-- The state with one relay record changed. -/
def State.updRelaySet (s : State) (c : Fin 24) (f : RelaySet → RelaySet) : State :=
  { s with relays := updV s.relays c f }

/-- A fault record (R67). -/
def State.fault (s : State) (k : Fin 64) : FaultRecord := s.faults.get k

/-- The state with one fault record changed. -/
def State.updFault (s : State) (k : Fin 64) (f : FaultRecord → FaultRecord) : State :=
  { s with faults := updV s.faults k f }

/-- A segment record (R117). -/
def State.segment (s : State) (g : Fin 32) : Segment := s.segments.get g

/-- The state with one segment record changed. -/
def State.updSegment (s : State) (g : Fin 32) (f : Segment → Segment) : State :=
  { s with segments := updV s.segments g f }

/-- An engine record (R129). -/
def State.engine (s : State) (n : Fin 4) : Engine := s.engines.get n

/-- The state with one engine record changed. -/
def State.updEngine (s : State) (n : Fin 4) (f : Engine → Engine) : State :=
  { s with engines := updV s.engines n f }

/-- A capture input (R150). -/
def State.input (s : State) (i : Fin 16) : CaptureInput := s.inputs.get i

/-- The state with one capture input changed. -/
def State.updInput (s : State) (i : Fin 16) (f : CaptureInput → CaptureInput) : State :=
  { s with inputs := updV s.inputs i f }

/-- A port (chapter 10). -/
def State.port (s : State) : Port → PortState
  | .M => s.portM
  | .B => s.portB

/-- The state with one port changed. -/
def State.updPort (s : State) (p : Port) (f : PortState → PortState) : State :=
  match p with
  | .M => { s with portM := f s.portM }
  | .B => { s with portB := f s.portB }

/-- The state with Run Control changed. -/
def State.updRun (s : State) (f : RunControl → RunControl) : State := { s with run := f s.run }

/-- The state with the Angle Base changed. -/
def State.updAngle (s : State) (f : AngleBase → AngleBase) : State := { s with angle := f s.angle }

/-- The state with events added at the tail of those that are due. -/
def State.addDue (s : State) (l : List Event) : State := { s with due := s.due ++ l }

/-- The state with the events of a class no longer due. -/
def State.dropDue (s : State) (p : Event → Bool) : State := { s with due := s.due.filter fun e => !p e }

/-- The state with the use of one free value counted. -/
def State.useFree (s : State) : State := { s with freeCount := s.freeCount + 1 }

/-- The state with the use of a free place counted and the place kept (assumption 23). -/
def State.usePlace (s : State) (w : Nat) : State := { s with freeCount := s.freeCount + 1, place := w }

/-! ## Sample Memory (R115) -/

/-- The number of samples of Sample Memory (R115). -/
def memorySize : Nat := 1048576

/-- The sample at an address; an address that is not listed reads 0 (R115: a power-on reset sets every
sample to 0). -/
def memRead : List (Nat × Half) → Nat → Half
  | [], _ => 0
  | (b, w) :: rest, a => if a = b then w else memRead rest a

/-- The memory with one sample written. A sample of 0 is not listed. -/
def memWrite : List (Nat × Half) → Nat → Half → List (Nat × Half)
  | [], a, v => if v = 0 then [] else [(a, v)]
  | (b, w) :: rest, a, v =>
    if a < b then (if v = 0 then (b, w) :: rest else (a, v) :: (b, w) :: rest)
    else if a = b then (if v = 0 then rest else (a, v) :: rest)
    else (b, w) :: memWrite rest a v

/-- The memory with samples written at ascending addresses from `a` (R125). -/
def memWriteRun : List (Nat × Half) → Nat → List Half → List (Nat × Half)
  | m, _, [] => m
  | m, a, v :: rest => memWriteRun (memWrite m a v) (a + 1) rest

/-- The samples of `n` ascending addresses from `a` (R126). -/
def memReadRun (m : List (Nat × Half)) (a : Nat) : Nat → List Half
  | 0 => []
  | n + 1 => memRead m a :: memReadRun m (a + 1) n

/-- The canonical form of Sample Memory: addresses strictly rising and within the store, no sample of 0. -/
abbrev Memory.wf (m : List (Nat × Half)) : Prop :=
  m.Pairwise (fun x y => x.1 < y.1) ∧ ∀ x ∈ m, x.1 < memorySize ∧ x.2 ≠ 0

/-! ## Angle and stamps -/

/-- The increment for a speed, rounded to the nearest integer with halves up (R7). -/
def increment (speed : Nat) : Nat := (speed * 2 ^ 32 + 240000000) / 480000000

/-- The angle count of a phase (R3). -/
def angleCount (phase : BitVec 32) : Nat := phase.toNat * 45 / 2 ^ 24

/-- The angle count of the state (R3). -/
def State.angleNow (s : State) : Nat := angleCount s.angle.phase

/-- The stamp of this instant: the values after the most recent tick (R71). -/
def State.stampNow (s : State) : Stamp := ⟨s.rigTime, s.angleNow, s.angle.cycle⟩

/-- Whether the ramp is held: RUN, the monitor LATE and the speed source MODEL (R9). -/
def State.rampHeld (s : State) : Bool :=
  s.run.mode == .run && s.run.monitor.state == .late && s.angle.source == .model

/-! ## Windows of time -/

/-- The time from `t` to `u` on the 48-bit rig time (R155, R157). -/
def timeSince (u t : RigTime) : Nat := (u - t).toNat

/-- One stamp time is later than another when it follows it by 1..2^47 (R157). -/
def laterThan (u t : RigTime) : Bool := 1 ≤ timeSince u t && timeSince u t ≤ 2 ^ 47

end Machine

end Sys2Proof
end

