-- ==== Sys2Proof/Machine/Flags.lean ====
section
/-! DEFINITION. The notices (R195 to R198), the ATN and READY lines (R190, R196), and whether a channel's
pin is driven (R38). -/

namespace Sys2Proof

/-- The mask of one flag (R203). -/
def Notice.mask (n : Notice) : BitVec 9 := BitVec.ofNat 9 (2 ^ n.bit)

/-- CAPTURE_READY reads set while the port's capture queue holds a record (R159). -/
def PortState.readyBit (q : PortState) : BitVec 9 := if q.captures.isEmpty then 0 else 1

/-- The nine flags of a port: the eight sticky flags, and CAPTURE_READY as the queue has it (R159, R195). -/
def PortState.flags (q : PortState) : BitVec 9 := (q.sticky &&& 0x1FE) ||| q.readyBit

/-- The level of a port's ATN line: asserted while a flag is set whose enable is on (R196). -/
def PortState.atn (q : PortState) : Bool := q.flags &&& q.enables != 0

/-- A port with a sticky flag set (R195). -/
def PortState.raise (q : PortState) (n : Notice) : PortState :=
  { q with sticky := q.sticky ||| Notice.mask n }

/-- One more sample of a filtered line: an agreeing sample clears the count, a disagreeing one adds 1
(R62, R169). -/
def LineFilter.sample (f : LineFilter) (level : Bool) : LineFilter :=
  if level = f.level then { f with count := 0 } else { f with count := f.count + 1 }

/-- The filter after four disagreeing samples: the flag at the level they show, the count 0 (R62, R169). -/
def LineFilter.change (f : LineFilter) : LineFilter := { level := !f.level, count := 0 }

namespace Machine

/-- Set a flag on one port (R195). -/
def State.raise (s : State) (p : Port) (n : Notice) : State := s.updPort p fun q => q.raise n

/-- Set a flag on both ports (R195). -/
def State.raiseBoth (s : State) (n : Notice) : State :=
  { s with portM := s.portM.raise n, portB := s.portB.raise n }

/-- Set a flag on each port of a set (R70, R145). -/
def State.raiseSet (s : State) (ps : PortSet) (n : Notice) : State :=
  { s with portM := if ps.m then s.portM.raise n else s.portM,
           portB := if ps.b then s.portB.raise n else s.portB }

/-- READY: the inbound queue has a free place and the part is not held in reset (R190). -/
def State.ready (s : State) (p : Port) : Bool :=
  !s.pins.resetLine && decide ((s.port p).inbound.length < 8)

/-- A channel's pin is driven when its driver is DRIVING and it is IN_SERVICE (R38). -/
def State.drives (s : State) (c : Fin 24) : Bool :=
  (s.channel c).driver == .driving && (s.relaySet c).inService

/-- What the harness sees at the driver's side of the relay set: the value presented while the pin is
driven, high-impedance otherwise (R38). What an analog or switch driver presents from its return to DRIVING to the
next refresh is the model's choice, DESIGN CHOICE (assumption 14). -/
def State.pinOut (s : State) (c : Fin 24) : Option Nat :=
  if s.drives c then some (s.channel c).pin else none

end Machine

end Sys2Proof
end

