-- ==== Sys2Proof/Machine/Operands.lean ====
section
/-! DEFINITION. How the fields of the requests name things: indices within their tables, the codes of R203
and R205, and the ranges in which values and parameters are judged. -/

namespace Sys2Proof

/-- The counts of angle a pattern covers (R15). -/
def Pattern.span : Pattern → Nat
  | .crank => 5760
  | .cam0 | .cam1 => 11520

/-- The greatest number of windows of a pattern (R15). -/
def Pattern.most : Pattern → Nat
  | .crank => 120
  | .cam0 | .cam1 => 16

/-- The fault kinds in the order of their codes (R205). -/
def FaultKind.all : List FaultKind :=
  [.openWire, .shortGnd, .shortBat, .pinShort, .stuckAt, .freeze, .offset, .gain, .noise, .missTooth,
   .extraTooth]

/-- The electronic kinds; the others are the relay kinds (R68). -/
def FaultKind.electronic : FaultKind → Bool
  | .openWire | .shortGnd | .shortBat | .pinShort => false
  | .stuckAt | .freeze | .offset | .gain | .noise | .missTooth | .extraTooth => true

/-- Whether an edge selection selects an edge (R82, R154). -/
def EdgeSel.selects : EdgeSel → Bool → Bool
  | .rise, r => r
  | .fall, r => !r
  | .both, _ => true

/-- The number of a parameter; 0 for an extra tooth's pair. -/
def Param.num : Param → Int
  | .int v => v
  | .extra _ _ => 0

namespace Machine

/-- An index field within a table of `n` records; none above it (R201: a field is judged by its range). -/
def indexIn (n : Nat) {w : Nat} (b : BitVec w) : Option (Fin n) :=
  if h : b.toNat < n then some ⟨b.toNat, h⟩ else none

/-- The kind of a channel (R23). -/
def kindOf (c : Fin 24) : ChannelKind :=
  if c.1 < 12 then .analog else if c.1 < 20 then .pulse else .switch

/-- The channel of an analog target (R23). -/
def analogChannel (c : Fin 12) : Fin 24 := ⟨c.1, by omega⟩

/-- The pattern a code names (R203, R205). -/
def patternOf (code : Nat) : Option Pattern :=
  if code = 0 then some .crank else if code = 1 then some .cam0 else if code = 2 then some .cam1 else none

/-- The speed source a code names (R203). -/
def sourceOf (code : Byte) : Option SpeedSource :=
  if code = 0 then some .model
  else if code = 1 then some .bench
  else if h : 4 ≤ code.toNat ∧ code.toNat < 8 then some (.replay ⟨code.toNat - 4, by omega⟩)
  else none

/-- The base source a code names (R205). -/
def baseSourceOf (code : BitVec 2) : Option BaseSource :=
  if code = 0 then some .live else if code = 1 then some .forced else if code = 2 then some .replay else none

/-- The edge selection a code names (R205). -/
def edgeOf (code : Nat) : Option EdgeSel :=
  if code = 0 then some .rise else if code = 1 then some .fall else if code = 2 then some .both else none

/-- The fault event a code names (R205). -/
def eventOf (code : Byte) : Option FaultEvent :=
  if code = 0 then some .start else if code = 1 then some .stop else none

/-- The fault kind a code names (R205). -/
def faultKindOf (code : BitVec 4) : Option FaultKind := FaultKind.all[code.toNat]?

/-- A notify set: bit 0 is M, bit 1 is B (R205). -/
def portSetOf (b : BitVec 2) : PortSet := ⟨b.getLsbD 0, b.getLsbD 1⟩

/-- Whether a value is good for a channel of a kind (R27). -/
def valueGood : ChannelKind → Int → Bool
  | .analog, _ => true
  | .pulse, v => 0 ≤ v && v ≤ 16777215
  | .switch, v => v == 0 || v == 1

/-- The value a channel of a kind stores: the auxiliary field is kept for a pulse channel alone (R27, R28). -/
def storedValue : ChannelKind → Int → Nat → Value
  | .pulse, v, x => ⟨v, x⟩
  | .analog, v, _ | .switch, v, _ => ⟨v, 0⟩

/-- A parameter in a range (R69). -/
def paramIn (lo hi v : Int) : Option Param := if lo ≤ v ∧ v ≤ hi then some (.int v) else none

/-- The parameter word judged by fault kind and by the target's kind, mode and pattern (R69); none where R69
refuses the combination or the value. -/
def judgeParam (k : FaultKind) (kind : ChannelKind) (mode : PulseMode) (q : Pattern) (w : Word) :
    Option Param :=
  match k with
  | .openWire | .shortGnd | .shortBat | .pinShort | .freeze => some (.int 0)
  | .stuckAt =>
    match kind with
    | .analog => paramIn 0 4000 w.toInt
    | .pulse | .switch => paramIn 0 1 w.toInt
  | .offset =>
    match kind, mode with
    | .analog, _ | .pulse, .free => paramIn (-65536) 65535 w.toInt
    | .pulse, .wheel => paramIn (-5760) 5759 w.toInt
    | .switch, _ => none
  | .gain =>
    match kind, mode with
    | .analog, _ | .pulse, .free => paramIn 0 65535 w.toInt
    | .pulse, .wheel | .switch, _ => none
  | .noise =>
    match kind, mode with
    | .analog, _ | .pulse, .free => paramIn 0 4000 w.toInt
    | .pulse, .wheel | .switch, _ => none
  | .missTooth =>
    match kind, mode with
    | .pulse, .wheel => paramIn 0 (q.most - 1) w.toInt
    | .pulse, .free | .analog, _ | .switch, _ => none
  | .extraTooth =>
    match kind, mode with
    | .pulse, .wheel =>
      let a := (w.extractLsb' 16 16).toNat
      let n := (w.extractLsb' 0 16).toNat
      if a < q.span ∧ 1 ≤ n ∧ n ≤ 720 then some (.extra a n) else none
    | .pulse, .free | .analog, _ | .switch, _ => none

/-- The trigger a request carries, or none where it is malformed (R73); `self` is the record's own index. -/
def judgeTrigger (self : Fin 64) : RawTrigger → Option Trigger
  | .atTime t => some (.atTime t)
  | .atAngle any c a =>
    if a.toNat ≤ 11519 then some (.atAngle (if any then none else some c) a.toNat) else none
  | .onCapture i e n =>
    match indexIn 16 i, edgeOf e.toNat with
    | some i, some e => if 1 ≤ n.toNat then some (.onCapture i e n.toNat) else none
    | _, _ => none
  | .onFault k e =>
    match indexIn 64 k, eventOf e with
    | some k, some e => if k = self then none else some (.onFault k e)
    | _, _ => none
  | .unknown _ => none

/-- The duration a request carries, or none where it is malformed (R73). -/
def judgeDuration : RawDuration → Option Duration
  | .untilRelease => some .untilRelease
  | .time v => if 1 ≤ v.toNat then some (.time v.toNat) else none
  | .angle v => if 1 ≤ v.toNat ∧ v.toNat ≤ 16777215 then some (.angle v.toNat) else none
  | .cycles v => if 1 ≤ v.toNat ∧ v.toNat ≤ 65535 then some (.cycles v.toNat) else none
  | .capture i e n =>
    match indexIn 16 i, edgeOf e.toNat with
    | some i, some e => if 1 ≤ n.toNat then some (.capture i e n.toNat) else none
    | _, _ => none
  | .unknown _ => none

/-- The partner a PIN_SHORT needs: another channel than the target (R73); absent for the other kinds (R74). -/
def judgePartner (k : FaultKind) (target : Fin 24) (b : Byte) : Option (Option (Fin 24)) :=
  if k = .pinShort then
    match indexIn 24 b with
    | some c => if c = target then none else some (some c)
    | none => none
  else some none

/-- The window list of LOAD_PATTERN passes R16: within the pattern's ranges, each start below its end, each
start beyond the end before it. -/
def windowsGood (q : Pattern) : List Window → Bool
  | [] => true
  | [w] => w.start < w.stop && w.stop ≤ q.span
  | w :: v :: rest => w.start < w.stop && w.stop ≤ q.span && w.stop < v.start && windowsGood q (v :: rest)

end Machine

end Sys2Proof
end

