-- ==== Sys2Proof/Machine/AngleBase.lean ====
section
/-! DEFINITION. The Angle Base: phase, cycle wraps, ramp steps and pattern tables (chapter 1). -/

namespace Sys2Proof

/-- Staged tables become the active tables and the flags are cleared (R5, R21). -/
def AngleBase.swapTables (a : AngleBase) : AngleBase :=
  { a with
    active := ⟨a.staged.crank.getD a.active.crank, a.staged.cam0.getD a.active.cam0,
      a.staged.cam1.getD a.active.cam1⟩
    staged := ⟨none, none, none⟩ }

/-- Whether the next phase addition carries past 2^32 (R5). -/
def AngleBase.carries (a : AngleBase) : Bool := 2 ^ 32 ≤ a.phase.toNat + Machine.increment a.speed

/-- The phase addition of one tick, with the two effects of a cycle wrap where it carries (R4, R5). -/
def AngleBase.advance (a : AngleBase) : AngleBase :=
  let phase := BitVec.ofNat 32 (a.phase.toNat + Machine.increment a.speed)
  if a.carries then { a.swapTables with phase := phase, cycle := a.cycle + 1 }
  else { a with phase := phase }

/-- One ramp step toward the target (R8). -/
def AngleBase.rampStep (a : AngleBase) : AngleBase :=
  if a.ramp = 0 then { a with speed := a.target }
  else if a.speed < a.target then { a with speed := min a.target (a.speed + a.ramp) }
  else { a with speed := max a.target (a.speed - a.ramp) }

/-- One step of the safe ramp toward 0 (R10). -/
def AngleBase.safeStep (a : AngleBase) : AngleBase := { a with speed := a.speed - a.safeRamp }

/-- What STOP does to the Angle Base (R21). -/
def AngleBase.stop (a : AngleBase) : AngleBase := { a.swapTables with speed := 0, target := 0 }

namespace Machine

/-- The angle advance of a tick (R6), from the angle counts before and after it. -/
def angleAdvance (before after : Nat) : Nat := (after + 11520 - before) % 11520

/-- Whether a tick reaches angle `x` in a cycle the trigger names: `before` is the angle count before the
tick, `d` its advance, `c` and `c'` the cycle numbers before and after it (R80). -/
def reaches (x : Nat) (cycle : Option Half) (before d : Nat) (c c' : Half) : Bool :=
  (List.range d).any fun j =>
    (before + (j + 1)) % 11520 == x &&
      match cycle with
      | none => true
      | some n => n == (if before + (j + 1) ≤ 11519 then c else c')

/-- The action of a millisecond boundary on the speed, after the target is settled (R8 to R10). -/
def State.rampBoundary (s : State) : State :=
  match s.run.mode with
  | .config => s
  | .run => if s.rampHeld then s else s.updAngle AngleBase.rampStep
  | .safe => s.updAngle AngleBase.safeStep

end Machine

end Sys2Proof
end

