-- ==== Sys2Proof/Machine/Channels.lean ====
section
/-! DEFINITION. The Output Stage: base values, electronic overlays, refreshes, wheel evaluation, FREE
generators, live and forced values, drivers (chapter 2 and 5.5). -/

namespace Sys2Proof

/-- The noise source after one advance: a Galois shift register with mask 0xB400 (R110). -/
def noiseNext (x : Half) : Half := if x.getLsbD 0 then (x >>> 1) ^^^ 0xB400 else x >>> 1

/-- The draw of a NOISE overlay with parameter `p` from the source's value `r` (R105). -/
def noiseDraw (r : Half) (p : Int) : Int := (r.toNat : Int) % (2 * p + 1) - p

/-- The base pair or base value a channel's source names, for a live or forced source (R24). -/
def Channel.ownBase (ch : Channel) : Value :=
  match ch.source with
  | .live => ch.live
  | .forced => ch.forced
  | .replay => {}

/-- A running generator after one more half-microsecond (R32). -/
def Generator.count (g : Generator) : Generator := { g with elapsed := g.elapsed + 1 }

/-- A driver at START (R40). -/
def Driver.start : Driver → Driver
  | .off => .driving
  | .driving => .driving
  | .tripped => .tripped

/-- A driver at STOP (R40). -/
def Driver.stop : Driver → Driver
  | .off => .off
  | .driving => .off
  | .tripped => .tripped

/-- A TRIPPED driver returned to service (R42). -/
def Driver.restore (m : Mode) : Driver → Driver
  | .tripped => if m = .config then .off else .driving
  | .off => .off
  | .driving => .driving

namespace Machine

/-! ## Base values and the effective record -/

/-- The record that beats the best so far when it is an ACTIVE electronic record on the channel with a
higher level (R111). -/
def betterRecord (s : State) (c : Fin 24) (best : Option (Fin 64)) (k : Fin 64) : Option (Fin 64) :=
  let r := s.fault k
  if r.state = .active ∧ r.kind.electronic = true ∧ r.target = c then
    match best with
    | none => some k
    | some b => if (s.fault b).level < r.level then some k else some b
  else best

/-- The effective record of a channel: the ACTIVE electronic record with the highest level, the lower index
among equals, or none (R111). -/
def State.effective (s : State) (c : Fin 24) : Option (Fin 64) :=
  (List.finRange 64).foldl (betterRecord s c) none

/-- The effective record's fields. -/
def State.effectiveRecord (s : State) (c : Fin 24) : Option FaultRecord := (s.effective c).map s.fault

/-- The lowest-numbered engine whose target is the channel (R24). -/
def State.boundEngine (s : State) (c : Fin 24) : Option (Fin 4) :=
  (List.finRange 4).find? fun n =>
    match (s.engine n).target with
    | .analog a => analogChannel a == c
    | .speed => false

/-- The base value of R24. -/
def State.baseValue (s : State) (c : Fin 24) : Value :=
  let ch := s.channel c
  match ch.source with
  | .live => ch.live
  | .forced => ch.forced
  | .replay =>
    match s.boundEngine c with
    | some n => { value := (s.engine n).lastOut.getD 0 }
    | none => {}

/-- The value that enters the overlay of an analog or switch channel: the safe value in SAFE, the base value
otherwise (R39). -/
def State.enteringValue (s : State) (c : Fin 24) : Int :=
  if s.run.mode = .safe then (s.channel c).safe else (s.baseValue c).value

/-! ## Overlays (R105 to R110) -/

/-- Whether a record draws from the noise source (R110). -/
def drawsNoise (e : Option FaultRecord) : Bool :=
  match e with
  | some r => r.kind == .noise
  | none => false

/-- The overlay of an analog channel on `b`, with `r` the noise source after its advance (R105, R106). -/
def analogOverlay (e : Option FaultRecord) (r : Half) (b : Int) : Int :=
  match e with
  | none => b
  | some f =>
    match f.kind with
    | .stuckAt => f.param.num
    | .freeze => ((f.frozen.getD 0 : Nat) : Int)
    | .offset => b + f.param.num
    | .gain => b * f.param.num / 4096
    | .noise => b + noiseDraw r f.param.num
    | .missTooth | .extraTooth | .openWire | .shortGnd | .shortBat | .pinShort => b

/-- The overlay of a switch channel on its level (R37, R105). -/
def switchOverlay (e : Option FaultRecord) (level : Int) : Int :=
  match e with
  | none => level
  | some f =>
    match f.kind with
    | .stuckAt => f.param.num
    | .freeze => ((f.frozen.getD 0 : Nat) : Int)
    | .offset | .gain | .noise | .missTooth | .extraTooth | .openWire | .shortGnd | .shortBat
    | .pinShort => level

/-- The period overlay of a FREE channel (R107). -/
def periodOverlay (e : Option FaultRecord) (r : Half) (period : Int) : Int :=
  match e with
  | none => period
  | some f =>
    match f.kind with
    | .offset => period + f.param.num
    | .gain => period * f.param.num / 4096
    | .noise => period + noiseDraw r f.param.num
    | .stuckAt | .freeze | .missTooth | .extraTooth | .openWire | .shortGnd | .shortBat | .pinShort =>
      period

/-- The effective pair of a period, and whether a clamp changed it (R32). -/
def effectivePair (e : Option FaultRecord) (r : Half) (base : Value) : Nat × Nat × Bool :=
  let p := periodOverlay e r base.value
  let period := (clampInt 20 16777215 p).toNat
  let high := min base.aux period
  (period, high, decide (p ≠ (period : Int)) || decide (high ≠ base.aux))

/-! ## Analog and switch refresh -/

/-- The refresh of an analog channel (R25, R26, R39, R110). A driver that has returned to DRIVING presents, until this
refresh, the code of before it stopped driving, where R42 says nothing: DESIGN CHOICE (assumption 14). -/
def refreshAnalog (s : State) (c : Fin 24) (ch : Channel) : Channel :=
  let e := s.effectiveRecord c
  let noise := if drawsNoise e then noiseNext ch.noise else ch.noise
  let v := analogOverlay e noise (s.enteringValue c)
  let code := (clampInt 0 4000 v).toNat
  { ch with
    noise := noise
    drawn := drawsNoise e
    lastOutput := code
    clamped := decide (v < 0) || decide (4000 < v)
    pin := if ch.driver = .driving then code else ch.pin }

/-- The refresh of a switch channel (R37, R39). A driver that has returned to DRIVING presents, until this refresh, the
level of before it stopped driving, where R42 says nothing: DESIGN CHOICE (assumption 14). -/
def refreshSwitch (s : State) (c : Fin 24) (ch : Channel) : Channel :=
  let level := (switchOverlay (s.effectiveRecord c) (s.enteringValue c)).toNat
  { ch with
    lastOutput := level
    pin := if ch.driver = .driving then (if ch.inverted then 1 - level else level) else ch.pin }

/-- The refresh of every analog and switch channel (R25, R37). -/
def State.refreshChannels (s : State) : State :=
  { s with channels := mapV (fun c ch =>
      match kindOf c with
      | .analog => refreshAnalog s c ch
      | .switch => refreshSwitch s c ch
      | .pulse => ch) s.channels }

/-! ## Pulse channels -/

/-- The pin side of the polarity stage for the active or the inactive level (R32, R36). -/
def polarLevel (inverted active : Bool) : Nat := if active = inverted then 0 else 1

/-- The pulse pin with the level `active` beneath the level overlays, and whether a FREEZE holds it
(R107 to R109). -/
def pulsePin (e : Option FaultRecord) (inverted active : Bool) : Nat × Bool :=
  match e with
  | none => (polarLevel inverted active, false)
  | some f =>
    match f.kind with
    | .stuckAt => (polarLevel inverted (f.param.num == 1), false)
    | .freeze => (f.frozen.getD 0, true)
    | .offset | .gain | .noise | .missTooth | .extraTooth | .openWire | .shortGnd | .shortBat
    | .pinShort => (polarLevel inverted active, false)

/-- A channel with its pulse pin set (R109). -/
def showPulse (e : Option FaultRecord) (active : Bool) (ch : Channel) : Channel :=
  { ch with pin := (pulsePin e ch.inverted active).1, pinHeld := (pulsePin e ch.inverted active).2 }

/-- The angle shift of a wheel channel: an OFFSET record's parameter (R35, R108). -/
def wheelShift (e : Option FaultRecord) : Int :=
  match e with
  | some f => if f.kind = .offset then f.param.num else 0
  | none => 0

/-- The tooth a MISS_TOOTH record removes (R36). -/
def missingTooth (e : Option FaultRecord) : Option Int :=
  match e with
  | some f => if f.kind = .missTooth then some f.param.num else none
  | none => none

/-- Whether a channel angle lies in the range an EXTRA_TOOTH record adds, `span` the pattern's angle (R108). -/
def inExtraTooth (e : Option FaultRecord) (span angle : Nat) : Bool :=
  match e with
  | some f =>
    match f.kind, f.param with
    | .extraTooth, .extra a w => decide ((angle + span - a) % span < w)
    | _, _ => false
  | none => false

/-- The channel angle of a wheel channel (R35). -/
def channelAngle (angle offset : Nat) (shift : Int) (span : Nat) : Nat :=
  ((((angle : Int) - offset - shift) % 11520) % (span : Int)).toNat

/-- Whether an angle lies in a window of the list that is not the missing tooth; `i` numbers the first
window (R36). -/
def inWindows (angle : Nat) (missing : Option Int) : Nat → List Window → Bool
  | _, [] => false
  | i, w :: rest =>
    (decide (w.start ≤ angle) && decide (angle < w.stop) && decide (missing ≠ some (i : Int))) ||
      inWindows angle missing (i + 1) rest

/-- Whether a wheel channel is at the active level, beneath the level overlays (R35, R36, R108). -/
def State.wheelActive (s : State) (c : Fin 24) (ch : Channel) : Bool :=
  let e := s.effectiveRecord c
  let angle := channelAngle s.angleNow ch.offset (wheelShift e) ch.pattern.span
  inWindows angle (missingTooth e) 0 (s.angle.active.get ch.pattern) ||
    inExtraTooth e ch.pattern.span angle

/-- Whether a pulse channel is at the active level, beneath the level overlays: the wheel evaluation in
WHEEL, the running period in FREE, inactive while the generator is stopped or halted (R32, R34, R36). -/
def State.pulseActive (s : State) (c : Fin 24) (ch : Channel) : Bool :=
  match ch.mode with
  | .wheel => s.wheelActive c ch
  | .free =>
    match ch.gen with
    | some g => g.active
    | none => false

/-- Every pulse channel at a tick: the wheel evaluation, and the level of a FREE channel; the level becomes
the last output (R23, R36). Where the tick's own instant moves the pin of a FREE channel, by the level overlay of a trigger
that fires or ends, by an entry to SAFE or by a request, the last output of that grid point is the level before it, unless a generator
event of the tick follows: DESIGN CHOICE (assumption 28). -/
def State.evaluatePulses (s : State) : State :=
  { s with channels := mapV (fun c ch =>
      match kindOf c with
      | .pulse =>
        let ch' := showPulse (s.effectiveRecord c) (s.pulseActive c ch) ch
        { ch' with lastOutput := ch'.pin }
      | .analog | .switch => ch) s.channels }

/-- The pin of one FREE channel follows its generator and its level overlay at once (R107). -/
def State.showFree (s : State) (c : Fin 24) : State :=
  if kindOf c = .pulse ∧ (s.channel c).mode = .free then
    s.updChannel c fun ch => showPulse (s.effectiveRecord c) (s.pulseActive c ch) ch
  else s

/-- At a grid point the level of a FREE channel becomes its last output (R23). -/
def keepLevel (c : Fin 24) (ch : Channel) : Channel :=
  if kindOf c = .pulse ∧ ch.mode = .free then { ch with lastOutput := ch.pin } else ch

/-- The last output of one FREE channel after its change at a grid point (R23). -/
def State.keepOutput (s : State) (c : Fin 24) : State := s.updChannel c (keepLevel c)

/-- The last outputs of the FREE channels at a half-tick instant (R23). -/
def State.keepOutputs (s : State) : State := { s with channels := mapV keepLevel s.channels }

/-! ## FREE generators -/

/-- The noise source as a period start of the channel would leave it (R110). -/
def State.nextNoise (s : State) (c : Fin 24) : Half :=
  if drawsNoise (s.effectiveRecord c) then noiseNext (s.channel c).noise else (s.channel c).noise

/-- A period start with a base pair (R32, R107, R110). -/
def State.openPeriod (s : State) (c : Fin 24) (base : Value) : State :=
  let e := s.effectiveRecord c
  let noise := s.nextNoise c
  let pair := effectivePair e noise base
  ((s.updChannel c fun ch =>
      { ch with
        gen := some { period := pair.1, high := pair.2.1, elapsed := 0, active := 0 < pair.2.1 }
        buffer := none
        clamped := pair.2.2
        noise := noise
        drawn := drawsNoise e }).showFree c).keepOutput c

/-- A FREE generator stopped or halted at the inactive level, its buffer empty and no start to come (R33, R34). -/
def haltGenerator (ch : Channel) : Channel := { ch with gen := none, buffer := none, wait := 0, clamped := false }

/-- The generator of one channel stopped (R33). -/
def State.stopGenerator (s : State) (c : Fin 24) : State := (s.updChannel c haltGenerator).showFree c

/-- The pulse channels. -/
def pulseChannels : List (Fin 24) := (List.finRange 24).filter fun c => kindOf c == .pulse

/-- Every FREE generator halted, as at SAFE entry and at STOP (R34). -/
def State.haltGenerators (s : State) : State := pulseChannels.foldl State.stopGenerator s

/-- A stopped FREE channel in RUN with a non-zero base period and no start to come (R33, R34). -/
def State.mayStart (s : State) (c : Fin 24) : Bool :=
  kindOf c == .pulse && (s.channel c).mode == .free && s.run.mode == .run && (s.channel c).gen.isNone &&
    (s.channel c).wait == 0 && (s.channel c).ownBase.value != 0

/-- A stopped FREE channel starts a fresh period with its base pair: at once on a grid point, which `w` 0 says, or at
the `w`-th grid point to come (R32 to R34). -/
def State.startGenerator (w : Nat) (s : State) (c : Fin 24) : State :=
  if s.mayStart c then
    if w = 0 then s.openPeriod c (s.channel c).ownBase else s.updChannel c fun ch => { ch with wait := w }
  else s

/-- The period of a generator elapses (R32). -/
def periodOver (g : Generator) : Bool := g.elapsed == g.period

/-- The high time of a generator elapses within its period (R32). -/
def highOver (g : Generator) : Bool := g.active && g.elapsed == g.high && g.high < g.period

/-- The event a generator brings about at its present count. -/
def generatorEvent (c : Fin 24) (g : Generator) : List Event :=
  if periodOver g then [.periodStart c] else if highOver g then [.highEnd c] else []

/-- A channel at a grid point: a running period counts, and a start to come draws nearer (R32). -/
def gridStep (ch : Channel) : Channel := { ch with gen := ch.gen.map Generator.count, wait := ch.wait - 1 }

/-- The event the next grid point brings to a channel (R32). -/
def gridEvent (c : Fin 24) (ch : Channel) : List Event :=
  match ch.gen with
  | none => if ch.wait = 1 then [.periodStart c] else []
  | some g => generatorEvent c g.count

/-- The events the next grid point brings (R32). -/
def State.gridEvents (s : State) : List Event := pulseChannels.flatMap fun c => gridEvent c (s.channel c)

/-- One grid point of every FREE generator (R32). -/
def State.countGenerators (s : State) : State :=
  { s with
    channels := mapV (fun _ ch => gridStep ch) s.channels
    place := s.place - 1
    due := s.due ++ s.gridEvents }

/-- The latest grid point at which a request may have a start open, counted from the last one passed: the next tick,
or the half-tick instant where it is still to come and brings an event, for a request that is given before that event
comes before it (R32, assumption 23). -/
def State.lastPlace (s : State) : Nat := if s.halfDone = true ∨ s.gridEvents ≠ [] then 1 else 2

/-- The grid point at which a start that a request brings about opens, counted from the last one passed: 0 while events
of the instant are due, for the request then acts at that grid point. Otherwise where the request lies is open
(assumption 23): on the grid point passed last, before the half-tick instant or at it, or after it where no event of
that instant is to come (R32). No request has an earlier place than one before it. -/
def State.startPlace (s : State) : Nat :=
  max s.place (if s.due.isEmpty then Config.startPlace s.freeCount % (s.lastPlace + 1) else 0)

/-- A start that a request brings about, with the use of its place counted and the place kept. -/
def State.startRequested (w : Nat) (s : State) (c : Fin 24) : State :=
  if s.mayStart c then (s.startGenerator w c).usePlace w else s

/-- Every FREE generator at START or RESUME (R34). -/
def State.startGenerators (s : State) : State := pulseChannels.foldl (State.startRequested s.startPlace) s

/-- The base pair of a FREE channel has changed: a running channel buffers it, a stopped one in RUN starts
with it where its period is not 0 (R33). -/
def State.basePairChanged (w : Nat) (s : State) (c : Fin 24) : State :=
  let ch := s.channel c
  if kindOf c = .pulse ∧ ch.mode = .free ∧ ch.gen.isSome then
    s.updChannel c fun ch => { ch with buffer := some ch.ownBase }
  else s.startRequested w c

/-- PERIOD_START: the period has elapsed, and the buffered or base pair opens the next one, or stops the
channel where its period is 0 (R32, R33); or a start that fell off the grid opens with the base pair (R32). -/
def State.takePeriodStart (s : State) (c : Fin 24) : State :=
  match (s.channel c).gen with
  | none => s.startGenerator 0 c
  | some g =>
    if periodOver g then
      let base := (s.channel c).buffer.getD (s.channel c).ownBase
      if base.value = 0 then (s.stopGenerator c).keepOutput c else s.openPeriod c base
    else s

/-- PULSE_HIGH_END: the effective high time has elapsed and the output goes to the inactive level (R32). -/
def State.takeHighEnd (s : State) (c : Fin 24) : State :=
  match (s.channel c).gen with
  | none => s
  | some g =>
    if highOver g then
      ((s.updChannel c fun ch => { ch with gen := some { g with active := false } }).showFree c).keepOutput c
    else s

/-! ## Live values (R28 to R30) -/

/-- A live value written: the slot is emptied and the echo records it (R28, R30). -/
def State.writeLive (s : State) (c : Fin 24) (v : Value) : State :=
  { s.updChannel c fun ch => { ch with live := v, slot := none } with lastEcho := some ⟨c, v, s.rigTime⟩ }

/-- A FREE channel whose source is LIVE takes or buffers its new live pair (R33). -/
def State.pairWritten (w : Nat) (s : State) (c : Fin 24) : State :=
  if (s.channel c).source = .live then s.basePairChanged w c else s

/-- The channels whose live values a request has written take or buffer the pairs it leaves, each once (R28, R33). -/
def State.pairsWritten (s : State) (wrote : Fin 24 → Bool) : State :=
  (pulseChannels.filter wrote).foldl (State.pairWritten s.startPlace) s

/-- A staged value (R28). -/
def State.stage (s : State) (c : Fin 24) (v : Value) : State :=
  s.updChannel c fun ch => { ch with slot := some v }

/-- The copy STEP_MARK makes for one channel (R29). -/
def State.copySlot (s : State) (c : Fin 24) : State :=
  match (s.channel c).slot with
  | some v => s.writeLive c v
  | none => s

/-- The number of slots present. -/
def State.slotCount (s : State) : Nat :=
  ((List.finRange 24).filter fun c => (s.channel c).slot.isSome).length

/-- The copies of STEP_MARK, in channel index order (R29). -/
def State.copySlots (s : State) : State :=
  ((List.finRange 24).foldl State.copySlot s).pairsWritten fun c => (s.channel c).slot.isSome

/-! ## Drivers (R40 to R42) -/

/-- Every driver at a mode change; a driver that stops driving discards its measurement (R40, R41). -/
def State.mapDrivers (s : State) (f : Driver → Driver) : State :=
  { s with channels := mapV (fun _ ch =>
      { ch with driver := f ch.driver,
                limitTicks := if f ch.driver = .driving then ch.limitTicks else none }) s.channels }

/-- The sample of a driver's current limit at a tick: the ticks since the first of an unbroken run (R41). -/
def limitSample (drives limiting : Bool) (t : Option Nat) : Option Nat :=
  if drives && limiting then
    match t with
    | none => some 0
    | some n => some (n + 1)
  else none

/-- Every driver's current limit sampled at a tick (R41). A channel that a command given at the tick's instant brings
back to driving its pin was not driving at this sample: DESIGN CHOICE (assumption 37). -/
def State.sampleLimits (s : State) : State :=
  let channels := mapV (fun c ch =>
    { ch with limitTicks := limitSample (s.drives c) (s.pins.limit.get c) ch.limitTicks }) s.channels
  { s with
    channels := channels
    due := s.due ++ ((List.finRange 24).filter fun c => (channels.get c).limitTicks == some 1000).map
      Event.driverTrip }

/-- DRIVER_TRIP: the driver becomes TRIPPED and OVERCURRENT is set on both ports (R41). -/
def State.takeDriverTrip (s : State) (c : Fin 24) : State :=
  if s.drives c ∧ (s.channel c).limitTicks = some 1000 then
    (s.updChannel c fun ch => { ch with driver := .tripped, limitTicks := none }).raiseBoth .overcurrent
  else s

/-- The recovery of drivers a Port B clear of OVERCURRENT starts (R42, R199). -/
def State.restoreDrivers (s : State) : State :=
  { s with channels := mapV (fun _ ch =>
      if ch.autoRestore then { ch with driver := ch.driver.restore s.run.mode } else ch) s.channels }

end Machine

end Sys2Proof
end

