-- ==== Sys2Proof/Machine/Replay.lean ====
section
/-! DEFINITION. The replay engines: position, output computation, the end of a descriptor, part modes
(chapter 7), and the reference counts they keep (R122). -/

namespace Sys2Proof

/-- Whether the pacing is ANGLE. -/
def Pacing.isAngle : Pacing → Bool
  | .angle _ => true
  | .time _ => false

/-- The top of the range an output is clamped to (R140). -/
def Target.top : Target → Int
  | .analog _ => 4000
  | .speed => 64000

/-- The sample of the cycle a phase falls in, of `n` samples a cycle (R138). -/
def cycleSample (phase : BitVec 32) (n : Nat) : Nat := phase.toNat * n / 2 ^ 32

/-- The fraction of the way from sample k to sample k + 1, in 1/256 (R137, R138). -/
def Engine.fraction (g : Engine) (phase : BitVec 32) : Nat :=
  match g.pacing with
  | .time p => g.e * 256 / p
  | .angle n => phase.toNat * n * 256 / 2 ^ 32 % 256

/-- The value of an output computation before its clamp, from the two samples and the fraction (R140). -/
def Engine.scale (g : Engine) (a b : Int) (f : Nat) : Int :=
  let i := if g.interp then a + (b - a) * f / 256 else a
  i * g.gain / 4096 + g.offset

/-- An engine with the output of one computation (R140, R141). -/
def Engine.output (g : Engine) (v : Int) : Engine :=
  { g with lastOut := some (clampInt 0 g.target.top v),
           clamped := decide (v < 0) || decide (g.target.top < v) }

/-- Whether an engine makes output computations (R139). -/
def Engine.computes (g : Engine) : Bool :=
  g.state == .running && !g.awaiting && g.current.isSome

namespace Machine

/-- Sample `k` of a descriptor (R130). -/
def State.sampleAt (s : State) (d : Descriptor) (k : Nat) : Int :=
  (memRead s.memory ((s.segment d.segment).base + d.first + k)).toInt

/-- One output computation: a RUNNING engine that awaits no wrap fetches its samples and writes its last
output; any other engine makes none (R139 to R141). -/
def computeOutput (s : State) (g : Engine) : Engine :=
  match g.state, g.awaiting, g.current with
  | .running, false, some d =>
    let a := s.sampleAt d g.k
    let b := if g.k + 1 < d.count then s.sampleAt d (g.k + 1) else a
    g.output (g.scale a b (g.fraction s.angle.phase))
  | _, _, _ => g

/-- The computations of the engines with an analog target, at a refresh (R139, R142). -/
def State.computeAnalog (s : State) : State :=
  { s with engines := mapV (fun _ g =>
      match g.target with
      | .analog _ => computeOutput s g
      | .speed => g) s.engines }

/-- The computations of the engines with target SPEED, at a millisecond boundary in RUN; the output of the
engine the speed source names becomes the target speed (R12, R143). -/
def State.computeSpeed (s : State) : State :=
  let engines := mapV (fun _ g =>
    match g.target with
    | .speed => computeOutput s g
    | .analog _ => g) s.engines
  let s' := { s with engines := engines }
  match s.angle.source with
  | .replay n =>
    let g := engines.get n
    if g.target = .speed ∧ Engine.computes g = true then
      s'.updAngle fun a => { a with target := (g.lastOut.getD 0).toNat }
    else s'
  | .model | .bench => s'

/-- One reference fewer (R122). -/
def State.dropRef (s : State) (g : Fin 32) : State := s.updSegment g fun x => { x with refs := x.refs - 1 }

/-- The head of an engine's queue becomes its current descriptor and the engine RUNNING (R136). -/
def State.promote (s : State) (n : Fin 4) : State :=
  match (s.engine n).queue with
  | [] => s
  | d :: rest =>
    let s := s.updEngine n fun g =>
      { g with state := .running, current := some { d with ready := false }, queue := rest, k := 0, e := 0,
               awaiting := g.pacing.isAngle }
    { s with due := s.due.erase (.replayAdvance n) }

/-- The end of the current descriptor: it loops, or it is finished and the engine goes on with the next one,
becomes IDLE after a final mark, or UNDERRUN. A descriptor that becomes current at a wrap tick starts at that
wrap (R136, R144, R145). With none current after a finished one the position is k = 0 and e = 0, where R144 gives none:
DESIGN CHOICE (assumption 30). -/
def State.endDescriptor (s : State) (n : Fin 4) (wrapped : Bool) : State :=
  match (s.engine n).current with
  | none => s
  | some d =>
    if 0 < d.loops then
      s.updEngine n fun g => { g with current := some { d with loops := d.loops - 1 }, k := 0 }
    else
      let s := (s.dropRef d.segment).updEngine n fun g => { g with current := none, k := 0, e := 0 }
      if d.final then
        (s.updEngine n fun g => { g with state := .idle }).raiseSet (s.engine n).notify .replayEvent
      else if (s.engine n).queue.isEmpty then
        (s.updEngine n fun g => { g with state := .underrun }).raiseSet (s.engine n).notify .replayEvent
      else
        (s.promote n).updEngine n fun g => { g with awaiting := g.awaiting && !wrapped }

/-- The position moved by `d` samples, with the end of the descriptor where it is reached (R137, R138, R144). -/
def State.movePosition (s : State) (n : Fin 4) (d : Nat) (wrapped : Bool) : State :=
  let s := s.updEngine n fun g => { g with k := g.k + d }
  match (s.engine n).current with
  | some c => if c.count ≤ (s.engine n).k then s.endDescriptor n wrapped else s
  | none => s

/-- A tick of one engine in RUN: an ANGLE-paced position follows the phase, or a waiting descriptor starts at
a wrap; a TIME-paced one counts, and the advance that reaches P is left due (R136 to R138). At a tick at which SAFE is
entered all this comes before the entry, the start at a wrap and the end of a descriptor with what follows it among it,
where R146 leaves the order open: DESIGN CHOICE (assumption 27). -/
def State.tickEngine (before : BitVec 32) (wrapped : Bool) (s : State) (n : Fin 4) : State :=
  let g := s.engine n
  if g.state = .running ∧ g.current.isSome then
    match g.pacing with
    | .angle m =>
      if g.awaiting then
        if wrapped then s.updEngine n fun g => { g with awaiting := false, k := 0 } else s
      else
        s.movePosition n ((cycleSample s.angle.phase m + m - cycleSample before m) % m) wrapped
    | .time p =>
      if g.e + 1 < p then s.updEngine n fun g => { g with e := g.e + 1 }
      else s.addDue [.replayAdvance n]
  else s

/-- A tick of the four engines (R137, R138). -/
def State.tickEngines (s : State) (before : BitVec 32) (wrapped : Bool) : State :=
  if s.run.mode = .run then (List.finRange 4).foldl (State.tickEngine before wrapped) s else s

/-- REPLAY_ADVANCE: e reaches P, e becomes 0 and k rises by one (R137). -/
def State.takeReplayAdvance (s : State) (n : Fin 4) : State :=
  let g := s.engine n
  match g.state, g.pacing, g.current with
  | .running, .time p, some _ =>
    if p ≤ g.e + 1 then (s.updEngine n fun g => { g with e := 0 }).movePosition n 1 false else s
  | _, _, _ => s

/-! ## Part modes (R146, R147) -/

/-- RUNNING engines become PAUSED at SAFE entry (R146). -/
def State.pauseEngines (s : State) : State :=
  let pause (g : Engine) : Engine := if g.state = .running then { g with state := .paused } else g
  { s with engines := mapV (fun _ g => pause g) s.engines }

/-- Every engine becomes IDLE at STOP, its descriptors kept (R147). -/
def State.idleEngines (s : State) : State :=
  { s with engines := mapV (fun _ g => { g with state := .idle }) s.engines }

/-- One engine at START or RESUME: a held current descriptor goes on, an IDLE or UNDERRUN engine without one
takes the head of its queue (R146, R147). -/
def State.startEngine (s : State) (n : Fin 4) : State :=
  let g := s.engine n
  if g.current.isSome then s.updEngine n fun g => { g with state := .running }
  else if g.state = .idle ∨ g.state = .underrun then s.promote n
  else s

/-- Every engine at START or RESUME (R146, R147). -/
def State.startEngines (s : State) : State := (List.finRange 4).foldl State.startEngine s

end Machine

end Sys2Proof
end

