-- ==== Sys2Proof/Machine/Faults.lean ====
section
/-! DEFINITION. The life of a fault record: firing, entry to ACTIVE, fault events and their chains, the end of
an activation, repeats, and the counting of triggers and durations (chapters 4 and 5). The relay side of the
passage is in Relays.lean. -/

namespace Sys2Proof

/-- Whether an edge of an input is a matching edge of the record's trigger, with the count it needs (R82). -/
def FaultRecord.triggerEdge (r : FaultRecord) (i : Fin 16) (rise : Bool) : Option Nat :=
  match r.trigger with
  | .onCapture j e n => if j = i ∧ e.selects rise = true then some n else none
  | .atTime _ | .atAngle _ _ | .onFault _ _ => none

/-- Whether an edge of an input is a matching edge of the record's duration, with its value (R88). -/
def FaultRecord.durationEdge (r : FaultRecord) (i : Fin 16) (rise : Bool) : Option Nat :=
  match r.duration with
  | .capture j e n => if j = i ∧ e.selects rise = true then some n else none
  | .untilRelease | .time _ | .angle _ | .cycles _ => none

/-- The value a duration counts to; none for UNTIL_RELEASE (R85). -/
def Duration.value : Duration → Option Nat
  | .untilRelease => none
  | .time n | .angle n | .cycles n | .capture _ _ n => some n

/-- The duration's progress has reached its value (R85). -/
def FaultRecord.durationOver (r : FaultRecord) : Bool :=
  match r.duration.value with
  | some n => n ≤ r.durProgress
  | none => false

/-- What a tick adds to a duration's progress: `d` the angle advance, `wrapped` a cycle wrap (R86, R87). -/
def Duration.tickGain (d : Nat) (wrapped : Bool) : Duration → Nat
  | .untilRelease | .capture _ _ _ => 0
  | .time _ => 1
  | .angle _ => d
  | .cycles _ => if wrapped then 1 else 0

/-- The trigger set up afresh for a repeat (R89, R90). -/
def Trigger.again (period : Nat) : Trigger → Trigger
  | .atTime t => .atTime (t + BitVec.ofNat 48 period)
  | .atAngle _ a => .atAngle none a
  | .onCapture i e n => .onCapture i e n
  | .onFault k e => .onFault k e

/-- The record re-armed for a repeat (R89, R103). -/
def FaultRecord.rearm (r : FaultRecord) : FaultRecord :=
  { r with
    state := .armed
    repeats := r.repeats - 1
    trigger := r.trigger.again r.repeatPeriod
    trigProgress := match r.trigger with
      | .onCapture _ _ _ => 0
      | .atTime _ | .atAngle _ _ | .onFault _ _ => r.trigProgress
    frozen := none
    seq := none
    fresh := true }

/-- A record is in use in these states (R67). -/
def FaultState.inUse : FaultState → Bool
  | .armed | .waiting | .starting | .active | .stopping => true
  | .free | .done | .failed => false

/-- An index put into a list in ascending order, once (R78). -/
def insertIndex (k : Fin 64) : List (Fin 64) → List (Fin 64)
  | [] => [k]
  | j :: rest => if k < j then k :: j :: rest else if k = j then j :: rest else j :: insertIndex k rest

namespace Machine

/-- A record enters DONE and announces it (R70). -/
def State.enterDone (s : State) (k : Fin 64) : State :=
  (s.updFault k fun r => { r with state := .done, frozen := none, seq := none }).raiseSet
    (s.fault k).notify .faultEvent

/-- A record enters FAILED with a reason and announces it (R70, R72). -/
def State.enterFailed (s : State) (k : Fin 64) (why : FailReason) : State :=
  (s.updFault k fun r => { r with state := .failed, failReason := some why, seq := none }).raiseSet
    (s.fault k).notify .faultEvent

/-- Entry to ACTIVE: the start stamp, the duration progress at 0, the FREEZE capture, the notice, and a level
overlay shown at once on a FREE channel (R70, R94, R109, R112). The START event is `startEvent`. -/
def State.enterActive (s : State) (k : Fin 64) : State :=
  let c := (s.fault k).target
  let s := s.updFault k fun r =>
    { r with
      state := .active
      startStamp := some s.stampNow
      durProgress := 0
      frozen := if r.kind = .freeze then some (s.channel c).lastOutput else none
      fresh := true }
  let s := s.raiseSet (s.fault k).notify .faultEvent
  if (s.fault k).kind.electronic then s.showFree c else s

/-- Whether a channel the record names is OUT_OF_SERVICE (R93). -/
def State.outOfService (s : State) (r : FaultRecord) : Bool :=
  !(s.relaySet r.target).inService ||
    match r.partner with
    | some c => !(s.relaySet c).inService
    | none => false

/-- The ARMED records that listen for an event of record `k`, in ascending index, in RUN (R83). -/
def State.listeners (s : State) (k : Fin 64) (e : FaultEvent) : List (Fin 64) :=
  if s.run.mode = .run then
    (List.finRange 64).filter fun j =>
      (s.fault j).state == .armed && (s.fault j).trigger == .onFault k e
  else []

/-- A trigger fires: an electronic record becomes ACTIVE and its START event fires its listeners at the same
instant; a relay record joins the wait list, or becomes FAILED where a channel it names is OUT_OF_SERVICE
(R78, R84, R93, R95). A chain takes each record out of ARMED, so `fuel` 65 resolves it in full. -/
def fireFuel : Nat → State → Fin 64 → State
  | 0, s, _ => s
  | fuel + 1, s, k =>
    if (s.fault k).state = .armed then
      if (s.fault k).kind.electronic then
        let s := s.enterActive k
        (s.listeners k .start).foldl (fireFuel fuel) s
      else if s.outOfService (s.fault k) then s.enterFailed k .outOfService
      else
        { s.updFault k fun r => { r with state := .waiting, fresh := true } with
          joining := insertIndex k s.joining, examineDue := true }
    else s

/-- A record's trigger fires. -/
def State.fire (s : State) (k : Fin 64) : State := fireFuel 65 s k

/-- A fault event of a record fires the triggers that listen for it (R83, R84). -/
def State.produce (s : State) (k : Fin 64) (e : FaultEvent) : State := (s.listeners k e).foldl State.fire s

/-- The end of an activation, in the order of R103: end stamp and count, END event, then a repeat or DONE.
The chain of the END event is resolved in full before the re-arming, so a record that repeats is not fired by the START
event of a record that its own END event has fired, where R89 lets either come first: DESIGN CHOICE (assumption 41).
The effective record of the target follows from the records (R111). -/
def State.endActivation (s : State) (k : Fin 64) : State :=
  let c := (s.fault k).target
  let s := s.updFault k fun r =>
    { r with endStamp := some s.stampNow, activations := r.activations + 1 }
  let s := s.produce k .stop
  let r := s.fault k
  let s := if r.releasePending = false ∧ 0 < r.repeats then s.updFault k FaultRecord.rearm
    else s.enterDone k
  if (s.fault k).kind.electronic then s.showFree c else s

/-! ## Counting at ticks and edges -/

/-- A record at a tick: nothing is fresh any more, and the duration of an ACTIVE record counts (R85 to R87). -/
def tickRecord (d : Nat) (wrapped : Bool) (r : FaultRecord) : FaultRecord :=
  { r with
    fresh := false
    durProgress := if r.state = .active then r.durProgress + r.duration.tickGain d wrapped
      else r.durProgress }

/-- Every record at a tick; the durations that reach their values are left due (R85). -/
def State.tickFaults (s : State) (d : Nat) (wrapped : Bool) : State :=
  let faults := mapV (fun _ r => tickRecord d wrapped r) s.faults
  { s with
    faults := faults
    due := s.due ++ ((List.finRange 64).filter fun k =>
      (faults.get k).state == .active && (faults.get k).durationOver).map Event.durationEnd }

/-- The ARMED AT_TIME triggers whose time is reached are left due, in RUN (R79). -/
def State.noteAtTime (s : State) : State :=
  if s.run.mode = .run then
    s.addDue (((List.finRange 64).filter fun k =>
      (s.fault k).state == .armed &&
        match (s.fault k).trigger with
        | .atTime t => t.toNat ≤ s.rigTime.toNat
        | .atAngle _ _ | .onCapture _ _ _ | .onFault _ _ => false).map Event.atTime)
  else s

/-- AT_TIME_TRIGGER: the trigger fires at the tick that reached its time (R79). -/
def State.takeAtTime (s : State) (k : Fin 64) : State :=
  let r := s.fault k
  match r.trigger with
  | .atTime t =>
    if s.run.mode = .run ∧ r.state = .armed ∧ r.fresh = false ∧ t.toNat ≤ s.rigTime.toNat then s.fire k
    else s
  | .atAngle _ _ | .onCapture _ _ _ | .onFault _ _ => s

/-- The ARMED AT_ANGLE triggers whose angle the tick reaches fire, in RUN, in ascending index (R78, R80). -/
def State.fireAtAngle (s : State) (before d : Nat) (c c' : Half) : State :=
  if s.run.mode = .run then
    ((List.finRange 64).filter fun k =>
      (s.fault k).state == .armed &&
        match (s.fault k).trigger with
        | .atAngle cycle x => reaches x cycle before d c c'
        | .atTime _ | .onCapture _ _ _ | .onFault _ _ => false).foldl State.fire s
  else s

/-- A record after a reported edge of an input: a matching edge counts toward an ARMED trigger in RUN and
toward a running duration, unless the record entered its state at this tick (R82, R85, R88, R161). A record armed in SAFE
counts an edge reported after a RESUME at the edge's tick: DESIGN CHOICE (assumption 38). -/
def edgeRecord (run : Bool) (i : Fin 16) (rise : Bool) (r : FaultRecord) : FaultRecord :=
  if r.fresh then r
  else if r.state = .armed then
    match r.triggerEdge i rise with
    | some n => if run ∧ r.trigProgress < n then { r with trigProgress := r.trigProgress + 1 } else r
    | none => r
  else if r.state = .active then
    match r.durationEdge i rise with
    | some _ => { r with durProgress := r.durProgress + 1 }
    | none => r
  else r

/-- An ARMED ON_CAPTURE trigger whose progress has reached its count (R82). -/
def captureReady (r : FaultRecord) : Bool :=
  match r.trigger with
  | .onCapture _ _ n => r.state == .armed && !r.fresh && r.trigProgress == n
  | .atTime _ | .atAngle _ _ | .onFault _ _ => false

/-- An edge handed to the Fault Table: the triggers and durations it completes are left due (R161). It counts where the
part is in RUN as it is reported, also after a RESUME at its tick: DESIGN CHOICE (assumption 38). -/
def State.countEdge (s : State) (i : Fin 16) (rise : Bool) : State :=
  let run := s.run.mode == .run
  let faults := mapV (fun _ r => edgeRecord run i rise r) s.faults
  let fired := (List.finRange 64).filter fun k =>
    ((s.fault k).triggerEdge i rise).isSome && run && captureReady (faults.get k) &&
      !captureReady (s.fault k)
  let ended := (List.finRange 64).filter fun k =>
    ((s.fault k).durationEdge i rise).isSome && (faults.get k).state == .active &&
      (faults.get k).durationOver && !(s.fault k).durationOver
  { s with
    faults := faults
    due := s.due ++ fired.map Event.onCapture ++ ended.map Event.durationEnd }

/-- ON_CAPTURE_TRIGGER: the trigger whose count is reached fires (R82). -/
def State.takeOnCapture (s : State) (k : Fin 64) : State :=
  if s.run.mode = .run ∧ captureReady (s.fault k) = true then s.fire k else s

end Machine

end Sys2Proof
end

