-- ==== Sys2Proof/Machine/Relays.lean ====
section
/-! DEFINITION. The Relay Matrix: movements, steps and sequences, holders, normalisation, recovery, and the
relay wait list with its grants (chapters 3 and 5.2 to 5.4). -/

namespace Sys2Proof

/-- The state of a relay at rest in a position (R47). -/
def Position.rest : Position → RelayState
  | .opened => .opened
  | .closed => .closed

/-- The state of a relay moving toward a position (R48). -/
def Position.moving : Position → RelayState
  | .opened => .movingOpen
  | .closed => .movingClosed

/-- The position a relay is at or moves toward (R47). -/
def RelayState.position : RelayState → Position
  | .opened | .movingOpen => .opened
  | .closed | .movingClosed => .closed

/-- A relay is moving (R47). -/
def RelayState.moving : RelayState → Bool
  | .movingOpen | .movingClosed => true
  | .opened | .closed => false

/-- Whether a relay's coil is energised (R47). -/
def coilEnergised (r : RelayName) (x : RelayState) : Bool :=
  match r with
  | .path => x.position == .opened
  | .gnd | .bat | .x0 | .x1 => x.position == .closed

/-- A movement commanded toward a position (R48). -/
def Relay.command (t : RelayTiming) (pos : Position) (_ : Relay) : Relay :=
  { state := pos.moving, failed := false,
    movement := some { elapsed := 0, settle := t.settle, timeout := t.timeout } }

/-- What a step that wants a relay in a position does to it (R51); a moving relay takes no command (R48). -/
def Relay.want (t : RelayTiming) (pos : Position) (x : Relay) : Relay :=
  if x.state.moving then x
  else if x.state = pos.rest ∧ x.failed = false then x
  else x.command t pos

/-- A movement after one more tick (R48). -/
def Movement.tick (m : Movement) : Movement := { m with elapsed := m.elapsed + 1 }

/-- A movement completes at a tick whose sense line shows the new position once the settle time has elapsed
(R48). -/
def Relay.completes (x : Relay) (made : Bool) : Bool :=
  match x.movement with
  | some m => x.state.moving && 1000 * m.settle ≤ m.elapsed && (made == (x.state.position == .closed))
  | none => false

/-- A movement fails at the tick of its confirmation timeout where it does not complete (R49). -/
def Relay.fails (x : Relay) (made : Bool) : Bool :=
  match x.movement with
  | some m => x.state.moving && 1000 * m.timeout ≤ m.elapsed && !x.completes made
  | none => false

/-- A relay whose movement has ended (R48, R49). -/
def Relay.settle (x : Relay) (failed : Bool) : Relay :=
  { state := x.state.position.rest, failed := failed, movement := none }

/-- Any relay of a relay set is moving. -/
def RelaySet.anyMoving (x : RelaySet) : Bool :=
  RelayName.all.any fun r => (x.relays.get r).state.moving

/-- The relay of a cross bus. -/
def Bus.relay : Bus → RelayName
  | .x0 => .x0
  | .x1 => .x1

namespace Machine

/-- One relay a step wants in a position. -/
abbrev Wish := Fin 24 × RelayName × Position

/-- The start sequence of a record's kind (R54). -/
def startSteps (r : FaultRecord) : List (List Wish) :=
  match r.kind with
  | .openWire => [[(r.target, .path, .opened)]]
  | .shortGnd => [[(r.target, .path, .opened)], [(r.target, .gnd, .closed)]]
  | .shortBat => [[(r.target, .path, .opened)], [(r.target, .bat, .closed)]]
  | .pinShort =>
    match r.partner, r.bus with
    | some p, some b =>
      [[(p, .path, .opened)], [(r.target, b.relay, .closed), (p, b.relay, .closed)]]
    | _, _ => []
  | .stuckAt | .freeze | .offset | .gain | .noise | .missTooth | .extraTooth => []

/-- The stop sequence of a record's kind (R54). -/
def stopSteps (r : FaultRecord) : List (List Wish) :=
  match r.kind with
  | .openWire => [[(r.target, .path, .closed)]]
  | .shortGnd => [[(r.target, .gnd, .opened)], [(r.target, .path, .closed)]]
  | .shortBat => [[(r.target, .bat, .opened)], [(r.target, .path, .closed)]]
  | .pinShort =>
    match r.partner, r.bus with
    | some p, some b =>
      [[(r.target, b.relay, .opened), (p, b.relay, .opened)], [(p, .path, .closed)]]
    | _, _ => []
  | .stuckAt | .freeze | .offset | .gain | .noise | .missTooth | .extraTooth => []

/-- The steps of a sequence in flight (R54). -/
def sequenceSteps (r : FaultRecord) (stop : Bool) : List (List Wish) :=
  if stop then stopSteps r else startSteps r

/-- The two steps of a channel's normalisation (R57). -/
def normSteps (c : Fin 24) : List (List Wish) :=
  [[(c, .gnd, .opened), (c, .bat, .opened), (c, .x0, .opened), (c, .x1, .opened)], [(c, .path, .closed)]]

/-- The relay a step names. -/
def State.relay (s : State) (w : Wish) : Relay := (s.relaySet w.1).relays.get w.2.1

/-- One wish of a step acted on (R51). -/
def State.wish (s : State) (w : Wish) : State :=
  s.updRelaySet w.1 fun x => { x with relays := x.relays.upd w.2.1 (Relay.want s.timing w.2.2) }

/-- The movements of a step commanded at one instant (R51). -/
def State.runStep (s : State) (l : List Wish) : State := l.foldl State.wish s

/-- A movement of the step is in flight. -/
def State.stepMoving (s : State) (l : List Wish) : Bool := l.any fun w => (s.relay w).state.moving

/-- A movement of the ended step has failed (R51). -/
def State.stepFailed (s : State) (l : List Wish) : Bool := l.any fun w => (s.relay w).failed

/-- Steps run in order from number `i`; a step that commands no movement succeeds at its start (R51, R54).
Answers the number of the step in flight, or none where every step has succeeded. -/
def runSteps (s : State) (i : Nat) : List (List Wish) → State × Option Nat
  | [] => (s, none)
  | l :: rest =>
    let s := s.runStep l
    if s.stepMoving l then (s, some i) else runSteps s (i + 1) rest

/-! ## Holders -/

/-- Whether a fault record still holds a channel (R53, R73). -/
def State.holdsChannels (s : State) (k : Fin 64) : Bool :=
  (List.finRange 24).any fun c => (s.relaySet c).holder == some k

/-- Every holder a record holds is released at one instant, and the wait list is to be examined (R53, R97). -/
def State.releaseHolders (s : State) (k : Fin 64) : State :=
  { s with
    relays := mapV (fun _ x => if x.holder = some k then { x with holder := none } else x) s.relays
    buses := ⟨if s.buses.x0 = some k then none else s.buses.x0,
      if s.buses.x1 = some k then none else s.buses.x1⟩
    examineDue := true }

/-! ## Sequences -/

/-- Stop complete: the holders are released and the activation ends at the same instant (R53, R54, R101). -/
def State.stopComplete (s : State) (k : Fin 64) : State :=
  ((s.updFault k fun r => { r with seq := none }).releaseHolders k).endActivation k

/-- A sequence goes on from step `i` (R54). -/
def State.goOn (s : State) (k : Fin 64) (stop : Bool) (i : Nat) (done : State → Fin 64 → State) : State :=
  let run := runSteps s i ((sequenceSteps (s.fault k) stop).drop i)
  match run.2 with
  | some j => run.1.updFault k fun r => { r with seq := some ⟨stop, j⟩ }
  | none => done run.1 k

/-- The record enters STOPPING and its stop sequence begins (R54, R100). -/
def State.beginStop (s : State) (k : Fin 64) : State :=
  (s.updFault k fun r => { r with state := .stopping }).goOn k true 0 State.stopComplete

/-- Start complete: the record becomes ACTIVE with its START event, and goes on to STOPPING at the same
instant where a release is pending (R54, R94, R99). -/
def State.startComplete (s : State) (k : Fin 64) : State :=
  let s := ((s.updFault k fun r => { r with seq := none }).enterActive k).produce k .start
  if (s.fault k).releasePending then s.beginStop k else s

/-- The start sequence of a record that has taken its relays (R52, R54). -/
def State.beginStart (s : State) (k : Fin 64) : State :=
  (s.updFault k fun r => { r with state := .starting }).goOn k false 0 State.startComplete

/-! ## Normalisation (R57, R58, R60) -/

/-- A normalisation has ended on a channel: where a failed record still holds it, its holders are released
once no channel it holds normalises any more (R53, R57). -/
def State.normEnded (s : State) (c : Fin 24) : State :=
  match (s.relaySet c).holder with
  | none => s
  | some k =>
    if (List.finRange 24).any fun d =>
        (s.relaySet d).holder == some k && (s.relaySet d).normalising.isSome then s
    else s.releaseHolders k

/-- A normalisation succeeds; a recovering channel returns to service (R57, R60). -/
def State.normSucceeds (s : State) (c : Fin 24) : State :=
  (s.updRelaySet c fun x => { x with normalising := none, inService := true }).normEnded c

/-- A normalisation fails: the channel is OUT_OF_SERVICE, its driver's measurement is discarded, and
RELAY_FAULT is set on both ports (R41, R58, R60). -/
def State.normFails (s : State) (c : Fin 24) : State :=
  (((s.updRelaySet c fun x => { x with normalising := none, inService := false }).updChannel c fun ch =>
    { ch with limitTicks := none }).raiseBoth .relayFault).normEnded c

/-- The step of a normalisation by its number. -/
def normStep (i : Nat) : NormStep := if i = 0 then .breaking else .joining

/-- A normalisation goes on from step `i` (R57). -/
def State.normFrom (s : State) (c : Fin 24) (i : Nat) : State :=
  let run := runSteps s i ((normSteps c).drop i)
  match run.2 with
  | some j => run.1.updRelaySet c fun x => { x with normalising := some (normStep j) }
  | none => run.1.normSucceeds c

/-- The channels are marked normalising (R57). -/
def State.markNormalising (s : State) (l : List (Fin 24)) : State :=
  l.foldl (fun s c => s.updRelaySet c fun x => { x with normalising := some .breaking }) s

/-- Normalisations begin on channels at one instant (R55, R60). -/
def State.beginNorms (s : State) (l : List (Fin 24)) : State :=
  l.foldl (fun s c => s.normFrom c 0) (s.markNormalising l)

/-- Sequence failed: the record becomes FAILED with RELAY_TIMEOUT and every channel it holds begins its
normalisation (R55, R102). -/
def State.sequenceFailed (s : State) (k : Fin 64) : State :=
  let s := s.enterFailed k .relayTimeout
  s.beginNorms ((List.finRange 24).filter fun c => (s.relaySet c).holder == some k)

/-- The recovery of out-of-service channels a Port B clear of RELAY_FAULT starts (R60, R61, R199). -/
def State.recover (s : State) : State :=
  s.beginNorms ((List.finRange 24).filter fun c =>
    !(s.relaySet c).inService && !(s.channel c).keepOut && (s.relaySet c).normalising.isNone &&
      (s.relaySet c).holder.isNone)

/-! ## The end of a movement -/

/-- A movement of a normalising channel has ended (R57). -/
def State.normAdvance (s : State) (c : Fin 24) (n : NormStep) : State :=
  let i := match n with
    | .breaking => 0
    | .joining => 1
  let l := (normSteps c).getD i []
  if s.stepMoving l then s
  else if s.stepFailed l then s.normFails c
  else s.normFrom c (i + 1)

/-- A movement of a record's sequence has ended (R51, R54, R55). -/
def State.seqAdvance (s : State) (k : Fin 64) (q : Sequence) : State :=
  let l := (sequenceSteps (s.fault k) q.stop).getD q.step []
  if s.stepMoving l then s
  else if s.stepFailed l then s.sequenceFailed k
  else s.goOn k q.stop (q.step + 1) (if q.stop then State.stopComplete else State.startComplete)

/-- A movement on a channel has ended: it is handed to whatever commanded it (R49). -/
def State.movementEnded (s : State) (c : Fin 24) : State :=
  match (s.relaySet c).normalising with
  | some n => s.normAdvance c n
  | none =>
    match (s.relaySet c).holder with
    | some k =>
      match (s.fault k).seq with
      | some q => s.seqAdvance k q
      | none => s
    | none => s

/-- Whether the sense line of a relay shows its contact made (R47). -/
def State.sensed (s : State) (c : Fin 24) (r : RelayName) : Bool := (s.pins.sense.get c).get r

/-- MOVEMENT_COMPLETE (R48). -/
def State.takeMoveComplete (s : State) (c : Fin 24) (r : RelayName) : State :=
  if ((s.relaySet c).relays.get r).completes (s.sensed c r) then
    (s.updRelaySet c fun x => { x with relays := x.relays.upd r fun y => y.settle false }).movementEnded c
  else s

/-- MOVEMENT_FAIL (R49). -/
def State.takeMoveFail (s : State) (c : Fin 24) (r : RelayName) : State :=
  if ((s.relaySet c).relays.get r).fails (s.sensed c r) then
    (s.updRelaySet c fun x => { x with relays := x.relays.upd r fun y => y.settle true }).movementEnded c
  else s

/-- The event one relay's movement brings about at a tick (R48, R49). -/
def movementEvent (s : State) (c : Fin 24) (r : RelayName) : List Event :=
  let x := (s.relaySet c).relays.get r
  if x.completes (s.sensed c r) then [.moveComplete c r]
  else if x.fails (s.sensed c r) then [.moveFail c r]
  else []

/-- Every movement in flight at a tick (R48, R49). -/
def State.tickRelays (s : State) : State :=
  let tick (x : Relay) : Relay := { x with movement := x.movement.map Movement.tick }
  let tickSet (x : RelaySet) : RelaySet := { x with relays := x.relays.map tick }
  let s := { s with relays := mapV (fun _ x => tickSet x) s.relays }
  s.addDue ((List.finRange 24).flatMap fun c =>
    if (s.relaySet c).anyMoving then RelayName.all.flatMap (movementEvent s c) else [])

/-- Any relay of any channel is moving (R172). -/
def State.anyMoving (s : State) : Bool := (List.finRange 24).any fun c => (s.relaySet c).anyMoving

/-! ## The wait list (R95 to R98) -/

/-- The relay wait list, oldest first, with the records that joined at this instant (R95). -/
def State.wholeList (s : State) : List (Fin 64) := s.waitList ++ s.joining

/-- The channels a record needs (R96). -/
def needs (r : FaultRecord) : List (Fin 24) :=
  match r.partner with
  | some p => [r.target, p]
  | none => [r.target]

/-- The first free cross bus in the order X0, X1 (R96). -/
def State.freeBus (s : State) : Option Bus :=
  if s.buses.x0 = none then some .x0 else if s.buses.x1 = none then some .x1 else none

/-- Whether everything a record needs is free (R96). -/
def State.needsFree (s : State) (r : FaultRecord) : Bool :=
  (needs r).all (fun c => (s.relaySet c).holder == none) &&
    (r.kind != .pinShort || s.freeBus.isSome)

/-- Whether a record ahead on the list blocks a later one (R97). -/
def blocks (ahead r : FaultRecord) : Bool :=
  (needs r).any (fun c => (needs ahead).contains c) || (r.kind == .pinShort && ahead.kind == .pinShort)

/-- The take of a granted record: refused for OUT_OF_SERVICE or, for SHORT_BAT, for an ABSENT battery;
otherwise the record becomes the holder of what it needs and its start sequence begins (R52, R98). -/
def State.take (s : State) (k : Fin 64) : State :=
  let r := s.fault k
  if s.outOfService r then s.enterFailed k .outOfService
  else if r.kind = .shortBat ∧ s.battery.level = false then s.enterFailed k .noBattery
  else
    let hold (c : Fin 24) (x : RelaySet) : RelaySet :=
      if (needs r).contains c then { x with holder := some k } else x
    let s := { s with relays := mapV hold s.relays }
    let s := if r.kind = .pinShort then
        match s.freeBus with
        | some b =>
          { s.updFault k fun r => { r with bus := some b } with buses := s.buses.put b (some k) }
        | none => s
      else s
    s.beginStart k

/-- One record judged in a pass: granted and taken, or kept behind those kept ahead of it (R97). -/
def examineOne (acc : State × List (Fin 64)) (k : Fin 64) : State × List (Fin 64) :=
  let r := acc.1.fault k
  if acc.1.needsFree r = true ∧ (acc.2.any fun j => blocks (acc.1.fault j) r) = false then
    (acc.1.take k, acc.2)
  else (acc.1, acc.2 ++ [k])

/-- One pass through the wait list from the oldest record to the newest (R97). -/
def State.examine (s : State) : State :=
  let pass := s.wholeList.foldl examineOne
    ({ s with waitList := [], joining := [], examineDue := false }, [])
  { pass.1 with waitList := pass.2 ++ pass.1.waitList }

/-- The examinations of an instant: one pass after all its joins and releases, repeated while a pass itself
brings about a further join or release (R97). No event of the instant is left to take then: what a request between
the events of an instant joins or releases belongs to that instant, DEDUCED (assumption 16). -/
def settleFuel : Nat → State → State
  | 0, s => s
  | fuel + 1, s => if s.examineDue = true ∧ s.due = [] then settleFuel fuel s.examine else s

/-- The wait list settled where the instant has no event left (R97). The pass comes after an entry to SAFE at that
instant, so a record fired before the entry is WAITING as it comes, as in R113: DESIGN CHOICE (assumption 26). -/
def State.settle (s : State) : State := settleFuel 65 s

/-- A WAITING record leaves the list (R75, R95, R113). -/
def State.leaveList (s : State) (k : Fin 64) : State :=
  { s with waitList := s.waitList.erase k, joining := s.joining.erase k, examineDue := true }

end Machine

end Sys2Proof
end

