-- ==== Sys2Proof/Machine/Capture.lean ====
section
/-! DEFINITION. The Capture Unit: comparators, sampling and the filter, widths, capture records and the two
queues (chapter 8). The report of an edge is in Events.lean. -/

namespace Sys2Proof

/-- The threshold of a level index, in millivolts (R151). -/
def threshold (level : Nat) : Int := 800 * ((level : Int) + 1)

/-- The comparator output for a voltage in millivolts (R151). -/
def comparatorNext (level : Nat) (mv : Int) (old : Bool) : Bool :=
  if threshold level < mv then true else if mv < threshold level - 200 then false else old

/-- The live state of an input that is not sampled (R152). -/
def CaptureInput.clearLive (x : CaptureInput) : CaptureInput :=
  { x with level := none, disagree := 0, runStamp := none, lastEdge := none, edge := none }

/-- The agreement in progress discarded (R164). -/
def CaptureInput.restartFilter (x : CaptureInput) : CaptureInput :=
  { x with disagree := 0, runStamp := none, edge := none }

/-- The input after one sample of its comparator, stamped `st` (R152, R153). The sample that reaches the agreement
count leaves the edge, with the run's stamp, to be reported at its tick; the disagreement count never shows it. -/
def CaptureInput.sample (x : CaptureInput) (st : Stamp) : CaptureInput :=
  match x.level with
  | none => { x with level := some x.comparator }
  | some l =>
    if x.comparator = l then x.restartFilter
    else
      let first := if x.disagree = 0 then some st else x.runStamp
      if x.settings.agreement ≤ x.disagree + 1 then { x with edge := first }
      else { x with disagree := x.disagree + 1, runStamp := first }

/-- An edge of the input is to be reported (R153). -/
def CaptureInput.agreed (x : CaptureInput) : Bool := x.level.isSome && x.edge.isSome

/-- The width of an edge stamped `st` (R155). -/
def CaptureInput.edgeWidth (x : CaptureInput) (st : Stamp) : Option Nat :=
  if x.settings.width then x.lastEdge.map fun e => min (Machine.timeSince st.time e.time) 16777215 else none

/-- A capture record placed behind the last record whose time is not later than its own (R157), in a queue
given from its tail to its head. -/
def placeFromTail (r : CaptureRecord) : List CaptureRecord → List CaptureRecord
  | [] => [r]
  | x :: rest =>
    if Machine.laterThan x.stamp.time r.stamp.time then x :: placeFromTail r rest else r :: x :: rest

/-- A capture record placed in a queue (R157). -/
def placeRecord (r : CaptureRecord) (q : List CaptureRecord) : List CaptureRecord :=
  (placeFromTail r q.reverse).reverse

/-- A record offered to a port's queue: stored with the gap mark the queue owes it, or dropped where the queue
holds 128, with CAPTURE_GAP set (R157, R158). -/
def PortState.offer (q : PortState) (r : CaptureRecord) : PortState :=
  if q.captures.length < 128 then
    { q with captures := placeRecord { r with gap := q.gap } q.captures, gap := false }
  else { q.raise .captureGap with gap := true }

namespace Machine

/-- Whether an input takes a sample at this tick (R152). -/
def State.samples (s : State) (x : CaptureInput) : Bool :=
  x.settings.enabled && s.run.mode != .config && s.rigTime.toNat % x.settings.divider == 0

/-- The samples of a tick; an agreement that is reached is left due (R152, R153). -/
def State.sampleInputs (s : State) : State :=
  let inputs := mapV (fun _ x => if s.samples x then x.sample s.stampNow else x) s.inputs
  { s with
    inputs := inputs
    due := s.due ++ ((List.finRange 16).filter fun i => (inputs.get i).agreed).map Event.captureReport }

/-- A record offered to the queue of each port in a destination set (R154, R157). -/
def State.offer (s : State) (dest : PortSet) (r : CaptureRecord) : State :=
  { s with portM := if dest.m then s.portM.offer r else s.portM,
           portB := if dest.b then s.portB.offer r else s.portB }

/-- An input's voltage changes and its comparator is judged again (R151). -/
def State.setVoltage (s : State) (i : Fin 16) (mv : Int) : State :=
  ({ s with pins := { s.pins with captureMv := s.pins.captureMv.set i.1 mv } }).updInput i fun x =>
    { x with comparator := comparatorNext x.settings.level mv x.comparator }

end Machine

end Sys2Proof
end

