-- ==== Sys2Proof/Machine/RunControl.lean ====
section
/-! DEFINITION. Run Control: entry to SAFE, the mode changes with every block's action, the SAFE line, the
battery flag and the deadline monitor (chapter 9, R62, R113). -/

namespace Sys2Proof

/-- The timer started afresh (R178). -/
def Monitor.startTimer (m : Monitor) : Monitor := { m with timer := some (10 * m.deadline) }

/-- The monitor at START or RESUME (R178). -/
def Monitor.start (m : Monitor) : Monitor :=
  if m.enabled then { m with state := .onTime, misses := 0, timer := some (10 * m.deadline) }
  else { m with state := .off, misses := 0, timer := none }

/-- The monitor at a STEP_MARK taken in RUN (R179). -/
def Monitor.mark (m : Monitor) : Monitor :=
  match m.state with
  | .onTime | .late => { m with state := .onTime, misses := 0, timer := some (10 * m.deadline) }
  | .off | .lost => m

/-- The monitor after a counted miss: LATE with its timer restarted, or LOST with its timer stopped (R180). -/
def Monitor.miss (m : Monitor) : Monitor :=
  if m.misses + 1 < m.limit then
    { m with misses := m.misses + 1, state := .late, timer := some (10 * m.deadline) }
  else { m with misses := m.misses + 1, state := .lost, timer := none }

/-- An ON_CAPTURE trigger whose edge has been counted. -/
def Event.isOnCapture : Event → Bool
  | .onCapture _ => true
  | .replayAdvance _ | .captureReport _ | .millisecond | .moveComplete _ _ | .moveFail _ _ | .battery
  | .atTime _ | .durationEnd _ | .periodStart _ | .highEnd _ | .refresh | .driverTrip _ | .deadline
  | .safeLine => false

/-- An event that a change of the part mode undoes: the advance of a replay engine, which counts on at the tick
after RESUME or START (R146, R147), and the evaluation of an AT_TIME trigger (R78). -/
def Event.lapses : Event → Bool
  | .replayAdvance _ | .atTime _ => true
  | .captureReport _ | .millisecond | .moveComplete _ _ | .moveFail _ _ | .battery | .onCapture _
  | .durationEnd _ | .periodStart _ | .highEnd _ | .refresh | .driverTrip _ | .deadline | .safeLine => false

namespace Machine

/-- The events of a class that are due are taken with `f`, in order. -/
def State.drain (s : State) (p : Event → Bool) (f : State → Event → State) : State :=
  (s.due.filter p).foldl f { s with due := s.due.filter fun e => !p e }

/-- An ON_CAPTURE trigger event taken; other events are left alone. -/
def takeCaptureTrigger (s : State) : Event → State
  | .onCapture k => s.takeOnCapture k
  | .replayAdvance _ | .captureReport _ | .millisecond | .moveComplete _ _ | .moveFail _ _ | .battery
  | .atTime _ | .durationEnd _ | .periodStart _ | .highEnd _ | .refresh | .driverTrip _ | .deadline
  | .safeLine => s

/-- The ON_CAPTURE triggers whose edges have been counted fire (R82: a trigger fires at the tick of the edge).
An entry to SAFE and a STOP take them first (assumption 6). -/
def State.fireCounted (s : State) : State :=
  if s.due.any Event.isOnCapture then s.drain Event.isOnCapture takeCaptureTrigger else s

/-- What entry to SAFE does to one fault record (R113). -/
def State.safeRecord (s : State) (k : Fin 64) : State :=
  match (s.fault k).state with
  | .armed => s.enterDone k
  | .waiting => (s.leaveList k).enterDone k
  | .starting | .stopping => s.updFault k fun r => { r with releasePending := true }
  | .active =>
    let s := s.updFault k fun r => { r with releasePending := true }
    if (s.fault k).kind.electronic then s.endActivation k else s.beginStop k
  | .free | .done | .failed => s

/-- What entry to SAFE does to the Fault Table (R113). -/
def State.safeFaults (s : State) : State := (List.finRange 64).foldl State.safeRecord s

/-- Entry to SAFE from RUN; a cause that occurs in another mode does nothing (R174). The blocks act as the
table of 9.1 gives (R20, R34, R113, R146, R182). A relay record fired at this instant, or next to be granted at it, is
WAITING as the entry comes, for the pass of the wait list follows the entry: DESIGN CHOICE (assumption 26). -/
def State.enterSafe (s : State) (why : SafeCause) : State :=
  if s.run.mode = .run then
    let s := s.fireCounted.dropDue Event.lapses
    let s := s.updRun fun r =>
      { r with mode := .safe, cause := some ⟨why, s.rigTime⟩, monitor := { r.monitor with timer := none } }
    let s := s.raiseBoth .safeEntered
    let s := s.updAngle fun a => { a with target := 0 }
    s.haltGenerators.safeFaults.pauseEngines
  else s

/-- The part enters RUN from CONFIG (R19, R34, R40, R147, R171, R178). -/
def State.startRun (s : State) : State :=
  ((s.updRun fun r => { r with mode := .run, monitor := r.monitor.start }).mapDrivers
    Driver.start).startGenerators.startEngines

/-- The part enters RUN from SAFE (R19, R34, R146, R176, R178). An edge that is reported after it at the same instant is
reported in RUN, and counts toward the records armed in SAFE: DESIGN CHOICE (assumption 38). -/
def State.resumeRun (s : State) : State :=
  (s.updRun fun r => { r with mode := .run, monitor := r.monitor.start }).startGenerators.startEngines

/-- The part enters CONFIG (R21, R34, R40, R147, R165, R173, R182). No record is WAITING then (R172), so the wait list has
nothing left to examine. -/
def State.stopRun (s : State) : State :=
  let s := s.dropDue Event.lapses
  let s := s.updRun fun r => { r with mode := .config, monitor := { r.monitor with timer := none } }
  let s := (s.updAngle AngleBase.stop).mapDrivers Driver.stop
  let s := s.haltGenerators.idleEngines
  { s with inputs := mapV (fun _ x => x.clearLive) s.inputs, examineDue := false }

/-! ## Sampled lines -/

/-- The battery bus sampled at a tick: present above 6.4 V (R62). Between the tick of the fourth sample that disagrees
and BATTERY_FLAG_CHANGE the old flag and a count of 4 are kept: DESIGN CHOICE (assumption 31). -/
def State.sampleBattery (s : State) : State :=
  let f := s.battery.sample (decide (6400 < s.pins.batteryMv))
  { s with battery := f, due := s.due ++ if f.count = 4 then [.battery] else [] }

/-- BATTERY_FLAG_CHANGE (R62). -/
def State.takeBattery (s : State) : State :=
  if s.battery.count = 4 then { s with battery := s.battery.change } else s

/-- The SAFE input sampled at a tick (R169). Between the tick of the fourth sample that disagrees and SAFE_LINE_CHANGE the
old state and a count of 4 are kept, which a READ_RUN_STATE there shows: DESIGN CHOICE (assumption 31). -/
def State.sampleSafeLine (s : State) : State :=
  let f := s.run.safe.sample s.pins.safeLine
  (s.updRun fun r => { r with safe := f }).addDue (if f.count = 4 then [.safeLine] else [])

/-- SAFE_LINE_CHANGE: the state changes, and a change to ASSERTED in RUN enters SAFE (R169, R170). -/
def State.takeSafeLine (s : State) : State :=
  if s.run.safe.count = 4 then
    let s := s.updRun fun r => { r with safe := r.safe.change }
    if s.run.safe.level then s.enterSafe .safeLine else s
  else s

/-! ## The deadline monitor -/

/-- The timer at a tick in RUN; its expiry is left due (R178, R180). -/
def State.tickMonitor (s : State) : State :=
  match s.run.mode, s.run.monitor.timer with
  | .run, some n =>
    (s.updRun fun r => { r with monitor := { r.monitor with timer := some (n - 1) } }).addDue
      (if n ≤ 1 then [.deadline] else [])
  | _, _ => s

/-- DEADLINE_EXPIRY: a miss is counted, DEADLINE_MISSED is set on both ports, and the monitor becomes LATE, or
LOST with entry to SAFE (R180). -/
def State.takeDeadline (s : State) : State :=
  if s.run.mode = .run ∧ s.run.monitor.timer = some 0 then
    let s := (s.updRun fun r => { r with monitor := r.monitor.miss }).raiseBoth .deadlineMissed
    if s.run.monitor.state = .lost then s.enterSafe .deadlineLost else s
  else s

end Machine

end Sys2Proof
end

