-- ==== Sys2Proof/Machine/Events.lean ====
section
/-! DEFINITION. The events of an instant and the tick that brings them about. `takeEvent` takes one event that
is due; `flush` takes all that are left, in the order in which the tick noted them (assumption 5); `tick` closes
the instant in force, passes the half-tick instant, and makes the next tick (R2, R4, R32). -/

namespace Sys2Proof

/-- A capture report that comes before the report of input `i` at one tick: R157 orders the placing of their records
alone, and that the lower edge is acted on first in everything else is DESIGN CHOICE (assumption 36). -/
def Event.reportBefore (i : Fin 16) : Event → Bool
  | .captureReport j => j < i
  | .replayAdvance _ | .millisecond | .moveComplete _ _ | .moveFail _ _ | .battery | .atTime _ | .onCapture _
  | .durationEnd _ | .periodStart _ | .highEnd _ | .refresh | .driverTrip _ | .deadline | .safeLine => false

/-- A replay advance, which comes before the output computations of its tick (R139). -/
def Event.isAdvance : Event → Bool
  | .replayAdvance _ => true
  | .captureReport _ | .millisecond | .moveComplete _ _ | .moveFail _ _ | .battery | .atTime _ | .onCapture _
  | .durationEnd _ | .periodStart _ | .highEnd _ | .refresh | .driverTrip _ | .deadline | .safeLine => false

namespace Machine

/-- DURATION_END: the activation of an electronic record ends, a relay record enters STOPPING (R85, R100,
R103). -/
def State.takeDurationEnd (s : State) (k : Fin 64) : State :=
  let r := s.fault k
  if r.state = .active ∧ r.durationOver = true then
    if r.kind.electronic then s.endActivation k else s.beginStop k
  else s

/-- CAPTURE_EDGE_REPORT: the filtered level changes, the width is formed, the record is offered, the edge is
handed to the Fault Table, and a selected edge of a trip input in RUN enters SAFE (R153 to R158, R161, R162).
The triggers the edge completes fire before SAFE is entered (`State.enterSafe`, assumption 6); a duration the edge
completes ends after it, where R113 allows either order: DESIGN CHOICE (assumption 25). A trip edge counts toward a
trigger or a duration that it does not complete before SAFE is entered, where R82 allows either order: DESIGN CHOICE
(assumption 35). -/
def State.takeCaptureReport (s : State) (i : Fin 16) : State :=
  let x := s.input i
  match x.level, x.edge with
  | some l, some st =>
    let rise := !l
    let s := s.updInput i fun x => { x.restartFilter with level := some rise, lastEdge := some st }
    let selected := x.settings.edges.selects rise
    let s := if selected then s.offer x.settings.dest ⟨i, rise, st, false, x.edgeWidth st⟩ else s
    let s := s.countEdge i rise
    if selected ∧ x.settings.trip = true ∧ s.run.mode = .run then s.enterSafe (.trip i) else s
  | _, _ => s

/-- MILLISECOND_BOUNDARY: the SPEED engines compute in RUN, then the speed takes its ramp step (R8 to R10, R12,
R143). -/
def State.takeMillisecond (s : State) : State :=
  (if s.run.mode = .run then s.computeSpeed else s).rampBoundary

/-- ANALOG_REFRESH: the engines with an analog target compute, then every analog and switch channel refreshes
(R25, R37, R142). -/
def State.takeRefresh (s : State) : State := s.computeAnalog.refreshChannels

/-- What taking an event does. An event whose condition another event of the instant has undone does nothing. -/
def State.perform (s : State) : Event → State
  | .replayAdvance n => s.takeReplayAdvance n
  | .millisecond => s.takeMillisecond
  | .moveComplete c r => s.takeMoveComplete c r
  | .moveFail c r => s.takeMoveFail c r
  | .battery => s.takeBattery
  | .atTime k => s.takeAtTime k
  | .captureReport i => s.takeCaptureReport i
  | .onCapture k => s.takeOnCapture k
  | .durationEnd k => s.takeDurationEnd k
  | .periodStart c => s.takePeriodStart c
  | .highEnd c => s.takeHighEnd c
  | .refresh => s.takeRefresh
  | .driverTrip c => s.takeDriverTrip c
  | .deadline => s.takeDeadline
  | .safeLine => s.takeSafeLine

/-- The state with one event no longer due. -/
def State.took (s : State) (e : Event) : State := { s with due := s.due.erase e }

/-- An event taken where it is due, with the wait list settled; where it is not due nothing happens
(assumption 7). -/
def State.takeEvent (s : State) (e : Event) : State :=
  if e ∈ s.due then ((s.took e).perform e).settle else s

/-- The events of a class that must come first are taken, then the event itself. -/
def State.takeAfter (s : State) (first : Event → Bool) (e : Event) : State :=
  if e ∈ s.due then (s.drain first State.perform).takeEvent e else s

/-- The events that are due are taken in order until none is left. -/
def flushFuel : Nat → State → State
  | 0, s => s
  | fuel + 1, s =>
    match s.due with
    | [] => s
    | e :: rest => flushFuel fuel (({ s with due := rest }).perform e).settle

/-- The instant in force is closed: every event of it is taken (assumption 5). -/
def State.flush (s : State) : State := flushFuel 1000 s

/-- The half-tick instant after a tick: every action of the tick comes before it, the last outputs of the FREE
channels are taken, and their generators count (R23, R32). -/
def State.halfTick (s : State) : State := { s.flush.keepOutputs.countGenerators with halfDone := true }

/-- The instant before the next tick: every event of the tick and of the half-tick instant is taken. -/
def State.closeInstant (s : State) : State :=
  let s := s.flush
  if s.halfDone then s else s.halfTick.flush

/-- A change of one sampled line. -/
def Pins.change (p : Pins) : PinChange → Pins
  | .safeLine a => { p with safeLine := a }
  | .battery mv => { p with batteryMv := mv }
  | .sense c r made => { p with sense := updV p.sense c fun x => x.upd r fun _ => made }
  | .limit c on => { p with limit := p.limit.set c.1 on }

/-- The changes of the sampled lines before a tick. -/
def State.changePins (s : State) (l : List PinChange) : State :=
  { s with pins := l.foldl Pins.change s.pins }

/-- The events the new rig time brings: the millisecond boundary and the analog refresh (R2, R25). -/
def clockEvents (t : RigTime) : List Event × List Event :=
  (if t.toNat % 1000 = 0 then [.millisecond] else [], if t.toNat % 4 = 0 then [.refresh] else [])

/-- One tick from a closed instant: the rig time and the phase advance, the wheels are evaluated, the durations
count, the angle triggers fire, the engines advance, and every sampled line is sampled. The events the tick
brings about are left due (R2, R4 to R6, R36, R41, R47, R62, R80, R85, R137, R138, R152, R169, R178). A SAFE entry at
the tick comes after the counts of the engines (assumption 27) and of the durations (assumption 34) here, where the
manual allows either order: DESIGN CHOICE. So do every command given at the tick's instant come after what RIG_TICK
counts and samples: a RELEASE_FAULT finds the tick's own count in the duration progress, and a channel that this instant
returns to service was sampled while it did not drive: DESIGN CHOICE (assumption 37). -/
def State.makeTick (s : State) : State :=
  let before := s.angle
  let moves := s.run.mode ≠ .config
  let wrapped := decide moves && before.carries
  let s := { s with rigTime := s.rigTime + 1, halfDone := false,
                    angle := if moves then before.advance else before }
  let a := angleCount before.phase
  let d := angleAdvance a s.angleNow
  let s := s.evaluatePulses
  let s := s.tickEngines before.phase wrapped
  let s := s.addDue (clockEvents s.rigTime).1
  let s := s.tickRelays.sampleBattery
  let s := (s.tickFaults d wrapped).noteAtTime
  let s := s.fireAtAngle a d before.cycle s.angle.cycle
  let s := s.sampleInputs.countGenerators
  let s := s.addDue (clockEvents s.rigTime).2
  s.sampleLimits.tickMonitor.sampleSafeLine.settle

/-- RIG_TICK. While the part is held in reset no tick occurs (R185). -/
def State.tick (s : State) (l : List PinChange) : State :=
  if s.pins.resetLine then s.changePins l else (s.closeInstant.changePins l).makeTick

/-- Whether the half-tick instant is still to come and brings the event (R32). -/
def State.reachesHalf (s : State) (e : Event) : Bool := !s.halfDone && decide (e ∈ s.gridEvents)

/-- An event of a FREE channel: taken where it is due, or at the half-tick instant it is due at (R32). The half-tick
instant passes here or at the next tick, so a request that is given before lies before it for the last output of a FREE
channel whose pin has moved since the tick, where R23 and R32 leave its place open: DESIGN CHOICE (assumption 28). -/
def State.takeGridEvent (s : State) (e : Event) : State :=
  if e ∈ s.due then s.takeEvent e
  else if s.flush.reachesHalf e then s.halfTick.takeEvent e
  else s

end Machine

end Sys2Proof
end

