-- ==== Sys2Proof/Machine/Handled.lean ====
section
/-! DEFINITION. What a block does with a request the port has passed to it (R191). -/

namespace Sys2Proof.Machine

/-- The outcome of a request in its block. -/
inductive Handled where
  /-- the response is formed at the instant the request is taken -/
  | answered (s : State) (r : Reply)
  /-- a sample transfer is in flight: its place stays reserved -/
  | begun (s : State)
  /-- the request reset the part: no response is formed -/
  | resetPart (s : State)
  deriving DecidableEq, Repr

/-- A refusal by the block: nothing changes and the response carries the status alone (R201). -/
def refuse (s : State) (c : Status) : Handled := .answered s (.refuse c)

/-- A request carried out. -/
def okay (s : State) (b : Body) : Handled := .answered s (.okay b)

/-- The state a handled request leaves, before its response is placed. -/
def Handled.state : Handled → State
  | .answered s _ => s
  | .begun s => s
  | .resetPart s => s

end Sys2Proof.Machine
end

