-- ==== Sys2Proof/Machine/ChannelRequests.lean ====
section
/-! DEFINITION. The requests of the Output Stage and of the Relay Matrix (chapters 2 and 3). -/

namespace Sys2Proof.Machine

/-! ## Live values -/

/-- A LIVE_UPDATE entry that has passed R27: its channel, whether it is STAGED, and its value. -/
abbrev GoodEntry := Fin 24 × Bool × Value

/-- One entry judged (R27); none where it is bad. Placement 0 is IMMEDIATE and 1 is STAGED (R203). -/
def judgeEntry (e : LiveEntry) : Option GoodEntry :=
  match indexIn 24 e.channel with
  | none => none
  | some c =>
    if e.placement.toNat ≤ 1 ∧ valueGood (kindOf c) e.value.toInt = true then
      some (c, e.placement == 1, storedValue (kindOf c) e.value.toInt e.aux.toNat)
    else none

/-- Every entry judged; none where any is bad (R27). -/
def judgeEntries : List LiveEntry → Option (List GoodEntry)
  | [] => some []
  | e :: rest =>
    match judgeEntry e, judgeEntries rest with
    | some g, some l => some (g :: l)
    | _, _ => none

/-- One entry written: its slot, or its live value (R28). -/
def State.applyEntry (s : State) (g : GoodEntry) : State :=
  if g.2.1 then s.stage g.1 g.2.2 else s.writeLive g.1 g.2.2

/-- Whether a list writes a channel's live value. -/
def writesLive (l : List GoodEntry) (c : Fin 24) : Bool := l.any fun g => g.1 == c && !g.2.1

/-- LIVE_UPDATE (R27, R28): the entries are written in list order, and the FREE channels then take the pairs that
they leave. -/
def handleLiveUpdate (entries : List LiveEntry) (s : State) : Handled :=
  match judgeEntries entries with
  | none => refuse s .badValue
  | some l => okay ((l.foldl State.applyEntry s).pairsWritten (writesLive l)) (.count l.length)

/-- STEP_MARK: the copies of the staged values, then the monitor in RUN (R29, R179). -/
def handleStepMark (s : State) : Handled :=
  let t := s.copySlots
  let t := if s.run.mode = .run then t.updRun fun r => { r with monitor := r.monitor.mark } else t
  okay t (.count s.slotCount)

/-- ECHO (R30). -/
def handleEcho (s : State) : Handled := okay s (.echo s.lastEcho)

/-! ## SET_CHANNEL -/

/-- A field a kind does not use is present (R43, case 1). -/
def unusedField (k : ChannelKind) (g : ChannelArgs) : Bool :=
  match k with
  | .analog => g.wheel.isSome || g.pattern.isSome || g.offset.isSome || g.inverted.isSome
  | .pulse => g.safe.isSome
  | .switch => g.wheel.isSome || g.pattern.isSome || g.offset.isSome

/-- The base source of the request, judged by kind: `none` where R43 refuses it. -/
def judgeSource (k : ChannelKind) (code : BitVec 2) : Option BaseSource :=
  match baseSourceOf code with
  | some .replay => if k = .analog then some .replay else none
  | x => x

/-- A safe value outside the range of its kind (R43, case 1). -/
def safeBad (k : ChannelKind) (v : Half) : Bool :=
  match k with
  | .analog => 4000 < v.toNat
  | .switch => 1 < v.toNat
  | .pulse => true

/-- Whether case 1 of R43 refuses the fields. -/
def fieldsBad (k : ChannelKind) (g : ChannelArgs) : Bool :=
  unusedField k g ||
    (g.pattern.any fun x => (patternOf x.toNat).isNone) ||
    (g.source.any fun x => (judgeSource k x).isNone) ||
    (g.offset.any fun x => 11519 < x.toNat) ||
    (g.safe.any (safeBad k))

/-- An ARMED electronic record has the channel as its target (R43, case 3). -/
def State.armedOn (s : State) (c : Fin 24) : Bool :=
  (List.finRange 64).any fun k =>
    (s.fault k).state == .armed && (s.fault k).kind.electronic && (s.fault k).target == c

/-- The mode an optional field writes. -/
def modeOf (wheel : Bool) : PulseMode := if wheel then .wheel else .free

/-- The channel record with the present fields written (R44). A polarity that changes moves the level of a
pulse pin, unless a FREEZE holds it (R44, R109). R44 says both 'next tick' and 'at once': the pin moves as the request is
taken, DESIGN CHOICE (assumption 39). -/
def writeFields (k : ChannelKind) (g : ChannelArgs) (m : Mode) (ch : Channel) : Channel :=
  let flips := k == .pulse && !ch.pinHeld && (g.inverted.any fun x => x != ch.inverted)
  { ch with
    mode := (g.wheel.map modeOf).getD ch.mode
    pattern := (g.pattern.bind fun x => patternOf x.toNat).getD ch.pattern
    offset := (g.offset.map BitVec.toNat).getD ch.offset
    source := (g.source.bind (judgeSource k)).getD ch.source
    safe := (g.safe.map BitVec.toNat).getD ch.safe
    inverted := g.inverted.getD ch.inverted
    autoRestore := g.autoRestore.getD ch.autoRestore
    keepOut := g.keepOut.getD ch.keepOut
    driver := if g.autoRestore.isSome then ch.driver.restore m else ch.driver
    pin := if flips then 1 - ch.pin else ch.pin }

/-- SET_CHANNEL (R42 to R44). -/
def handleSetChannel (channel : Byte) (g : ChannelArgs) (s : State) : Handled :=
  match indexIn 24 channel with
  | none => refuse s .badValue
  | some c =>
    let held := g.wheel.isSome || g.pattern.isSome
    if fieldsBad (kindOf c) g then refuse s .badValue
    else if held = true ∧ s.run.mode ≠ .config then refuse s .wrongMode
    else if held = true ∧ s.armedOn c = true then refuse s .busy
    else
      let t := s.updChannel c (writeFields (kindOf c) g s.run.mode)
      let t := if g.wheel.isSome then t.stopGenerator c else t
      let t := if (t.channel c).source = (s.channel c).source then t else t.basePairChanged s.startPlace c
      okay t (.channel (t.channel c))

/-! ## FORCE -/

/-- The output a FORCE response shows before the write (R31). In SAFE the last output is not yet the safe value before
the first refresh after the entry, and between a SET_CHANNEL that writes another safe value and the next refresh; R31
gives both as the first output: the model gives the last output, DESIGN CHOICE (assumption 24). -/
def State.outputBefore (s : State) (c : Fin 24) : OutputView :=
  let ch := s.channel c
  match kindOf c, ch.mode with
  | .pulse, .free => genView ch.gen
  | .pulse, .wheel | .analog, _ | .switch, _ => .level ch.lastOutput

/-- The value of the noise source that a FORCE response draws from under NOISE: that of the last refresh, or a free value
where there was none (R31, assumption 3). The draw is formed from it with the parameter of the record that is effective
now, also where that is another record than at the last refresh: DESIGN CHOICE (assumption 29). -/
def State.lastDraw (s : State) (c : Fin 24) : Half :=
  if (s.channel c).drawn then (s.channel c).noise else Config.noDraw s.freeCount

/-- The output with the new base and its clamped indication, `s` holding the new forced value (R31). -/
def State.outputAfter (s : State) (c : Fin 24) : OutputView × Bool :=
  let ch := s.channel c
  let e := s.effectiveRecord c
  match kindOf c, ch.mode with
  | .analog, _ =>
    let v := analogOverlay e (s.lastDraw c) (s.enteringValue c)
    (.level (clampInt 0 4000 v).toNat, decide (v < 0) || decide (4000 < v))
  | .switch, _ => (.level (switchOverlay e (s.enteringValue c)).toNat, false)
  | .pulse, .wheel => (.level ch.lastOutput, false)
  | .pulse, .free =>
    if ch.forced.value = 0 then (.stopped, false)
    else
      let x := effectivePair e (s.nextNoise c) ch.forced
      (.pair x.1 x.2.1, x.2.2)

/-- Whether a FORCE response uses the free draw (R31). -/
def State.needsDraw (s : State) (c : Fin 24) : Bool :=
  kindOf c == .analog && drawsNoise (s.effectiveRecord c) && !(s.channel c).drawn

/-- FORCE (R31, R33). A request whose value fails R27 and whose channel's source is not FORCED is refused with BAD_VALUE,
for R31 names both refusals and gives them no order: DESIGN CHOICE (assumption 33). -/
def handleForce (channel : BitVec 6) (aux : BitVec 24) (value : Word) (s : State) : Handled :=
  match indexIn 24 channel with
  | none => refuse s .badValue
  | some c =>
    if valueGood (kindOf c) value.toInt = false then refuse s .badValue
    else if (s.channel c).source ≠ .forced then refuse s .wrongState
    else
      let v := storedValue (kindOf c) value.toInt aux.toNat
      let t := s.updChannel c fun ch => { ch with forced := v }
      let after := t.outputAfter c
      let t' := if t.needsDraw c then t.useFree else t
      okay (t'.basePairChanged s.startPlace c) (.forced (s.outputBefore c) after.1 after.2)

/-- The base value READ_CHANNEL reports: that of R24, or the safe value in SAFE (R39, R45). -/
def State.shownBase (s : State) (c : Fin 24) : Value :=
  if s.run.mode = .safe ∧ kindOf c ≠ .pulse then { value := (s.channel c).safe } else s.baseValue c

/-- READ_CHANNEL (R45). -/
def handleReadChannel (channel : Byte) (s : State) : Handled :=
  match indexIn 24 channel with
  | none => refuse s .badValue
  | some c =>
    okay s (.channelRead (kindOf c) (s.channel c) (s.shownBase c) (s.relaySet c).inService (s.effective c))

/-! ## Relay Matrix -/

/-- SET_RELAY_TIMING (R50). -/
def handleSetRelayTiming (settle timeout : Byte) (s : State) : Handled :=
  if 1 ≤ settle.toNat ∧ settle.toNat ≤ 4 ∧ 5 ≤ timeout.toNat ∧ timeout.toNat ≤ 50 then
    let t : RelayTiming := ⟨settle.toNat, timeout.toNat⟩
    okay { s with timing := t } (.timing t)
  else refuse s .badValue

/-- READ_RELAYS (R64). -/
def handleReadRelays (channel : Byte) (s : State) : Handled :=
  match indexIn 24 channel with
  | none => refuse s .badValue
  | some c => okay s (.relays (s.relaySet c) (s.pins.sense.get c) s.buses s.battery.level s.timing)

end Sys2Proof.Machine
end

