-- ==== Sys2Proof/Machine/FaultRequests.lean ====
section
/-! DEFINITION. The requests of the Fault Table (chapter 4.2). -/

namespace Sys2Proof.Machine

/-- A record ARM_FAULT and CLEAR_FAULT refuse with BUSY: in use, or FAILED and still holding channels (R73,
R76). -/
def State.recordBusy (s : State) (k : Fin 64) : Bool :=
  (s.fault k).state.inUse || ((s.fault k).state == .failed && s.holdsChannels k)

/-- A trigger that repeats without a period (R73). -/
def needsPeriod (repeats period : Nat) : Trigger → Bool
  | .atTime _ => 0 < repeats && period == 0
  | .atAngle _ _ | .onCapture _ _ _ | .onFault _ _ => false

/-- The record a good definition makes, as R74 leaves it; none where R73 calls the definition bad. -/
def judgeFault (s : State) (k : Fin 64) (g : FaultArgs) : Option FaultRecord :=
  match indexIn 24 g.target, faultKindOf g.kind with
  | some c, some kind =>
    let ch := s.channel c
    match judgeParam kind (kindOf c) ch.mode ch.pattern g.param, judgePartner kind c g.partner,
        judgeTrigger k g.trigger, judgeDuration g.duration with
    | some x, some partner, some trigger, some duration =>
      if 1 ≤ g.level.toNat ∧ g.repeats.toNat ≤ 255 ∧
          needsPeriod g.repeats.toNat g.period.toNat trigger = false then
        some
          { state := .armed, target := c, partner := partner, kind := kind, level := g.level.toNat,
            param := x, trigger := trigger, duration := duration, repeats := g.repeats.toNat,
            repeatPeriod := g.period.toNat, notify := portSetOf g.notify, fresh := true }
      else none
    | _, _, _, _ => none
  | _, _ => none

/-- ARM_FAULT (R73, R74). -/
def handleArmFault (index : Byte) (g : FaultArgs) (s : State) : Handled :=
  match indexIn 64 index with
  | none => refuse s .badValue
  | some k =>
    if s.recordBusy k then refuse s .busy
    else
      match judgeFault s k g with
      | none => refuse s .badValue
      | some r => okay (s.updFault k fun _ => r) (.fault r)

/-- The effect of a release by state (R75). -/
def State.release (s : State) (k : Fin 64) : State :=
  match (s.fault k).state with
  | .armed => s.enterDone k
  | .waiting => (s.leaveList k).enterDone k
  | .starting | .stopping => s.updFault k fun r => { r with releasePending := true }
  | .active =>
    let s := s.updFault k fun r => { r with releasePending := true }
    if (s.fault k).kind.electronic then s.endActivation k else s.beginStop k
  | .free | .done | .failed => s

/-- RELEASE_FAULT (R75). -/
def handleReleaseFault (index : Byte) (s : State) : Handled :=
  match indexIn 64 index with
  | none => refuse s .badValue
  | some k =>
    if (s.fault k).state.inUse then
      let s := (s.release k).settle
      okay s (.release (s.fault k).state (s.fault k).releasePending)
    else refuse s .wrongState

/-- CLEAR_FAULT: a record at rest takes its reset values, and one that is FREE already is unchanged (R76, R92). -/
def handleClearFault (index : Byte) (s : State) : Handled :=
  match indexIn 64 index with
  | none => refuse s .badValue
  | some k =>
    if s.recordBusy k then refuse s .busy
    else okay (if (s.fault k).state = .free then s else s.updFault k fun _ => {}) .nothing

/-- A record's place in the relay wait list, counted from 1 (R77). -/
def placeIn (k : Fin 64) (l : List (Fin 64)) : Option Nat := (l.findIdx? fun j => j == k).map (· + 1)

/-- READ_FAULT (R77). -/
def handleReadFault (index : Byte) (s : State) : Handled :=
  match indexIn 64 index with
  | none => refuse s .badValue
  | some k =>
    let r := s.fault k
    okay s (.faultRead r (if r.state = .waiting then placeIn k s.wholeList else none)
      (if r.state = .active ∧ r.kind.electronic = true then some (s.effective r.target == some k) else none))

end Sys2Proof.Machine
end

