-- ==== Sys2Proof/Machine/PortRequests.lean ====
section
/-! DEFINITION. The requests of the Capture Unit and of the notices (chapters 8 and 10.5). -/

namespace Sys2Proof.Machine

/-! ## Capture Unit -/

/-- The settings a request carries, or none where R163 refuses them. -/
def judgeCapture (g : CaptureArgs) : Option CaptureSettings :=
  match edgeOf g.edges.toNat with
  | none => none
  | some e =>
    let n := g.divider.toNat
    let m := g.agreement.toNat
    if g.level.toNat ≤ 15 ∧ (n = 1 ∨ n = 2 ∨ n = 4 ∨ n = 8) ∧ (m = 1 ∨ m = 2 ∨ m = 4) ∧
        g.dest.toNat / 4 = 0 then
      some
        { enabled := g.enabled, level := g.level.toNat, divider := n, agreement := m, edges := e,
          dest := ⟨g.dest.getLsbD 0, g.dest.getLsbD 1⟩, trip := g.trip, width := g.width }
    else none

/-- The filter settings differ (R164). -/
def filterDiffers (a b : CaptureSettings) : Bool :=
  a.level != b.level || a.divider != b.divider || a.agreement != b.agreement

/-- An input with new settings, `mv` its voltage (R151, R164). -/
def configureInput (g : CaptureSettings) (mv : Int) (x : CaptureInput) : CaptureInput :=
  let y := { x with
    settings := g
    comparator := if g.level = x.settings.level then x.comparator else comparatorNext g.level mv x.comparator }
  let y := if filterDiffers g x.settings then y.restartFilter else y
  if g.enabled then y else y.clearLive

/-- SET_CAPTURE (R163, R164). -/
def handleSetCapture (input : Byte) (g : CaptureArgs) (s : State) : Handled :=
  match indexIn 16 input, judgeCapture g with
  | some i, some x =>
    let y := configureInput x (s.pins.captureMv.get i) (s.input i)
    okay (s.updInput i fun _ => y) (.capture y)
  | _, _ => refuse s .badValue

/-- TAKE_CAPTURES (R160). -/
def handleTakeCaptures (p : Port) (count : Byte) (s : State) : Handled :=
  let q := s.port p
  let n := min count.toNat 63
  okay (s.updPort p fun q => { q with captures := q.captures.drop n })
    (.captures (q.captures.take n) (q.captures.drop n).length q.gap)

/-- READ_CAPTURE_STATE (R166). -/
def handleReadCaptureState (input : Byte) (s : State) : Handled :=
  match indexIn 16 input with
  | none => refuse s .badValue
  | some i =>
    okay s (.captureRead (s.input i) ((List.finRange 16).map fun j => (s.input j).level)
      s.portM.captures.length s.portM.gap s.portB.captures.length s.portB.gap)

/-! ## Notices -/

/-- A notice word names no flag outside the nine (R196, R198, R203). -/
def noticeWordGood (w : Word) : Bool := w.toNat < 512

/-- The nine flags of a notice word. -/
def nineOf (w : Word) : BitVec 9 := w.extractLsb' 0 9

/-- READ_NOTICES (R197). -/
def handleReadNotices (p : Port) (s : State) : Handled :=
  let q := s.port p
  okay s (.notices q.flags q.enables q.atn (q.link == .synced))

/-- The recoveries a Port B clear starts (R42, R60, R199). -/
def State.recoveries (s : State) (p : Port) (set : BitVec 9) : State :=
  match p with
  | .M => s
  | .B =>
    let t := if set.getLsbD Notice.overcurrent.bit then s.restoreDrivers else s
    if set.getLsbD Notice.relayFault.bit then t.recover else t

/-- CLEAR_NOTICES (R198, R199). -/
def handleClearNotices (p : Port) (w : Word) (s : State) : Handled :=
  if noticeWordGood w then
    let t := s.updPort p fun q => { q with sticky := q.sticky &&& ~~~nineOf w }
    okay (t.recoveries p (nineOf w)) (.cleared (t.port p).flags (t.port p).atn)
  else refuse s .badValue

/-- SET_NOTICE_ENABLE (R196). -/
def handleSetNoticeEnable (p : Port) (w : Word) (s : State) : Handled :=
  if noticeWordGood w then
    let t := s.updPort p fun q => { q with enables := nineOf w }
    okay t (.enables (nineOf w) (t.port p).flags (t.port p).atn)
  else refuse s .badValue

end Sys2Proof.Machine
end

