-- ==== Sys2Proof/Machine/RunRequests.lean ====
section
/-! DEFINITION. The resets, and the requests of Run Control and of the Angle Base (chapters 9 and 1). -/

namespace Sys2Proof.Machine

/-! ## Resets (R184 to R186) -/

/-- A capture input after either reset, its comparator judged afresh against 0.8 V (R151, R167). -/
def resetInput (mv : Int) : CaptureInput := { comparator := comparatorNext 0 mv false }

/-- A power-on reset: every block takes its power-on value. The lines, the commands that wait and the count of
free values are not state of the part and stay (R184). -/
def State.powerOn (s : State) : State :=
  { State.reset with
    inputs := Vector.ofFn fun i => resetInput (s.pins.captureMv.get i)
    pins := s.pins
    freeCount := s.freeCount
    pending := s.pending }

/-- Sample Memory at a rig reset: the part of a write in flight that had been written stays; how much that is,
the manual leaves open (R125, assumption 2). -/
def State.memoryAtReset (s : State) : List (Nat × Half) :=
  match s.moving with
  | some x =>
    if x.write then
      memWriteRun s.memory x.address (x.samples.take (Config.samplesWritten s.freeCount % x.samples.length))
    else s.memory
  | none => s.memory

/-- A rig reset: as a power-on reset, but Sample Memory, the DEFINED segments with their counts at 0, and the
active pattern tables are kept (R22, R128, R186). -/
def State.rigReset (s : State) : State :=
  { s.powerOn with
    angle := { active := s.angle.active }
    memory := s.memoryAtReset
    segments := mapV (fun _ g => { g with refs := 0 }) s.segments
    freeCount := s.freeCount + 1 }

/-! ## Run Control -/

/-- START (R171). -/
def handleStart (s : State) : Handled :=
  if s.run.mode ≠ .config ∨ s.run.safe.level = true then refuse s .wrongMode
  else
    let s := s.startRun
    okay s (.mode s.run.mode s.run.monitor.state)

/-- A fault record is in one of the states that refuse STOP (R172). -/
def stopBusy (r : FaultRecord) : Bool :=
  r.state == .waiting || r.state == .starting || r.state == .active || r.state == .stopping

/-- STOP, judged once the triggers counted at this instant have fired (R172, R173, assumption 6). -/
def handleStop (s : State) : Handled :=
  let s := if s.due.any Event.isOnCapture then s.fireCounted.settle else s
  if s.run.mode = .config then refuse s .wrongMode
  else if (List.finRange 64).any (fun k => stopBusy (s.fault k)) then refuse s .busy
  else if s.anyMoving then refuse s .busy
  else
    let s := s.stopRun
    okay s (.modeOnly s.run.mode)

/-- ENTER_SAFE (R175). -/
def handleEnterSafe (s : State) : Handled :=
  match s.run.mode with
  | .config => refuse s .wrongMode
  | .run =>
    let s := (s.enterSafe .request).settle
    okay s (.modeOnly s.run.mode)
  | .safe => okay s (.modeCause s.run.mode s.run.cause)

/-- A fault record is in one of the states that refuse RESUME (R176). -/
def resumeBusy (r : FaultRecord) : Bool := r.state == .starting || r.state == .stopping

/-- RESUME (R176). -/
def handleResume (s : State) : Handled :=
  if s.run.mode ≠ .safe ∨ s.run.safe.level = true then refuse s .wrongMode
  else if (List.finRange 64).any (fun k => resumeBusy (s.fault k)) then refuse s .busy
  else
    let s := s.resumeRun
    okay s (.mode s.run.mode s.run.monitor.state)

/-- RESET_RIG (R185, R191). -/
def handleResetRig (s : State) : Handled := .resetPart s.rigReset

/-- SET_DEADLINE (R177). A request that is in RUN or SAFE and has D or L out of range too is refused with WRONG_MODE, for
R177 names both refusals and gives them no order: DESIGN CHOICE (assumption 32). -/
def handleSetDeadline (enabled : Bool) (limit : BitVec 4) (deadline : Half) (s : State) : Handled :=
  if s.run.mode ≠ .config then refuse s .wrongMode
  else if 10 ≤ deadline.toNat ∧ 1 ≤ limit.toNat then
    let m := { s.run.monitor with enabled := enabled, deadline := deadline.toNat, limit := limit.toNat }
    let m := if enabled then m else { m with state := .off, misses := 0 }
    okay (s.updRun fun r => { r with monitor := m }) (.monitor m)
  else refuse s .badValue

/-- The fault states in the order in which R67 lists them. R183 gives the eight counts no order, so that READ_RUN_STATE
lists them in this one is DESIGN CHOICE (assumption 1). -/
def faultStates : List FaultState :=
  [.free, .armed, .waiting, .starting, .active, .stopping, .done, .failed]

/-- The number of fault records in a state (R183). -/
def State.countIn (s : State) (x : FaultState) : Nat :=
  ((List.finRange 64).filter fun k => (s.fault k).state == x).length

/-- READ_RUN_STATE (R183). -/
def handleReadRunState (s : State) : Handled :=
  okay s (.runState s.rigTime s.run (faultStates.map s.countIn) s.anyMoving)

/-! ## Angle Base -/

/-- Whether a port may set the target speed (R11). -/
def maySet (p : Port) : SpeedSource → Bool
  | .model => p == .M
  | .bench => p == .B
  | .replay _ => false

/-- SET_SPEED (R11). -/
def handleSetSpeed (p : Port) (target : Word) (ramp : Half) (s : State) : Handled :=
  if maySet p s.angle.source = false then refuse s .notSource
  else if s.run.mode = .safe then refuse s .wrongMode
  else
    let t := min target.toNat 64000
    okay (s.updAngle fun a => { a with target := t, ramp := ramp.toNat })
      (.speed t s.angle.speed (decide (64000 < target.toNat)))

/-- SET_ANGLE_BASE (R13). -/
def handleSetAngleBase (source : Byte) (safeRamp : Half) (s : State) : Handled :=
  match sourceOf source with
  | none => refuse s .badValue
  | some x =>
    if safeRamp.toNat = 0 then refuse s .badValue
    else okay (s.updAngle fun a => { a with source := x, safeRamp := safeRamp.toNat }) .nothing

/-- The windows a list of window words gives (R203). -/
def windowsOf (l : List WindowWord) : List Window := l.map fun w => ⟨w.start.toNat, w.stop.toNat⟩

/-- LOAD_PATTERN (R16, R17). -/
def handleLoadPattern (pattern : Byte) (windows : List WindowWord) (s : State) : Handled :=
  match patternOf pattern.toNat with
  | none => refuse s .badValue
  | some q =>
    let l := windowsOf windows
    if l.length ≤ q.most ∧ windowsGood q l = true then
      if s.run.mode = .config then
        okay (s.updAngle fun a => { a with active := a.active.put q l }) (.placed false)
      else okay (s.updAngle fun a => { a with staged := a.staged.put q (some l) }) (.placed true)
    else refuse s .badValue

/-- READ_ANGLE_BASE (R14). -/
def handleReadAngleBase (s : State) : Handled :=
  okay s (.angleBase s.rigTime s.angle s.angleNow (increment s.angle.speed) s.rampHeld
    (s.angle.active.map List.length) (s.angle.staged.map Option.isSome))

/-- READ_PATTERN (R18). -/
def handleReadPattern (pattern : Byte) (staged : Bool) (s : State) : Handled :=
  match patternOf pattern.toNat with
  | none => refuse s .badValue
  | some q =>
    let flag := (s.angle.staged.get q).isSome
    if staged then okay s (.pattern ((s.angle.staged.get q).getD []) flag)
    else okay s (.pattern (s.angle.active.get q) flag)

end Sys2Proof.Machine
end

