-- ==== Sys2Proof/Machine/SampleRequests.lean ====
section
/-! DEFINITION. The requests of Sample Memory, of the Segment Table and of the replay engines (chapters 6
and 7). -/

namespace Sys2Proof.Machine

/-! ## Segments -/

/-- Two stretches of addresses share an address (R118). -/
def stretchesMeet (b l b' l' : Nat) : Bool := b < b' + l' && b' < b + l

/-- Another DEFINED segment covers an address of the stretch (R118, case 4). -/
def State.overlaps (s : State) (g : Fin 32) (b l : Nat) : Bool :=
  (List.finRange 32).any fun h =>
    h != g && (s.segment h).defined && stretchesMeet b l (s.segment h).base (s.segment h).length

/-- DEFINE_SEGMENT (R118, R119). -/
def handleDefineSegment (index : Byte) (base length : Word) (s : State) : Handled :=
  match indexIn 32 index with
  | none => refuse s .badValue
  | some g =>
    let b := base.toNat
    let l := length.toNat
    if (s.segment g).defined then refuse s .busy
    else if ¬ (2 ≤ l ∧ b + l ≤ memorySize) then refuse s .badValue
    else if s.overlaps g b l then refuse s .overlap
    else
      let x : Segment := ⟨true, b, l, 0⟩
      okay (s.updSegment g fun _ => x) (.segment x)

/-- FREE_SEGMENT (R120). -/
def handleFreeSegment (index : Byte) (s : State) : Handled :=
  match indexIn 32 index with
  | none => refuse s .badValue
  | some g =>
    if (s.segment g).defined = true ∧ 0 < (s.segment g).refs then refuse s .busy
    else
      let x : Segment := if (s.segment g).defined then {} else s.segment g
      okay (s.updSegment g fun _ => x) (.segment x)

/-- READ_SEGMENT (R121). -/
def handleReadSegment (index : Byte) (s : State) : Handled :=
  match indexIn 32 index with
  | none => refuse s .badValue
  | some g => okay s (.segment (s.segment g))

/-! ## Sample transfers -/

/-- A transfer taken: it begins, or waits while the other port's is in flight (R124). -/
def State.beginTransfer (s : State) (x : Transfer) : State :=
  match s.moving with
  | none => { s with moving := some x }
  | some _ => { s with queued := some x }

/-- The range of a transfer lies in the segment and its count in 1..504 (R123, R126). -/
def rangeGood (g : Segment) (offset n : Nat) : Bool := 1 ≤ n && n ≤ 504 && offset + n ≤ g.length

/-- WRITE_SAMPLES (R123, R124). -/
def handleWriteSamples (p : Port) (t index : Byte) (offset : Word) (samples : List Half) (s : State) :
    Handled :=
  match indexIn 32 index with
  | none => refuse s .badValue
  | some g =>
    let x := s.segment g
    if x.defined = false then refuse s .notFound
    else if rangeGood x offset.toNat samples.length = false then refuse s .badValue
    else if 0 < x.refs then refuse s .busy
    else
      .begun (s.beginTransfer
        ⟨p, t, true, g, offset.toNat, x.base + offset.toNat, samples.length, samples⟩)

/-- READ_SAMPLES (R124, R126). A FREE record is NOT_FOUND before a count outside 1..504 is BAD_VALUE, for which R126 gives
no order: DESIGN CHOICE (assumption 40). -/
def handleReadSamples (p : Port) (t index : Byte) (offset : Word) (count : Half) (s : State) : Handled :=
  match indexIn 32 index with
  | none => refuse s .badValue
  | some g =>
    let x := s.segment g
    if x.defined = false then refuse s .notFound
    else if rangeGood x offset.toNat count.toNat = false then refuse s .badValue
    else
      .begun (s.beginTransfer ⟨p, t, false, g, offset.toNat, x.base + offset.toNat, count.toNat, []⟩)

/-! ## Replay engines -/

/-- The target a code names (R205). -/
def targetOf (code : Byte) : Option Target :=
  match indexIn 12 code with
  | some c => some (.analog c)
  | none => if code = 255 then some .speed else none

/-- The pacing a code and a rate name, in range (R131, R205). -/
def pacingOf (code : BitVec 4) (rate : Half) : Option Pacing :=
  if code = 0 then (if 1 ≤ rate.toNat then some (.time rate.toNat) else none)
  else if code = 1 then (if 8 ≤ rate.toNat ∧ rate.toNat ≤ 4096 then some (.angle rate.toNat) else none)
  else none

/-- The gain and the offset are in range (R131). -/
def scaleGood (g : ReplayArgs) : Bool :=
  g.gain.toNat ≤ 65535 && -65536 ≤ g.offset.toInt && g.offset.toInt ≤ 65535

/-- Whether a target hands its output to SPEED. -/
def isSpeed : Target → Bool
  | .speed => true
  | .analog _ => false

/-- The engine with the settings written (R132). -/
def writeSettings (x : Target) (y : Pacing) (g : ReplayArgs) (e : Engine) : Engine :=
  { e with
    target := x
    pacing := y
    interp := g.interp
    gain := g.gain.toNat
    offset := g.offset.toInt
    notify := portSetOf g.notify
    lastOut := if isSpeed e.target = true ∧ isSpeed x = false then none else e.lastOut
    k := if e.current.isSome then 0 else e.k
    e := if e.current.isSome then 0 else e.e
    awaiting := if e.current.isSome then y.isAngle else e.awaiting }

/-- SET_REPLAY (R131, R132). -/
def handleSetReplay (engine : Byte) (g : ReplayArgs) (s : State) : Handled :=
  match indexIn 4 engine, targetOf g.target, pacingOf g.pacing g.rate with
  | some n, some x, some y =>
    if scaleGood g = false then refuse s .badValue
    else if (s.engine n).state ≠ .idle then refuse s .wrongMode
    else if x = .speed ∧ s.angle.source ≠ .replay n then refuse s .wrongState
    else
      let e := writeSettings x y g (s.engine n)
      okay (s.updEngine n fun _ => e) (.engine e)
  | _, _, _ => refuse s .badValue

/-- The descriptor is bad against its segment (R133, case 4). -/
def descriptorBad (x : Segment) (g : DescriptorArgs) : Bool :=
  g.count.toNat < 2 || x.length < g.first.toNat + g.count.toNat || 255 < g.loops.toNat

/-- The engine starts when a descriptor is queued: in RUN, IDLE or UNDERRUN, with no current one (R134). -/
def State.startsOnQueue (s : State) (n : Fin 4) : Bool :=
  s.run.mode == .run && ((s.engine n).state == .idle || (s.engine n).state == .underrun) &&
    (s.engine n).current.isNone

/-- QUEUE_REPLAY (R133, R134). -/
def handleQueueReplay (engine : Byte) (g : DescriptorArgs) (s : State) : Handled :=
  match indexIn 4 engine, indexIn 32 g.segment with
  | some n, some x =>
    if 8 ≤ (s.engine n).queue.length then refuse s .full
    else if (s.segment x).defined = false then refuse s .notFound
    else if descriptorBad (s.segment x) g then refuse s .badValue
    else
      let d : Descriptor := ⟨x, g.first.toNat, g.count.toNat, g.loops.toNat, g.final, true⟩
      let t := s.updSegment x fun y => { y with refs := y.refs + 1 }
      let t := t.updEngine n fun e => { e with queue := e.queue ++ [d] }
      let t := if s.startsOnQueue n then t.promote n else t
      okay t (.queued (t.engine n).queue.length (t.engine n).state)
  | _, _ => refuse s .badValue

/-- The descriptors an engine holds, the current one first. -/
def heldDescriptors (e : Engine) : List Descriptor := e.current.toList ++ e.queue

/-- STOP_REPLAY (R135). An advance that was still due lapses with the descriptor; where it was the last event of its
instant, the pass of the wait list follows (R97, assumption 16). -/
def handleStopReplay (engine : Byte) (s : State) : Handled :=
  match indexIn 4 engine with
  | none => refuse s .badValue
  | some n =>
    let l := heldDescriptors (s.engine n)
    let t := l.foldl (fun s d => s.dropRef d.segment) s
    let t := t.updEngine n fun e =>
      { e with state := .idle, current := none, queue := [], k := 0, e := 0, awaiting := false }
    okay (t.took (.replayAdvance n)).settle (.count l.length)

/-- Whether a SPEED target is active, or an analog target bound (R148). -/
def State.engineBound (s : State) (n : Fin 4) : Bool :=
  match (s.engine n).target with
  | .analog c => s.boundEngine (analogChannel c) == some n
  | .speed => s.angle.source == .replay n

/-- READ_REPLAY (R148). -/
def handleReadReplay (engine : Byte) (s : State) : Handled :=
  match indexIn 4 engine with
  | none => refuse s .badValue
  | some n =>
    let e := s.engine n
    okay s (.engineRead e (e.current.map fun d => d.count - e.k) (s.engineBound n))

end Sys2Proof.Machine
end

