-- ==== Sys2Proof/Machine/Ports.lean ====
section
/-! DEFINITION. The ports: the block a request goes to, the taking of requests and the forming of responses, the
words in and out, and the end of a sample transfer (chapter 10, R124 to R126). -/

namespace Sys2Proof

/-- A free place in the inbound queue (R190). -/
def PortState.hasRoom (q : PortState) : Bool := q.inbound.length < 8

/-- A framing error: the port hunts, with no idle word seen yet (R189). -/
def PortState.framingError (q : PortState) : PortState := { q with link := .hunt false }

/-- The reserved place formed with its response (R191, R194); a port has at most one. -/
def PortState.formReserved (q : PortState) (r : Reply) : PortState :=
  { q with responses := q.responses.map fun x => if x.reply.isNone then { x with reply := some r } else x }

/-- A response placed at the tail (R191, R194). -/
def PortState.place (q : PortState) (kind tag : Byte) (r : Option Reply) : PortState :=
  { q with responses := q.responses ++ [⟨kind, tag, r⟩] }

/-- One more payload word for the requests that still receive theirs; a port has at most one (R188). -/
def Packet.receive (w : Word) (q : Packet) : Packet :=
  if q.complete then q else { q with payload := q.payload ++ [w] }

/-- A header begins a request (R189, R201). -/
def newPacket (w : Word) : Packet := ⟨field w 16 8, field w 8 8, (field w 0 8).toNat, []⟩

/-- A word that arrives on the inbound side (R188, R189). -/
def PortState.receive (q : PortState) (w : Word) : PortState :=
  if q.inbound.any (fun x => !x.complete) then { q with inbound := q.inbound.map (Packet.receive w) }
  else
    match q.link with
    | .hunt seen =>
      if w ≠ idleWord then { q with link := .hunt false }
      else if seen = false then { q with link := .hunt true }
      else { (if q.resetHunt then q else q.raise .linkResync) with link := .synced, resetHunt := false }
    | .synced =>
      if w = idleWord then q
      else if field w 24 8 = requestMarker ∧ q.hasRoom = true then
        { q with inbound := q.inbound ++ [newPacket w] }
      else q.framingError

/-- The words of the response at the head of the queue, where it is formed (R194). -/
def PortState.headWords (q : PortState) : Option (List Word) :=
  match q.responses with
  | [] => none
  | x :: _ => x.reply.map fun r => responseWords x.kind x.tag r

/-- A word clocked out: the next of the formed head response, or the idle word; a response whose last word has
gone leaves the queue (R187, R194). -/
def PortState.send (q : PortState) : PortState :=
  match q.headWords with
  | none => { q with outWord := idleWord }
  | some l =>
    let q' := { q with outWord := l.getD q.sent idleWord }
    if q.sent + 1 < l.length then { q' with sent := q.sent + 1 }
    else { q' with sent := 0, responses := q.responses.drop 1 }

namespace Machine

/-! ## Requests to blocks -/

/-- The block a request goes to, and what it does with it (R191). A command that is no request of the part
reaches no block. -/
def handle (i : Instr) (s : State) : Handled :=
  match i with
  | .powerOnReset | .resetLineAssert | .resetLineRelease | .rigTick _ | .millisecondBoundary
  | .cycleWrap | .analogRefresh | .periodStart _ | .pulseHighEnd _ | .driverTrip _
  | .movementComplete _ _ | .movementFail _ _ | .batteryFlagChange | .safeLineChange
  | .comparatorChange _ _ | .captureEdgeReport _ | .atTimeTrigger _ | .onCaptureTrigger _
  | .durationEnd _ | .replayAdvance _ | .deadlineExpiry | .portWord _ _ | .writeSamplesDone
  | .readSamplesDone _ | .unknownKind _ _ _ _ => refuse s .unknownKind
  | .start _ _ => handleStart s
  | .stop _ _ => handleStop s
  | .enterSafe _ _ => handleEnterSafe s
  | .resume _ _ => handleResume s
  | .resetRig _ _ => handleResetRig s
  | .setDeadline _ _ en l d => handleSetDeadline en l d s
  | .readRunState _ _ => handleReadRunState s
  | .setSpeed p _ x r => handleSetSpeed p x r s
  | .setAngleBase _ _ x r => handleSetAngleBase x r s
  | .loadPattern _ _ x l => handleLoadPattern x l s
  | .readAngleBase _ _ => handleReadAngleBase s
  | .readPattern _ _ x g => handleReadPattern x g s
  | .liveUpdate _ _ l => handleLiveUpdate l s
  | .stepMark _ _ => handleStepMark s
  | .setChannel _ _ c g => handleSetChannel c g s
  | .force _ _ c x v => handleForce c x v s
  | .echo _ _ => handleEcho s
  | .readChannel _ _ c => handleReadChannel c s
  | .setRelayTiming _ _ x o => handleSetRelayTiming x o s
  | .readRelays _ _ c => handleReadRelays c s
  | .armFault _ _ k g => handleArmFault k g s
  | .releaseFault _ _ k => handleReleaseFault k s
  | .clearFault _ _ k => handleClearFault k s
  | .readFault _ _ k => handleReadFault k s
  | .defineSegment _ _ g b l => handleDefineSegment g b l s
  | .freeSegment _ _ g => handleFreeSegment g s
  | .writeSamples p t g o l => handleWriteSamples p t g o l s
  | .readSamples p t g o n => handleReadSamples p t g o n s
  | .readSegment _ _ g => handleReadSegment g s
  | .setReplay _ _ n g => handleSetReplay n g s
  | .queueReplay _ _ n g => handleQueueReplay n g s
  | .stopReplay _ _ n => handleStopReplay n s
  | .readReplay _ _ n => handleReadReplay n s
  | .setCapture _ _ i g => handleSetCapture i g s
  | .takeCaptures p _ n => handleTakeCaptures p n s
  | .readCaptureState _ _ i => handleReadCaptureState i s
  | .readNotices p _ => handleReadNotices p s
  | .clearNotices p _ m => handleClearNotices p m s
  | .setNoticeEnable p _ m => handleSetNoticeEnable p m s

/-- The port's checks and the block's outcome (R191, R192). -/
def judged (s : State) : Except Status Instr → Handled
  | .error c => refuse s c
  | .ok i => handle i s

/-- A formed response at the tail of a port's response queue (R191). -/
def State.respond (s : State) (p : Port) (kind tag : Byte) (r : Reply) : State :=
  s.updPort p fun q => q.place kind tag (some r)

/-- An OK response to a request of a kind (R201). -/
def State.answerOk (s : State) (p : Port) (k : RequestKind) (tag : Byte) (b : Body) : State :=
  s.respond p k.code tag (.okay b)

/-- A refusal of a request of a kind (R201). -/
def State.answerNo (s : State) (p : Port) (k : RequestKind) (tag : Byte) (c : Status) : State :=
  s.respond p k.code tag (.refuse c)

/-- The response of a handled request in its place of the response queue (R191). -/
def deliver (p : Port) (kind tag : Byte) : Handled → State
  | .answered s r => s.respond p kind tag r
  | .begun s => s.updPort p fun q => q.place kind tag none
  | .resetPart s => s

/-! ## Taking requests -/

/-- A sample transfer of the port is in flight (R124). -/
def State.transferring (s : State) (p : Port) : Bool :=
  (s.moving.any fun x => x.port == p) || (s.queued.any fun x => x.port == p)

/-- The port can take a request: a response place is free and no transfer of it is in flight (R191). -/
def State.portFree (s : State) (p : Port) : Bool :=
  decide ((s.port p).responses.length < 8) && !s.transferring p

/-- A request taken from the head of the inbound queue (R191). -/
def State.takePacket (s : State) (p : Port) (q : Packet) : State :=
  deliver p q.kind q.tag (judged s (decodePacket p q))

/-- The complete requests at the head of a port's inbound queue are taken while the port can take them (R191). -/
def serveFuel : Nat → State → Port → State
  | 0, s, _ => s
  | fuel + 1, s, p =>
    match (s.port p).inbound with
    | [] => s
    | q :: rest =>
      if q.complete = true ∧ s.portFree p = true then
        serveFuel fuel ((s.updPort p fun x => { x with inbound := rest }).takePacket p q) p
      else s

/-- A port served: its inbound queue holds at most 8 requests (R190, R191). -/
def State.serve (s : State) (p : Port) : State := serveFuel 8 s p

/-- A word arrives on a port, and the port takes what it can take (R188 to R191). -/
def State.arrive (p : Port) (s : State) (w : Word) : State := (s.updPort p fun q => q.receive w).serve p

/-- The port takes the request at the instant its last word arrives: it is not held in reset, it is SYNCED, no request
waits before it, and the port can take one (R189 to R191). -/
def State.takesNow (s : State) (p : Port) : Bool :=
  !s.pins.resetLine && (s.port p).link == .synced && (s.port p).inbound.isEmpty && s.portFree p

/-- A request command: its words arrive on the port one after the other (assumption 10), which judges each as it judges
any word. Where the port takes the request at its last word, the request is `x` there. Words that arrive while the part
is held in reset are discarded (R185). -/
def State.submit (s : State) (p : Port) (q : Packet) (x : Except Status Instr) : State :=
  if s.takesNow p then deliver p q.kind q.tag (judged s x)
  else if s.pins.resetLine then s
  else q.words.foldl (State.arrive p) s

/-- A request of a kind of the part, judged against the permission table (R192, R193). -/
def permitted (p : Port) (k : RequestKind) (i : Instr) : Except Status Instr :=
  if k.allowed p then .ok i else .error .wrongPort

/-- A request command from a port with a tag. One that no packet can carry has no meaning (R188). -/
def State.request (s : State) (p : Port) (t : Byte) (i : Instr) : Result :=
  match encodePayload i with
  | none => .refused .notAPacket
  | some e =>
    if 255 < e.2.length then .refused .notAPacket
    else .next (s.submit p (packetOf t e) (permitted p e.1 i))

/-! ## Words -/

/-- PORT_WORD: one word out and one word in (R187 to R190, R194). The word out has gone whatever the requests that are
taken at this word bring about, a RESET_RIG among them. -/
def State.clockWord (s : State) (p : Port) (w : Word) : State :=
  if s.pins.resetLine then s.updPort p fun q => { q with outWord := idleWord }
  else
    (((s.updPort p PortState.send).serve p).arrive p w).updPort p fun q =>
      { q with outWord := (s.port p).send.outWord }

/-! ## The end of a sample transfer -/

/-- The response of an ended transfer (R125, R126). -/
def transferReply (s : State) (x : Transfer) : Reply :=
  if x.write then .okay (.written x.segment x.offset x.count)
  else .okay (.samples (memReadRun s.memory x.address x.count))

/-- Sample Memory after a transfer has ended (R125, R126). -/
def transferMemory (s : State) (x : Transfer) : List (Nat × Half) :=
  if x.write then memWriteRun s.memory x.address x.samples else s.memory

/-- The transfer that is being moved ends: the waiting one begins, the response is formed, and the port takes
its requests again (R124 to R126). -/
def State.endTransfer (s : State) (x : Transfer) : State :=
  ((({ s with memory := transferMemory s x, moving := s.queued, queued := none }).updPort x.port fun q =>
    q.formReserved (transferReply s x))).serve x.port

/-- WRITE_SAMPLES_DONE (R125). -/
def State.writeDone (s : State) : State :=
  match s.moving with
  | some x => if x.write then s.endTransfer x else s
  | none => s

/-- READ_SAMPLES_DONE of a port (R126). -/
def State.readDone (s : State) (p : Port) : State :=
  match s.moving with
  | some x => if x.write = false ∧ x.port = p then s.endTransfer x else s
  | none => s

end Machine

end Sys2Proof
end

