-- ==== Sys2Proof/Machine/EventCommands.lean ====
section
/-! DEFINITION. The commands that are events of the part: resets, the tick, and what a tick brings about. -/

namespace Sys2Proof.Machine

/-- POWER_ON_RESET (R184). -/
def execPowerOnReset (s : State) : Result := .next s.powerOn

/-- The lines with the RESET line at a level. -/
def State.setResetLine (s : State) (level : Bool) : State := { s with pins := { s.pins with resetLine := level } }

/-- RESET_LINE_ASSERT: a rig reset at the instant the line is asserted; the part is then held (R185). A line that
is asserted already is not asserted again. -/
def execResetLineAssert (s : State) : Result :=
  .next (if s.pins.resetLine then s else s.rigReset.setResetLine true)

/-- RESET_LINE_RELEASE: the part leaves its reset state (R185). -/
def execResetLineRelease (s : State) : Result := .next (s.setResetLine false)

/-- RIG_TICK (R2, R185). -/
def execRigTick (changes : List PinChange) (s : State) : Result := .next (s.tick changes)

/-- MILLISECOND_BOUNDARY, after the advances of the engines at its tick (R8, R139). -/
def execMillisecondBoundary (s : State) : Result := .next (s.takeAfter Event.isAdvance .millisecond)

/-- The tick that wraps: the phase addition is due to carry (R5). In CONFIG, and while the part is held in
reset, none does. -/
def State.wrapTick (s : State) : State :=
  let t := s.closeInstant
  if t.pins.resetLine = false ∧ t.run.mode ≠ .config ∧ t.angle.carries = true then t.makeTick else s

/-- CYCLE_WRAP: the tick whose phase addition carries (R5, assumption 9). -/
def execCycleWrap (s : State) : Result := .next s.wrapTick

/-- ANALOG_REFRESH, after the advances of the engines at its tick (R25, R139). -/
def execAnalogRefresh (s : State) : Result := .next (s.takeAfter Event.isAdvance .refresh)

/-- PERIOD_START (R32). -/
def execPeriodStart (c : Fin 24) (s : State) : Result := .next (s.takeGridEvent (.periodStart c))

/-- PULSE_HIGH_END (R32). -/
def execPulseHighEnd (c : Fin 24) (s : State) : Result := .next (s.takeGridEvent (.highEnd c))

/-- DRIVER_TRIP (R41). -/
def execDriverTrip (c : Fin 24) (s : State) : Result := .next (s.takeEvent (.driverTrip c))

/-- MOVEMENT_COMPLETE (R48). -/
def execMovementComplete (c : Fin 24) (r : RelayName) (s : State) : Result :=
  .next (s.takeEvent (.moveComplete c r))

/-- MOVEMENT_FAIL (R49). -/
def execMovementFail (c : Fin 24) (r : RelayName) (s : State) : Result := .next (s.takeEvent (.moveFail c r))

/-- BATTERY_FLAG_CHANGE (R62). -/
def execBatteryFlagChange (s : State) : Result := .next (s.takeEvent .battery)

/-- SAFE_LINE_CHANGE (R169, R170). -/
def execSafeLineChange (s : State) : Result := .next (s.takeEvent .safeLine)

/-- COMPARATOR_CHANGE (R151). -/
def execComparatorChange (i : Fin 16) (mv : Int) (s : State) : Result := .next (s.setVoltage i mv)

/-- CAPTURE_EDGE_REPORT, after those of the lower inputs at its tick (R153, R154, R157). That the lower of two edges at
one tick is acted on first, so that a lower trip edge gives the SAFE cause and a higher edge then counts toward no
trigger, is DESIGN CHOICE (assumption 36): R162 leaves open which is acted on second. -/
def execCaptureEdgeReport (i : Fin 16) (s : State) : Result :=
  .next (s.takeAfter (Event.reportBefore i) (.captureReport i))

/-- AT_TIME_TRIGGER (R79). -/
def execAtTimeTrigger (k : Fin 64) (s : State) : Result := .next (s.takeEvent (.atTime k))

/-- ON_CAPTURE_TRIGGER (R82). -/
def execOnCaptureTrigger (k : Fin 64) (s : State) : Result := .next (s.takeEvent (.onCapture k))

/-- DURATION_END (R85). -/
def execDurationEnd (k : Fin 64) (s : State) : Result := .next (s.takeEvent (.durationEnd k))

/-- REPLAY_ADVANCE (R137). -/
def execReplayAdvance (n : Fin 4) (s : State) : Result := .next (s.takeEvent (.replayAdvance n))

/-- DEADLINE_EXPIRY (R180). -/
def execDeadlineExpiry (s : State) : Result := .next (s.takeEvent .deadline)

/-- PORT_WORD (R187 to R190). -/
def execPortWord (p : Port) (w : Word) (s : State) : Result := .next (s.clockWord p w)

/-- WRITE_SAMPLES_DONE (R125). -/
def execWriteSamplesDone (s : State) : Result := .next s.writeDone

/-- READ_SAMPLES_DONE (R126). -/
def execReadSamplesDone (p : Port) (s : State) : Result := .next (s.readDone p)

end Sys2Proof.Machine
end

