-- ==== Sys2Proof/Machine/RequestCommands.lean ====
section
/-! DEFINITION. The commands that are requests of a port, one meaning for each row: the request is offered to its
port, which judges it and passes it to its block (chapter 10.4). -/

namespace Sys2Proof.Machine

/-- UNKNOWN_KIND: a request whose kind code names no request of the part (R192). -/
def execUnknownKind (p : Port) (t kind : Byte) (payload : List Word) (s : State) : Result :=
  if 255 < payload.length then .refused .notAPacket
  else
    let q : Packet := ⟨kind, t, payload.length, payload⟩
    .next (s.submit p q (decodePacket p q))

/-- START (R171). -/
def execStart (p : Port) (t : Byte) (s : State) : Result :=
  s.request p t (.start p t)

/-- STOP (R172). -/
def execStop (p : Port) (t : Byte) (s : State) : Result :=
  s.request p t (.stop p t)

/-- ENTER_SAFE (R175). -/
def execEnterSafe (p : Port) (t : Byte) (s : State) : Result :=
  s.request p t (.enterSafe p t)

/-- RESUME (R176). -/
def execResume (p : Port) (t : Byte) (s : State) : Result :=
  s.request p t (.resume p t)

/-- RESET_RIG (R185). -/
def execResetRig (p : Port) (t : Byte) (s : State) : Result :=
  s.request p t (.resetRig p t)

/-- SET_DEADLINE (R177). -/
def execSetDeadline (p : Port) (t : Byte) (enabled : Bool) (limit : BitVec 4) (deadline : Half)
    (s : State) : Result :=
  s.request p t (.setDeadline p t enabled limit deadline)

/-- READ_RUN_STATE (R183). -/
def execReadRunState (p : Port) (t : Byte) (s : State) : Result :=
  s.request p t (.readRunState p t)

/-- SET_SPEED (R11). -/
def execSetSpeed (p : Port) (t : Byte) (target : Word) (ramp : Half) (s : State) : Result :=
  s.request p t (.setSpeed p t target ramp)

/-- SET_ANGLE_BASE (R13). -/
def execSetAngleBase (p : Port) (t source : Byte) (safeRamp : Half) (s : State) : Result :=
  s.request p t (.setAngleBase p t source safeRamp)

/-- LOAD_PATTERN (R17). -/
def execLoadPattern (p : Port) (t pattern : Byte) (windows : List WindowWord) (s : State) : Result :=
  s.request p t (.loadPattern p t pattern windows)

/-- READ_ANGLE_BASE (R14). -/
def execReadAngleBase (p : Port) (t : Byte) (s : State) : Result :=
  s.request p t (.readAngleBase p t)

/-- READ_PATTERN (R18). -/
def execReadPattern (p : Port) (t pattern : Byte) (staged : Bool) (s : State) : Result :=
  s.request p t (.readPattern p t pattern staged)

/-- LIVE_UPDATE (R28). -/
def execLiveUpdate (p : Port) (t : Byte) (entries : List LiveEntry) (s : State) : Result :=
  s.request p t (.liveUpdate p t entries)

/-- STEP_MARK (R29). -/
def execStepMark (p : Port) (t : Byte) (s : State) : Result :=
  s.request p t (.stepMark p t)

/-- SET_CHANNEL (R44). -/
def execSetChannel (p : Port) (t channel : Byte) (args : ChannelArgs) (s : State) : Result :=
  s.request p t (.setChannel p t channel args)

/-- FORCE (R31). -/
def execForce (p : Port) (t : Byte) (channel : BitVec 6) (aux : BitVec 24) (value : Word)
    (s : State) : Result :=
  s.request p t (.force p t channel aux value)

/-- ECHO (R30). -/
def execEcho (p : Port) (t : Byte) (s : State) : Result :=
  s.request p t (.echo p t)

/-- READ_CHANNEL (R45). -/
def execReadChannel (p : Port) (t channel : Byte) (s : State) : Result :=
  s.request p t (.readChannel p t channel)

/-- SET_RELAY_TIMING (R50). -/
def execSetRelayTiming (p : Port) (t settle timeout : Byte) (s : State) : Result :=
  s.request p t (.setRelayTiming p t settle timeout)

/-- READ_RELAYS (R64). -/
def execReadRelays (p : Port) (t channel : Byte) (s : State) : Result :=
  s.request p t (.readRelays p t channel)

/-- ARM_FAULT (R74). -/
def execArmFault (p : Port) (t index : Byte) (args : FaultArgs) (s : State) : Result :=
  s.request p t (.armFault p t index args)

/-- RELEASE_FAULT (R75). -/
def execReleaseFault (p : Port) (t index : Byte) (s : State) : Result :=
  s.request p t (.releaseFault p t index)

/-- CLEAR_FAULT (R76). -/
def execClearFault (p : Port) (t index : Byte) (s : State) : Result :=
  s.request p t (.clearFault p t index)

/-- READ_FAULT (R77). -/
def execReadFault (p : Port) (t index : Byte) (s : State) : Result :=
  s.request p t (.readFault p t index)

/-- DEFINE_SEGMENT (R119). -/
def execDefineSegment (p : Port) (t index : Byte) (base length : Word) (s : State) : Result :=
  s.request p t (.defineSegment p t index base length)

/-- FREE_SEGMENT (R120). -/
def execFreeSegment (p : Port) (t index : Byte) (s : State) : Result :=
  s.request p t (.freeSegment p t index)

/-- WRITE_SAMPLES (R123). -/
def execWriteSamples (p : Port) (t index : Byte) (offset : Word) (samples : List Half)
    (s : State) : Result :=
  s.request p t (.writeSamples p t index offset samples)

/-- READ_SAMPLES (R126). -/
def execReadSamples (p : Port) (t index : Byte) (offset : Word) (count : Half) (s : State) : Result :=
  s.request p t (.readSamples p t index offset count)

/-- READ_SEGMENT (R121). -/
def execReadSegment (p : Port) (t index : Byte) (s : State) : Result :=
  s.request p t (.readSegment p t index)

/-- SET_REPLAY (R132). -/
def execSetReplay (p : Port) (t engine : Byte) (args : ReplayArgs) (s : State) : Result :=
  s.request p t (.setReplay p t engine args)

/-- QUEUE_REPLAY (R134). -/
def execQueueReplay (p : Port) (t engine : Byte) (args : DescriptorArgs) (s : State) : Result :=
  s.request p t (.queueReplay p t engine args)

/-- STOP_REPLAY (R135). -/
def execStopReplay (p : Port) (t engine : Byte) (s : State) : Result :=
  s.request p t (.stopReplay p t engine)

/-- READ_REPLAY (R148). -/
def execReadReplay (p : Port) (t engine : Byte) (s : State) : Result :=
  s.request p t (.readReplay p t engine)

/-- SET_CAPTURE (R164). -/
def execSetCapture (p : Port) (t input : Byte) (args : CaptureArgs) (s : State) : Result :=
  s.request p t (.setCapture p t input args)

/-- TAKE_CAPTURES (R160). -/
def execTakeCaptures (p : Port) (t count : Byte) (s : State) : Result :=
  s.request p t (.takeCaptures p t count)

/-- READ_CAPTURE_STATE (R166). -/
def execReadCaptureState (p : Port) (t input : Byte) (s : State) : Result :=
  s.request p t (.readCaptureState p t input)

/-- READ_NOTICES (R197). -/
def execReadNotices (p : Port) (t : Byte) (s : State) : Result :=
  s.request p t (.readNotices p t)

/-- CLEAR_NOTICES (R198). -/
def execClearNotices (p : Port) (t : Byte) (set : Word) (s : State) : Result :=
  s.request p t (.clearNotices p t set)

/-- SET_NOTICE_ENABLE (R196). -/
def execSetNoticeEnable (p : Port) (t : Byte) (mask : Word) (s : State) : Result :=
  s.request p t (.setNoticeEnable p t mask)

end Sys2Proof.Machine
end

