-- ==== Sys2Proof/Machine/Dispatch.lean ====
section
/-! DEFINITION. The one meaning of each command. -/

namespace Sys2Proof.Machine

def exec (i : Instr) (s : State) : Host.Outcome State Fault Refusal :=
  match i with
  | .powerOnReset => Sys2Proof.Machine.execPowerOnReset s
  | .resetLineAssert => Sys2Proof.Machine.execResetLineAssert s
  | .resetLineRelease => Sys2Proof.Machine.execResetLineRelease s
  | .rigTick changes => Sys2Proof.Machine.execRigTick changes s
  | .millisecondBoundary => Sys2Proof.Machine.execMillisecondBoundary s
  | .cycleWrap => Sys2Proof.Machine.execCycleWrap s
  | .analogRefresh => Sys2Proof.Machine.execAnalogRefresh s
  | .periodStart c => Sys2Proof.Machine.execPeriodStart c s
  | .pulseHighEnd c => Sys2Proof.Machine.execPulseHighEnd c s
  | .driverTrip c => Sys2Proof.Machine.execDriverTrip c s
  | .movementComplete c r => Sys2Proof.Machine.execMovementComplete c r s
  | .movementFail c r => Sys2Proof.Machine.execMovementFail c r s
  | .batteryFlagChange => Sys2Proof.Machine.execBatteryFlagChange s
  | .safeLineChange => Sys2Proof.Machine.execSafeLineChange s
  | .comparatorChange c mv => Sys2Proof.Machine.execComparatorChange c mv s
  | .captureEdgeReport c => Sys2Proof.Machine.execCaptureEdgeReport c s
  | .atTimeTrigger k => Sys2Proof.Machine.execAtTimeTrigger k s
  | .onCaptureTrigger k => Sys2Proof.Machine.execOnCaptureTrigger k s
  | .durationEnd k => Sys2Proof.Machine.execDurationEnd k s
  | .replayAdvance n => Sys2Proof.Machine.execReplayAdvance n s
  | .deadlineExpiry => Sys2Proof.Machine.execDeadlineExpiry s
  | .portWord p w => Sys2Proof.Machine.execPortWord p w s
  | .unknownKind p t kind payload => Sys2Proof.Machine.execUnknownKind p t kind payload s
  | .start p t => Sys2Proof.Machine.execStart p t s
  | .stop p t => Sys2Proof.Machine.execStop p t s
  | .enterSafe p t => Sys2Proof.Machine.execEnterSafe p t s
  | .resume p t => Sys2Proof.Machine.execResume p t s
  | .resetRig p t => Sys2Proof.Machine.execResetRig p t s
  | .setDeadline p t enabled limit deadline => Sys2Proof.Machine.execSetDeadline p t enabled limit deadline s
  | .readRunState p t => Sys2Proof.Machine.execReadRunState p t s
  | .setSpeed p t target ramp => Sys2Proof.Machine.execSetSpeed p t target ramp s
  | .setAngleBase p t source safeRamp => Sys2Proof.Machine.execSetAngleBase p t source safeRamp s
  | .loadPattern p t pattern windows => Sys2Proof.Machine.execLoadPattern p t pattern windows s
  | .readAngleBase p t => Sys2Proof.Machine.execReadAngleBase p t s
  | .readPattern p t pattern staged => Sys2Proof.Machine.execReadPattern p t pattern staged s
  | .liveUpdate p t entries => Sys2Proof.Machine.execLiveUpdate p t entries s
  | .stepMark p t => Sys2Proof.Machine.execStepMark p t s
  | .setChannel p t channel args => Sys2Proof.Machine.execSetChannel p t channel args s
  | .force p t channel aux value => Sys2Proof.Machine.execForce p t channel aux value s
  | .echo p t => Sys2Proof.Machine.execEcho p t s
  | .readChannel p t channel => Sys2Proof.Machine.execReadChannel p t channel s
  | .setRelayTiming p t settle timeout => Sys2Proof.Machine.execSetRelayTiming p t settle timeout s
  | .readRelays p t channel => Sys2Proof.Machine.execReadRelays p t channel s
  | .armFault p t index args => Sys2Proof.Machine.execArmFault p t index args s
  | .releaseFault p t index => Sys2Proof.Machine.execReleaseFault p t index s
  | .clearFault p t index => Sys2Proof.Machine.execClearFault p t index s
  | .readFault p t index => Sys2Proof.Machine.execReadFault p t index s
  | .defineSegment p t index base length => Sys2Proof.Machine.execDefineSegment p t index base length s
  | .freeSegment p t index => Sys2Proof.Machine.execFreeSegment p t index s
  | .writeSamples p t index offset samples => Sys2Proof.Machine.execWriteSamples p t index offset samples s
  | .writeSamplesDone => Sys2Proof.Machine.execWriteSamplesDone s
  | .readSamples p t index offset count => Sys2Proof.Machine.execReadSamples p t index offset count s
  | .readSamplesDone p => Sys2Proof.Machine.execReadSamplesDone p s
  | .readSegment p t index => Sys2Proof.Machine.execReadSegment p t index s
  | .setReplay p t engine args => Sys2Proof.Machine.execSetReplay p t engine args s
  | .queueReplay p t engine args => Sys2Proof.Machine.execQueueReplay p t engine args s
  | .stopReplay p t engine => Sys2Proof.Machine.execStopReplay p t engine s
  | .readReplay p t engine => Sys2Proof.Machine.execReadReplay p t engine s
  | .setCapture p t input args => Sys2Proof.Machine.execSetCapture p t input args s
  | .takeCaptures p t count => Sys2Proof.Machine.execTakeCaptures p t count s
  | .readCaptureState p t input => Sys2Proof.Machine.execReadCaptureState p t input s
  | .readNotices p t => Sys2Proof.Machine.execReadNotices p t s
  | .clearNotices p t set => Sys2Proof.Machine.execClearNotices p t set s
  | .setNoticeEnable p t mask => Sys2Proof.Machine.execSetNoticeEnable p t mask s

end Sys2Proof.Machine
end

