-- ==== Sys2Proof/Safety.lean ====
section
/-! DEFINITION. What the manual calls a law of the part, and the ranges its rules give to what the state holds, as
predicates of one state. Claims say that every step keeps them. -/

namespace Sys2Proof

/-- A transfer stays within Sample Memory (R123, R126). -/
def Transfer.within (x : Transfer) : Prop :=
  x.address + x.count ≤ Machine.memorySize ∧ (x.write = true → x.samples.length = x.count)

/-- A record that is between its trigger and its rest (R91). -/
def FaultState.passing : FaultState → Bool
  | .waiting | .starting | .active | .stopping => true
  | .free | .armed | .done | .failed => false

/-- The descriptors of an engine that name a segment (R122). -/
def Engine.names (g : Fin 32) (e : Engine) : Nat :=
  ((Machine.heldDescriptors e).filter fun d => d.segment == g).length

/-- A record names a channel, as its target or as its partner (R67). -/
abbrev FaultRecord.onChannel (r : FaultRecord) (c : Fin 24) : Prop := r.target = c ∨ r.partner = some c

namespace Machine

/-- The speeds lie in their range (R7). -/
def State.speedLaw (s : State) : Prop := s.angle.speed ≤ 64000 ∧ s.angle.target ≤ 64000

/-- Every analog output code lies in 0..4000 (R25). -/
def State.codeLaw (s : State) : Prop := ∀ c, kindOf c = .analog → (s.channel c).lastOutput ≤ 4000

/-- No noise source is 0 (R110). -/
def State.noiseLaw (s : State) : Prop := ∀ c, (s.channel c).noise ≠ 0

/-- A FREE generator runs in RUN alone, on a pulse channel in FREE, and its effective pair is within the clamps of
R32 (R32, R34). -/
def State.generatorLaw (s : State) : Prop :=
  ∀ c g, (s.channel c).gen = some g →
    s.run.mode = .run ∧ kindOf c = .pulse ∧ (s.channel c).mode = .free ∧
      20 ≤ g.period ∧ g.period ≤ 16777215 ∧ g.high ≤ g.period

/-- A start that fell off the grid is to come for a stopped FREE channel in RUN alone, at or before the place of the
last request that started one, and no later than the next tick (R32, R34). -/
def State.startLaw (s : State) : Prop :=
  (∀ c, 0 < (s.channel c).wait →
    s.run.mode = .run ∧ kindOf c = .pulse ∧ (s.channel c).mode = .free ∧ (s.channel c).gen = none ∧
      (s.channel c).wait ≤ s.place) ∧
  s.place ≤ if s.halfDone then 1 else 2

/-- The grid points at which a start that a request brings about may open, counted from the last one passed: none
before the place of a request before it; that place; and, with no event of the instant due, the one passed last, the
next one, and the one after it where that is the next tick and no generator has an event at the half-tick instant
between (R32, assumption 23). -/
abbrev State.mayOpenAt (s : State) (w : Nat) : Prop :=
  s.place ≤ w ∧ (w = s.place ∨ s.due = [] ∧ (w ≤ 1 ∨
    w = 2 ∧ s.halfDone = false ∧ ∀ c, kindOf c = .pulse → gridEvent c (s.channel c) = []))

/-- Channel `c`, as `x` is, with the level overlay of `e`: the pin of a FREE pulse channel shows the level of its
generator, inactive while it has none, through the polarity and the overlay; any other channel is `x` (R107 to
R109). -/
def shownThrough (c : Fin 24) (e : Option FaultRecord) (x : Channel) : Channel :=
  if kindOf c = .pulse ∧ x.mode = .free then
    { x with
      pin := (pulsePin e x.inverted (x.gen.any fun g => g.active)).1
      pinHeld := (pulsePin e x.inverted (x.gen.any fun g => g.active)).2 }
  else x

/-- `h` is `s`, with nothing due, at the half-tick instant after its tick: the level of each FREE channel has become its
last output (R23), each generator has counted one half-microsecond, each start to come is one grid point nearer, and
exactly the period starts and the ends of high time that this brings are due, each once (R32). -/
abbrev State.halfTicked (s h : State) : Prop :=
  h = { s with halfDone := true, channels := h.channels, place := s.place - 1, due := h.due } ∧
  (∀ c, h.channel c = { s.channel c with
    lastOutput := if kindOf c = .pulse ∧ (s.channel c).mode = .free then (s.channel c).pin else (s.channel c).lastOutput
    gen := (s.channel c).gen.map fun g => { g with elapsed := g.elapsed + 1 }
    wait := (s.channel c).wait - 1 }) ∧
  h.due.Nodup ∧
  ∀ e, e ∈ h.due ↔ ∃ c, kindOf c = .pulse ∧
    (e = .periodStart c ∧ ((s.channel c).gen = none ∧ (s.channel c).wait = 1 ∨
        ∃ g, (s.channel c).gen = some g ∧ g.elapsed + 1 = g.period) ∨
      e = .highEnd c ∧ ∃ g, (s.channel c).gen = some g ∧ g.active = true ∧ g.elapsed + 1 = g.high ∧ g.high < g.period)

/-- From `s` to `t` the effective record of channel `c` may have changed, so that its pin shows another level; every
other channel, and every other field of `c`, is unchanged (R107, R112). -/
abbrev State.showsAfter (s t : State) (c : Fin 24) : Prop :=
  (∀ d, d ≠ c → t.channel d = s.channel d) ∧ t.channel c = shownThrough c (t.effectiveRecord c) (s.channel c)

/-- A FREE channel, as `x` is, at a period start with the base pair `b` is `y`: the effective pair of step 2 of R32, the
noise source's advance (R110), an empty buffer, and the level of the high time shown and kept as last output. -/
def State.periodOpens (s : State) (c : Fin 24) (b : Value) (x y : Channel) : Prop :=
  ∃ (noisy : Bool) (r : Half) (v : Int) (period high : Nat) (z : Channel),
    noisy = (s.effectiveRecord c).any (fun f => f.kind == .noise) ∧
    r = (if noisy then noiseNext x.noise else x.noise) ∧
    v = periodOverlay (s.effectiveRecord c) r b.value ∧
    (period : Int) = clampInt 20 16777215 v ∧ high = min b.aux period ∧
    z = shownThrough c (s.effectiveRecord c)
      { x with gen := some ⟨period, high, 0, decide (0 < high)⟩, buffer := none,
               clamped := decide (v ≠ period ∨ high ≠ b.aux), noise := r, drawn := noisy } ∧
    y = { z with lastOutput := z.pin }

/-- A request that finds a stopped FREE channel in RUN, as `x` is but for the start, with a base pair `b` whose period is
not 0, leaves `t`: its period opens at once where `w` is 0, and at the `w`-th grid point to come otherwise (R32 to
R34). -/
def State.startsAt (s t : State) (c : Fin 24) (b : Value) (x : Channel) (w : Nat) : Prop :=
  t.place = w ∧ (w = 0 → s.periodOpens c b x (t.channel c)) ∧ (0 < w → t.channel c = { x with wait := w })

/-- No driver is DRIVING in CONFIG, and none is OFF in RUN or SAFE (R40). -/
def State.driverLaw (s : State) : Prop :=
  ∀ c, (s.run.mode = .config → (s.channel c).driver ≠ .driving) ∧
    (s.run.mode ≠ .config → (s.channel c).driver ≠ .off)

/-- The pattern tables keep the limits of R15. -/
def tableGood (q : Pattern) (l : List Window) : Prop := l.length ≤ q.most ∧ windowsGood q l = true

/-- Every active and staged table keeps the limits of R15. -/
def State.tableLaw (s : State) : Prop :=
  ∀ q, tableGood q (s.angle.active.get q) ∧ ∀ l, s.angle.staged.get q = some l → tableGood q l

/-- DEFINED segments never overlap, and each lies within Sample Memory (R119). -/
def State.segmentLaw (s : State) : Prop :=
  (∀ g, (s.segment g).defined = true →
    2 ≤ (s.segment g).length ∧ (s.segment g).base + (s.segment g).length ≤ memorySize) ∧
  ∀ g h, g ≠ h → (s.segment g).defined = true → (s.segment h).defined = true →
    stretchesMeet (s.segment g).base (s.segment g).length (s.segment h).base (s.segment h).length = false

/-- Sample Memory keeps its canonical form, with what that needs of the segments and the transfers. -/
def State.memoryLaw (s : State) : Prop :=
  Memory.wf s.memory ∧ (∀ x, s.moving = some x → x.within) ∧
    (∀ x, s.queued = some x → x.within) ∧
    ∀ g, (s.segment g).defined = true → (s.segment g).base + (s.segment g).length ≤ memorySize

/-- Each engine holds at most 8 queued descriptors, each ready, and its current descriptor is not (R130). -/
def State.engineLaw (s : State) : Prop :=
  ∀ n, (s.engine n).queue.length ≤ 8 ∧ (∀ d ∈ (s.engine n).queue, d.ready = true) ∧
    ∀ d, (s.engine n).current = some d → d.ready = false

/-- An engine is RUNNING in RUN alone and PAUSED in SAFE alone, and then it has a current descriptor (R129, R146,
R147). -/
def State.playLaw (s : State) : Prop :=
  ∀ n, ((s.engine n).state = .running → s.run.mode = .run ∧ (s.engine n).current.isSome = true) ∧
    ((s.engine n).state = .paused → s.run.mode = .safe ∧ (s.engine n).current.isSome = true)

/-- A capture queue: at most 128 records, no record later than the one behind it (R157). -/
def captureOrder (l : List CaptureRecord) : Prop :=
  l.length ≤ 128 ∧
    ∀ a x y b, l = a ++ x :: y :: b → timeSince y.stamp.time x.stamp.time ≤ 2 ^ 47

/-- The law of the capture queues (R157). -/
def State.captureLaw (s : State) : Prop := captureOrder s.portM.captures ∧ captureOrder s.portB.captures

/-- The live state of the capture inputs: the disagreement count stays below the agreement count, so within 0..3, the
run stamp is absent exactly while it is 0 (R150, R153), and an input that is not sampled has none of it (R152). -/
def State.inputLaw (s : State) : Prop :=
  ∀ i, ((s.input i).settings.agreement = 1 ∨ (s.input i).settings.agreement = 2 ∨
      (s.input i).settings.agreement = 4) ∧
    (s.input i).disagree < (s.input i).settings.agreement ∧
    ((s.input i).runStamp = none ↔ (s.input i).disagree = 0) ∧
    ((s.run.mode = .config ∨ (s.input i).settings.enabled = false) →
      (s.input i).level = none ∧ (s.input i).disagree = 0 ∧ (s.input i).lastEdge = none ∧ (s.input i).edge = none)

/-- Each inbound queue and each response queue holds at most 8 (R190, R194). -/
def State.queueLaw (s : State) : Prop :=
  (s.portM.inbound.length ≤ 8 ∧ s.portM.responses.length ≤ 8) ∧
    s.portB.inbound.length ≤ 8 ∧ s.portB.responses.length ≤ 8

/-- The deadline timer runs in RUN alone, and a monitor whose timer runs is ON_TIME or LATE (R178, R180). -/
def State.timerLaw (s : State) : Prop :=
  s.run.monitor.timer.isSome = true →
    s.run.mode = .run ∧ (s.run.monitor.state = .onTime ∨ s.run.monitor.state = .late)

/-- The law of the Fault Table and its wait list: in CONFIG no record is WAITING, STARTING, ACTIVE or STOPPING (R91);
the list holds exactly the WAITING records, each once (R95), those that join at one instant in ascending index (R93); a
sequence in flight belongs to a STARTING or STOPPING record (R54). -/
def State.recordLaw (s : State) : Prop :=
  (s.run.mode = .config → ∀ k, (s.fault k).state.passing = false) ∧
  s.wholeList.Nodup ∧
  s.joining.Pairwise (· < ·) ∧
  (∀ k, k ∈ s.wholeList ↔ (s.fault k).state = .waiting) ∧
  ∀ k, (s.fault k).seq.isSome = true → (s.fault k).state = .starting ∨ (s.fault k).state = .stopping

/-- Every reference count is the number of descriptors, current or queued, that name the segment, and a segment whose
count is above 0 is DEFINED (R122). -/
def State.refLaw (s : State) : Prop :=
  ∀ g, (s.segment g).refs = ((List.finRange 4).map fun n => (s.engine n).names g).sum ∧
    (0 < (s.segment g).refs → (s.segment g).defined = true)

/-! ## The Relay Matrix -/

/-- A record that the Relay Matrix carries through its sequences (R54). -/
def travels (r : FaultRecord) : Prop :=
  r.kind.electronic = false ∧ (r.state = .starting ∨ r.state = .active ∨ r.state = .stopping)

/-- The law of the holders (R53): a holder of a channel is a record in STARTING, ACTIVE or STOPPING, or a FAILED one
with a channel still normalising, whose target or partner the channel is; the holder of a cross bus is such a PIN_SHORT
record, and only its two channels may have that bus's relay closed or closing. -/
def State.holderLaw (s : State) : Prop :=
  (∀ c k, (s.relaySet c).holder = some k →
    ((s.fault k).target = c ∨ (s.fault k).partner = some c) ∧
    (travels (s.fault k) ∨ ((s.fault k).state = .failed ∧
      ∃ d, (s.relaySet d).holder = some k ∧ (s.relaySet d).normalising.isSome = true))) ∧
  (∀ b k, s.buses.get b = some k → (s.fault k).kind = .pinShort ∧ (s.fault k).bus = some b ∧
    ∃ c, (s.relaySet c).holder = some k) ∧
  ∀ c b, ((s.relaySet c).relays.get b.relay).state.position = .closed →
    ∃ k, s.buses.get b = some k ∧ ((s.fault k).target = c ∨ (s.fault k).partner = some c)

/-- A record on the wait list is held up: a channel it names is held, or it is a PIN_SHORT record and both cross buses
are (R96). -/
abbrev State.heldUp (s : State) (k : Fin 64) : Prop :=
  (∃ c, (s.fault k).onChannel c ∧ (s.relaySet c).holder ≠ none) ∨
    (s.fault k).kind = .pinShort ∧ s.buses.x0 ≠ none ∧ s.buses.x1 ≠ none

/-- Record `i` on the wait list keeps record `j` behind it waiting: they share a channel, or both are PIN_SHORT
records (R97). -/
abbrev State.inTheWay (s : State) (i j : Fin 64) : Prop :=
  (∃ c, (s.fault i).onChannel c ∧ (s.fault j).onChannel c) ∨
    (s.fault i).kind = .pinShort ∧ (s.fault j).kind = .pinShort

/-- Record `k` of the wait list, behind the records `ahead` that wait on, is held up or has one of them in its way
(R97). -/
abbrev State.waitsOn (s : State) (ahead : List (Fin 64)) (k : Fin 64) : Prop :=
  s.heldUp k ∨ ∃ i ∈ ahead, s.inTheWay i k

/-- Once event `e` is taken no pass of the wait list is made, for none is due or the instant has other events left
(R97, assumption 16). -/
abbrev State.noPassAfter (s : State) (e : Event) : Prop := s.examineDue = false ∨ s.due.erase e ≠ []

/-- PATH of a relay set, closed with nothing in doubt, is commanded open, as a start sequence begins (R51, R54). -/
def startsOpening (t : RelayTiming) (j : Fin 64) (x : RelaySet) : RelaySet :=
  { x with
    holder := some j
    relays := { x.relays with
      path := { state := .movingOpen, failed := false, movement := some ⟨0, t.settle, t.timeout⟩ } } }

/-- Record `k`, granted in `r`, is taken, which leaves `u` (R52, R98): refused and FAILED, with nothing else changed, where
a channel it names is OUT_OF_SERVICE or, for SHORT_BAT, the battery is ABSENT; otherwise the holder of what it needs,
the first free bus for PIN_SHORT, its start sequence begun at a PATH that is closed. -/
def State.takes (r : State) (k : Fin 64) (u : State) : Prop :=
  (∃ why, (why = .outOfService ∧ (∃ c, (r.fault k).onChannel c ∧ (r.relaySet c).inService = false) ∨
        why = .noBattery ∧ (r.fault k).kind = .shortBat ∧ r.battery.level = false ∧
          ∀ c, (r.fault k).onChannel c → (r.relaySet c).inService = true) ∧
      u = (r.updFault k fun f => { f with state := .failed, failReason := some why, seq := none }).raiseSet
        (r.fault k).notify .faultEvent) ∨
  (∃ c, ((r.fault k).kind = .openWire ∨ (r.fault k).kind = .shortGnd ∨
        ((r.fault k).kind = .shortBat ∧ r.battery.level = true)) ∧
      (r.fault k).target = c ∧ (r.fault k).partner = none ∧ (r.relaySet c).inService = true ∧
      (r.relaySet c).relays.path = { state := .closed } ∧
      u = (r.updRelaySet c (startsOpening r.timing k)).updFault k fun f =>
        { f with state := .starting, seq := some ⟨false, 0⟩ }) ∨
  ∃ c p b, (r.fault k).kind = .pinShort ∧ (r.fault k).target = c ∧ (r.fault k).partner = some p ∧ c ≠ p ∧
    (r.relaySet c).inService = true ∧ (r.relaySet p).inService = true ∧
    (r.relaySet p).relays.path = { state := .closed } ∧
    (r.buses.x0 = none ∧ b = .x0 ∨ r.buses.x0 ≠ none ∧ r.buses.x1 = none ∧ b = .x1) ∧
    u = { ((r.updRelaySet c fun x => { x with holder := some k }).updRelaySet p (startsOpening r.timing k)).updFault
      k (fun f => { f with state := .starting, bus := some b, seq := some ⟨false, 0⟩ }) with
        buses := r.buses.put b (some k) }

/-- One pass through the rest of the wait list from `r`, behind the records `kept`, leaves `t` (R97): each record in turn
is kept in its place where it is held up or a kept one is in its way, and is otherwise taken and gone from the list. -/
def State.passes : List (Fin 64) → List (Fin 64) → State → State → Prop
  | kept, [], r, t => t = { r with waitList := kept, joining := [], examineDue := false }
  | kept, k :: l, r, t =>
    (r.waitsOn kept k → State.passes (kept ++ [k]) l r t) ∧
      (¬r.waitsOn kept k → ∀ u, r.takes k u → State.passes kept l u t)

/-- The state `r`, with the wait list to be examined, is left as `t` (R97): as it is while the instant has events left to
take (assumption 16), and otherwise as one pass from the oldest record to the newest leaves it. -/
def State.passLeaves (r t : State) : Prop :=
  (r.due ≠ [] → t = r) ∧ (r.due = [] → State.passes [] r.wholeList r t)

/-- `r` is `s` once record `k` has let go of every channel and cross bus it holds: they are free, and the wait list is
to be examined (R53, R97). -/
abbrev State.letsGo (s : State) (k : Fin 64) (r : State) : Prop :=
  r = { s with relays := r.relays, buses := r.buses, examineDue := true } ∧
  (∀ d, r.relaySet d = { s.relaySet d with
    holder := if (s.relaySet d).holder = some k then none else (s.relaySet d).holder }) ∧
  ∀ b, r.buses.get b = if s.buses.get b = some k then none else s.buses.get b

/-- `t` is left where a normalisation of channel `c` has ended in `w` (R53, R57): a record that holds `c` lets go once no
channel it holds normalises any more. -/
abbrev State.normLeaves (w t : State) (c : Fin 24) : Prop :=
  ((∀ k, (w.relaySet c).holder = some k →
      ∃ d, (w.relaySet d).holder = some k ∧ (w.relaySet d).normalising ≠ none) →
    w.examineDue = false ∨ w.due ≠ [] → t = w) ∧
  ∀ k, (w.relaySet c).holder = some k →
    (∀ d, (w.relaySet d).holder = some k → (w.relaySet d).normalising = none) →
      ∃ r : State, w.letsGo k r ∧ r.passLeaves t

/-- `r` is `s` once record `k` has joined the wait list: it is WAITING, its place among those that join at this instant
is by its index, and the list is to be examined (R93, R95, R97). -/
abbrev State.joins (s : State) (k : Fin 64) (r : State) : Prop :=
  ∃ l l', s.joining = l ++ l' ∧ (∀ i ∈ l, i < k) ∧ (∀ i ∈ l', k < i) ∧
    r = { s.updFault k (fun f => { f with state := .waiting, fresh := true }) with
      joining := l ++ k :: l', examineDue := true }

/-- Record `k` as it enters ACTIVE at this instant (R71, R94, R109). -/
def State.activeNow (s : State) (k : Fin 64) : FaultRecord :=
  { s.fault k with
    state := .active
    startStamp := some ⟨s.rigTime, angleCount s.angle.phase, s.angle.cycle⟩
    durProgress := 0
    frozen := if (s.fault k).kind = FaultKind.freeze then some (s.channel (s.fault k).target).lastOutput else none
    fresh := true }

/-- Record `k` as its activation ends at this instant: DONE, or ARMED again where no release is pending and a repeat is
left, its trigger set up afresh (R71, R89, R90, R103). -/
def State.endedNow (s : State) (k : Fin 64) : FaultRecord :=
  let r := { s.fault k with
    endStamp := some ⟨s.rigTime, angleCount s.angle.phase, s.angle.cycle⟩
    activations := (s.fault k).activations + 1
    frozen := none
    seq := none }
  if r.releasePending = true ∨ r.repeats = 0 then { r with state := .done }
  else
    { r with
      state := .armed
      repeats := r.repeats - 1
      trigger := (match r.trigger with
        | .atTime t => .atTime (t + BitVec.ofNat 48 r.repeatPeriod)
        | .atAngle _ a => .atAngle none a
        | .onCapture i e n => .onCapture i e n
        | .onFault i e => .onFault i e)
      trigProgress := (match r.trigger with
        | .onCapture _ _ _ => 0
        | .atTime _ | .atAngle _ _ | .onFault _ _ => r.trigProgress)
      fresh := true }

/-- Record `j` fires at the instant, from `s` to `t`, of event `e` of record `k`: it listens for that event, or for the
START event of another record that fires at the instant (R83, R84). -/
abbrev State.firedBy (s t : State) (k : Fin 64) (e : FaultEvent) (j : Fin 64) : Prop :=
  s.run.mode = .run ∧ (s.fault j).state = .armed ∧ ∃ i x, (s.fault j).trigger = .onFault i x ∧
    (i = k ∧ x = e ∨ i ≠ k ∧ x = .start ∧ (s.fault i).state = .armed ∧ (t.fault i).state = .active)

/-- The chain of event `e` of record `k`, each listener an electronic record: those that fire are ACTIVE, and no record
but them and `k` changes (R83, R84, R94). -/
abbrev State.chainFires (s t : State) (k : Fin 64) (e : FaultEvent) : Prop :=
  ∀ j, j ≠ k → (s.firedBy t k e j → t.fault j = s.activeNow j) ∧ (¬s.firedBy t k e j → t.fault j = s.fault j)

/-- No ARMED record that listens for a fault event is a relay record. -/
abbrev State.listenersElectronic (s : State) : Prop :=
  ∀ j i x, (s.fault j).state = .armed → (s.fault j).trigger = .onFault i x → (s.fault j).kind.electronic = true

/-- Relay `n` of channel `d` belongs to the step that the sequence `q` of record `r` is in (R54). -/
def inStep (r : FaultRecord) (q : Sequence) (d : Fin 24) (n : RelayName) : Prop :=
  match r.kind with
  | .openWire => q.step = 0 ∧ d = r.target ∧ n = .path
  | .shortGnd => d = r.target ∧ (q = ⟨false, 0⟩ ∧ n = .path ∨ q = ⟨false, 1⟩ ∧ n = .gnd ∨
      q = ⟨true, 0⟩ ∧ n = .gnd ∨ q = ⟨true, 1⟩ ∧ n = .path)
  | .shortBat => d = r.target ∧ (q = ⟨false, 0⟩ ∧ n = .path ∨ q = ⟨false, 1⟩ ∧ n = .bat ∨
      q = ⟨true, 0⟩ ∧ n = .bat ∨ q = ⟨true, 1⟩ ∧ n = .path)
  | .pinShort => ∃ p b, r.partner = some p ∧ r.bus = some b ∧
      ((q = ⟨false, 0⟩ ∨ q = ⟨true, 1⟩) ∧ d = p ∧ n = .path ∨
        (q = ⟨false, 1⟩ ∨ q = ⟨true, 0⟩) ∧ (d = r.target ∨ d = p) ∧ n = b.relay)
  | .stuckAt | .freeze | .offset | .gain | .noise | .missTooth | .extraTooth => False

/-- Relay `y`, wanted in a position, is `y'`: it is left where it is moving or at rest there with nothing in doubt, and is
commanded otherwise (R48, R51). -/
def wantedIn (t : RelayTiming) (pos : Position) (y y' : Relay) : Prop :=
  y' = if y.state.moving = true ∨ (y.state = pos.rest ∧ y.failed = false) then y
    else { state := pos.moving, failed := false, movement := some ⟨0, t.settle, t.timeout⟩ }

/-- The relay set `x` of a channel whose normalisation begins is `y`: the relays but PATH are wanted open; where none of
them moves for it PATH is wanted closed; where that does not move either the channel is in service (R57, R60). -/
def normalisationBegins (t : RelayTiming) (x y : RelaySet) : Prop :=
  ∃ z : PerRelay Relay, z.path = x.relays.path ∧ (∀ r, r ≠ .path → wantedIn t .opened (x.relays.get r) (z.get r)) ∧
    ((∃ r, r ≠ .path ∧ (z.get r).state.moving = true) → y = { x with normalising := some .breaking, relays := z }) ∧
    ((∀ r, r ≠ .path → (z.get r).state.moving = false) →
      ∃ p : Relay, wantedIn t .closed z.path p ∧
        y = { x with
          normalising := if p.state.moving then some .joining else none
          inService := if p.state.moving then x.inService else true
          relays := { z with path := p } })

/-- A relay at rest in a position with nothing in doubt. -/
def atRest (pos : Position) : Relay := { state := pos.rest }

/-- The position a relay has in the normal set (R47). -/
def normalPosition (r : RelayName) : Position := if r = .path then .closed else .opened

/-- A channel's relay set is the normal set (R47). -/
def normalSet (x : RelaySet) : Prop := ∀ r, x.relays.get r = atRest (normalPosition r)

/-- The law of break before make (R56): at most one of GND, BAT, X0 and X1 is not at rest open, PATH is open while GND
or BAT is not, and a channel in service with no holder and no normalisation has its normal set (R53). -/
def State.breakLaw (s : State) : Prop :=
  ∀ c, (∀ r r', r ≠ .path → r' ≠ .path → r ≠ r' →
      (s.relaySet c).relays.get r = atRest .opened ∨ (s.relaySet c).relays.get r' = atRest .opened) ∧
    (∀ r, r = .gnd ∨ r = .bat → (s.relaySet c).relays.get r ≠ atRest .opened →
      (s.relaySet c).relays.path.state = .opened) ∧
    ((s.relaySet c).inService = true → (s.relaySet c).holder = none → (s.relaySet c).normalising = none →
      normalSet (s.relaySet c))

/-- The position that the steps give a relay, the last wish for it counting; its normal position without one. -/
def plannedPosition (l : List Wish) (c : Fin 24) (r : RelayName) : Position :=
  match (l.filter fun w => w.1 == c && w.2.1 == r).getLast? with
  | some w => w.2.2
  | none => normalPosition r

/-- The wishes of the steps that a record in its sequence has left behind (R54). -/
def stepsBehind (r : FaultRecord) : List Wish :=
  match r.seq with
  | none => (startSteps r).flatten
  | some q =>
    (if q.stop then (startSteps r).flatten else []) ++ ((sequenceSteps r q.stop).take q.step).flatten

/-- The wishes of the step in flight (R54). -/
def stepNow (r : FaultRecord) : List Wish :=
  match r.seq with
  | none => []
  | some q => (sequenceSteps r q.stop).getD q.step []

/-- What the passage of its record says of the relays of a held channel: a relay of the step in flight is at the
position the step wants or moves there, and every other relay is at rest where the steps behind have left it. -/
def State.onCourse (s : State) (c : Fin 24) (r : FaultRecord) : Prop :=
  ∀ n, if (stepNow r).any (fun w => w.1 == c && w.2.1 == n) then
      ((s.relaySet c).relays.get n).state.position = plannedPosition (stepNow r) c n
    else (s.relaySet c).relays.get n = atRest (plannedPosition (stepsBehind r) c n)

/-- What every step keeps of the Relay Matrix, with `recordLaw`: what the records, their channels and the buses say of
each other, and where each relay stands on the way of its sequence or normalisation (R48, R53 to R58). -/
def State.matrixLaw (s : State) : Prop :=
  s.holderLaw ∧ s.breakLaw ∧
  (∀ k, ((s.fault k).kind = .pinShort ↔ (s.fault k).partner.isSome = true) ∧
    (s.fault k).partner ≠ some (s.fault k).target) ∧
  (∀ k, (s.fault k).state = .waiting ∨ (s.fault k).state = .starting ∨ (s.fault k).state = .stopping →
    (s.fault k).kind.electronic = false) ∧
  (∀ k, (s.fault k).state = .starting → ∃ i, (s.fault k).seq = some ⟨false, i⟩ ∧ i < (startSteps (s.fault k)).length) ∧
  (∀ k, (s.fault k).state = .stopping → ∃ i, (s.fault k).seq = some ⟨true, i⟩ ∧ i < (stopSteps (s.fault k)).length) ∧
  (∀ k, travels (s.fault k) → (∀ c ∈ needs (s.fault k), (s.relaySet c).holder = some k) ∧
    ((s.fault k).kind = .pinShort → ∃ b, (s.fault k).bus = some b ∧ s.buses.get b = some k)) ∧
  (∀ c n, ((s.relaySet c).relays.get n).movement.isSome = ((s.relaySet c).relays.get n).state.moving ∧
    (((s.relaySet c).relays.get n).state.moving = true → ((s.relaySet c).relays.get n).failed = false)) ∧
  (∀ c k, (s.relaySet c).holder = some k → (s.relaySet c).normalising = none → travels (s.fault k) →
    (s.relaySet c).inService = true ∧ s.onCourse c (s.fault k)) ∧
  (∀ c k, (s.relaySet c).holder = some k → (s.relaySet c).normalising.isSome = true → (s.fault k).state = .failed) ∧
  (∀ c k, (s.relaySet c).holder = some k → (s.relaySet c).normalising = none → (s.fault k).state = .failed →
    (s.relaySet c).inService = true → normalSet (s.relaySet c)) ∧
  (∀ c, (s.relaySet c).holder = none → (s.relaySet c).normalising.isSome = true →
    (s.relaySet c).inService = false) ∧
  (∀ c, (s.relaySet c).inService = false → (s.relaySet c).normalising = none → (s.relaySet c).anyMoving = false) ∧
  (∀ c, (s.relaySet c).normalising = some .breaking → (s.relaySet c).relays.path.state.moving = false ∧
    ∀ n, n ≠ .path → ((s.relaySet c).relays.get n).state.position = .opened) ∧
  (∀ c, (s.relaySet c).normalising = some .joining → (s.relaySet c).relays.path.state.position = .closed ∧
    ∀ n, n ≠ .path → (s.relaySet c).relays.get n = atRest .opened) ∧
  ∀ c, (s.relaySet c).inService = false → ∀ n, n ≠ .path → ((s.relaySet c).relays.get n).state.position = .opened

end Machine

end Sys2Proof
end

