-- ==== Sys2Proof/WellFormed.lean ====
section
/-! DEFINITION. Which commands a sender can send: a request must fit one packet of at most 255 payload
words (R188), and the open codes of ARM_FAULT's trigger and duration must be codes that name none. -/

namespace Sys2Proof

/-- The payload lengths of R202: whether the words fit the layout of a kind. -/
def RequestKind.fits (k : RequestKind) (ws : List Word) : Bool :=
  match k with
  | .start | .stop | .enterSafe | .resume | .resetRig | .readRunState | .readAngleBase | .stepMark | .echo
  | .readNotices => ws.length == 0
  | .setDeadline | .setAngleBase | .readPattern | .readChannel | .setRelayTiming | .readRelays
  | .releaseFault | .clearFault | .readFault | .freeSegment | .readSegment | .stopReplay | .readReplay
  | .takeCaptures | .readCaptureState | .clearNotices | .setNoticeEnable => ws.length == 1
  | .setSpeed | .force | .readSamples | .setCapture => ws.length == 2
  | .setChannel | .defineSegment | .queueReplay => ws.length == 3
  | .setReplay => ws.length == 4
  | .armFault => ws.length == 8
  | .loadPattern => 1 ≤ ws.length
  | .liveUpdate => ws.length % 2 == 0
  | .writeSamples => ws.length == 2 + ((field (ws.headD 0) 0 16).toNat + 1) / 2

/-- A trigger kind code is open only above 3 (R205). -/
def RawTrigger.wf : RawTrigger → Bool
  | .unknown c => 4 ≤ c.toNat
  | .atTime _ | .atAngle _ _ _ | .onCapture _ _ _ | .onFault _ _ => true

/-- A duration kind code is open only above 4 (R205). -/
def RawDuration.wf : RawDuration → Bool
  | .unknown c => 5 ≤ c.toNat
  | .untilRelease | .time _ | .angle _ | .cycles _ | .capture _ _ _ => true

/-- The command can be sent: its packet can be framed (R188, R202) and its codes name what they say. -/
def Instr.wf : Instr → Bool
  | .loadPattern _ _ _ l => l.length ≤ 254
  | .liveUpdate _ _ l => l.length ≤ 127
  | .writeSamples _ _ _ _ l => l.length ≤ 506
  | .armFault _ _ _ g => g.trigger.wf && g.duration.wf
  | .unknownKind _ _ k l => (kindOfCode k).isNone && l.length ≤ 255
  | .powerOnReset | .resetLineAssert | .resetLineRelease | .rigTick _ | .millisecondBoundary
  | .cycleWrap | .analogRefresh | .periodStart _ | .pulseHighEnd _ | .driverTrip _
  | .movementComplete _ _ | .movementFail _ _ | .batteryFlagChange | .safeLineChange
  | .comparatorChange _ _ | .captureEdgeReport _ | .atTimeTrigger _ | .onCaptureTrigger _
  | .durationEnd _ | .replayAdvance _ | .deadlineExpiry | .portWord _ _ | .writeSamplesDone
  | .readSamplesDone _ | .start _ _ | .stop _ _ | .enterSafe _ _ | .resume _ _ | .resetRig _ _
  | .setDeadline _ _ _ _ _ | .readRunState _ _ | .setSpeed _ _ _ _ | .setAngleBase _ _ _ _
  | .readAngleBase _ _ | .readPattern _ _ _ _ | .stepMark _ _ | .setChannel _ _ _ _
  | .force _ _ _ _ _ | .echo _ _ | .readChannel _ _ _ | .setRelayTiming _ _ _ _ | .readRelays _ _ _
  | .releaseFault _ _ _ | .clearFault _ _ _ | .readFault _ _ _ | .defineSegment _ _ _ _ _
  | .freeSegment _ _ _ | .readSamples _ _ _ _ _ | .readSegment _ _ _ | .setReplay _ _ _ _
  | .queueReplay _ _ _ _ | .stopReplay _ _ _ | .readReplay _ _ _ | .setCapture _ _ _ _
  | .takeCaptures _ _ _ | .readCaptureState _ _ _ | .readNotices _ _ | .clearNotices _ _ _
  | .setNoticeEnable _ _ _ => true

end Sys2Proof
end

