-- ==== Sys2Proof/Certificates/Slice0/Obligations.lean ====
section
/-! DEFINITION. The statements for the provers: what each command does and leaves unchanged, what the whole part
keeps at every step, and what the words of the ports say. A premise `takesNow` says that the port takes the request
at the instant its last word arrives (R191); `noPassAfter` says that the pass of the wait list does not follow the
event (R97), `passLeaves` what the pass leaves. A next state is written as a record update: every field it does not
name is unchanged. -/

open Sys2Proof Sys2Proof.Machine

/-! ## The block and its queue -/

/-- The step takes the command at the front of the queue and runs it on the state with the queue's rest; with no
command waiting the block idles, which is the model's choice (assumption 8). -/
def Obligations.StepRunsFrontCommand : Prop :=
  (∀ (c : Instr) (s : State) (rest : List Instr),
    s.pending = c :: rest → step s = exec c { s with pending := rest }) ∧
  ∀ s : State, s.pending = [] → step s = .next s

/-- No command touches the queue of the commands that wait. The queue is the model's own (assumption 18), and that
POWER_ON_RESET and the other resets keep it is the model's choice (assumption 13). -/
def Obligations.ExecKeepsQueue : Prop :=
  ∀ (c : Instr) (s t : State), exec c s = .next t → t.pending = s.pending

/-- A command has no next state only where it is a request that no packet can carry: R188 limits a payload to 255
words. -/
def Obligations.CommandsStopOnlyUnframed : Prop :=
  (∀ (c : Instr) (s : State), (∃ t, exec c s = .next t) ∨
    exec c s = .refused .notAPacket ∧
      ((∃ p t q l, c = .loadPattern p t q l ∧ 254 < l.length) ∨
        (∃ p t l, c = .liveUpdate p t l ∧ 127 < l.length) ∨
        (∃ p t g o l, c = .writeSamples p t g o l ∧ 506 < l.length) ∨
        ∃ p t k l, c = .unknownKind p t k l ∧ 255 < l.length)) ∧
  (∀ p t q l s, 254 < l.length → exec (.loadPattern p t q l) s = .refused .notAPacket) ∧
  (∀ p t l s, 127 < l.length → exec (.liveUpdate p t l) s = .refused .notAPacket) ∧
  (∀ p t g o l s, 506 < l.length → exec (.writeSamples p t g o l) s = .refused .notAPacket) ∧
  ∀ p t k l s, 255 < l.length → exec (.unknownKind p t k l) s = .refused .notAPacket

/-! ## Words (chapter 11) -/

/-- The words written for a well-formed request are read back as that request, every field at every value, on a port
that may send it; on the other port they are refused with WRONG_PORT. -/
def Obligations.RequestWordsDecode : Prop :=
  ∀ (i : Instr) (p : Port) (t : Byte) (e : RequestKind × List Word),
    i.wf = true → i.sender = some (p, t) → encodePayload i = some e →
      decodePacket p (packetOf t e) = if e.1.allowed p then .ok i else .error .wrongPort

/-- The port's three checks on a request and their order (R192), over the table of ports (R193), the payload lengths
and the kind codes (R202). -/
def Obligations.PortChecksInOrder : Prop :=
  (∀ (p : Port) (q : Packet), (∀ k : RequestKind, k.code ≠ q.kind) → decodePacket p q = .error .unknownKind) ∧
  (∀ (p : Port) (q : Packet) (k : RequestKind), k.code = q.kind → k.allowed p = false →
    decodePacket p q = .error .wrongPort) ∧
  (∀ (p : Port) (q : Packet) (k : RequestKind), k.code = q.kind → k.allowed p = true →
    k.fits q.payload = false → decodePacket p q = .error .badLength) ∧
  (∀ (p : Port) (q : Packet) (k : RequestKind), k.code = q.kind → k.allowed p = true →
    k.fits q.payload = true → ∃ i, decodePacket p q = .ok i ∧ i.sender = some (p, q.tag)) ∧
  (∀ k : RequestKind, k.allowed .B = false ↔ k ∈ [RequestKind.liveUpdate, .stepMark]) ∧
  (∀ k : RequestKind, k.allowed .M = false ↔
    k ∈ [RequestKind.setAngleBase, .loadPattern, .setChannel, .force, .echo, .setRelayTiming, .armFault,
      .releaseFault, .clearFault, .defineSegment, .freeSegment, .writeSamples, .setReplay, .queueReplay,
      .stopReplay, .setCapture, .setDeadline, .start, .stop, .enterSafe, .resume, .resetRig]) ∧
  ([RequestKind.start, .stop, .enterSafe, .resume, .resetRig, .setDeadline, .readRunState].map fun k =>
    k.code.toNat) = [0x01, 0x02, 0x03, 0x04, 0x05, 0x06, 0x07] ∧
  ([RequestKind.setSpeed, .setAngleBase, .loadPattern, .readAngleBase, .readPattern].map fun k =>
    k.code.toNat) = [0x10, 0x11, 0x12, 0x13, 0x14] ∧
  ([RequestKind.liveUpdate, .stepMark, .setChannel, .force, .echo, .readChannel].map fun k =>
    k.code.toNat) = [0x20, 0x21, 0x22, 0x23, 0x24, 0x25] ∧
  ([RequestKind.setRelayTiming, .readRelays, .armFault, .releaseFault, .clearFault, .readFault].map fun k =>
    k.code.toNat) = [0x30, 0x31, 0x40, 0x41, 0x42, 0x43] ∧
  ([RequestKind.defineSegment, .freeSegment, .writeSamples, .readSamples, .readSegment].map fun k =>
    k.code.toNat) = [0x50, 0x51, 0x52, 0x53, 0x54] ∧
  ([RequestKind.setReplay, .queueReplay, .stopReplay, .readReplay].map fun k => k.code.toNat) =
    [0x60, 0x61, 0x62, 0x63] ∧
  ([RequestKind.setCapture, .takeCaptures, .readCaptureState].map fun k => k.code.toNat) = [0x70, 0x71, 0x72] ∧
  ([RequestKind.readNotices, .clearNotices, .setNoticeEnable].map fun k => k.code.toNat) = [0x80, 0x81, 0x82]

/-- Header, status, sample, capture and notice words carry their fields in the bits of R201, R203 and R204, and the
things an OK response lists have their words in the order of the list (R201). How one thing of a list is packed where
chapter 11 does not lay it out is open, and that each has words of its own is the model's choice (assumption 1). -/
def Obligations.WordLayouts : Prop :=
  (∀ (m k t : Byte) (n : Nat), n ≤ 255 →
    field (headerWord m k t n) 24 8 = m ∧ field (headerWord m k t n) 16 8 = k ∧
      field (headerWord m k t n) 8 8 = t ∧ (field (headerWord m k t n) 0 8).toNat = n) ∧
  ([Status.ok, .unknownKind, .wrongPort, .badLength, .badValue, .wrongMode, .wrongState, .busy, .full,
    .notFound, .overlap, .notSource].map fun c => c.code.toNat) = List.range 12 ∧
  (∀ (k t : Byte) (c : Status),
    responseWords k t (.refuse c) = [headerWord 0x3C k t 1, (0 : BitVec 24) ++ c.code]) ∧
  (∀ (k t : Byte) (r : Reply), (∀ l, r.body ≠ .samples l) → (∀ l n g, r.body ≠ .captures l n g) →
    ∃ further : List Word, further = (listWords k 0 r.body.items).take 254 ∧
      responseWords k t r =
        headerWord 0x3C k t (1 + further.length) :: ((0 : BitVec 24) ++ r.status.code) :: further) ∧
  (∀ (k : Byte) (n : Nat) (a b : List Item),
    listWords k n (a ++ b) = listWords k n a ++ listWords k (n + a.length) b) ∧
  (∀ (k t : Byte) (l : List Half), l.length ≤ 504 → ∃ w : Word, field w 16 16 = 0 ∧ (field w 0 16).toNat = l.length ∧
    responseWords k t (.okay (.samples l)) =
      headerWord 0x3C k t (2 + (l.length + 1) / 2) :: 0 :: w :: packSamples l) ∧
  (∀ (k t : Byte) (l : List CaptureRecord) (left : Nat) (gap : Bool), l.length ≤ 63 → left ≤ 128 →
    ∃ w : Word, (field w 24 8).toNat = l.length ∧ (field w 16 8).toNat = left ∧ field w 1 15 = 0 ∧
      w.getLsbD 0 = gap ∧
      responseWords k t (.okay (.captures l left gap)) =
        headerWord 0x3C k t (2 + 4 * l.length) :: 0 :: w :: l.flatMap captureWords) ∧
  (∀ (k t : Byte) (f e : BitVec 9) (atn synced : Bool), ∃ (n₁ n₂ n₃ : Nat) (r₁ r₂ r₃ : List Word),
    responseWords k t (.okay (.notices f e atn synced)) =
      headerWord 0x3C k t n₁ :: 0 :: ((0 : BitVec 23) ++ f) :: ((0 : BitVec 23) ++ e) :: r₁ ∧
    responseWords k t (.okay (.cleared f atn)) = headerWord 0x3C k t n₂ :: 0 :: ((0 : BitVec 23) ++ f) :: r₂ ∧
    responseWords k t (.okay (.enables e f atn)) =
      headerWord 0x3C k t n₃ :: 0 :: ((0 : BitVec 23) ++ e) :: ((0 : BitVec 23) ++ f) :: r₃) ∧
  ([Notice.captureReady, .captureGap, .faultEvent, .relayFault, .overcurrent, .replayEvent, .deadlineMissed,
    .safeEntered, .linkResync].map Notice.bit) = List.range 9 ∧
  (packSamples [] = [] ∧ (∀ a : Half, packSamples [a] = [a ++ (0 : Half)]) ∧
    (∀ (a b : Half) (l : List Half), packSamples (a :: b :: l) = (a ++ b) :: packSamples l) ∧
    ∀ l : List Half, (packSamples l).length = (l.length + 1) / 2 ∧
      (unpackSamples (packSamples l)).take l.length = l) ∧
  ∀ r : CaptureRecord, r.stamp.angle ≤ 11519 → r.width.getD 0 ≤ 16777215 →
    ∃ w0 w1 w2 w3 : Word, captureWords r = [w0, w1, w2, w3] ∧
      (field w0 28 4).toNat = r.input.1 ∧ w0.getLsbD 27 = r.rise ∧ w0.getLsbD 26 = r.gap ∧
      w0.getLsbD 25 = r.width.isSome ∧ field w0 16 9 = 0 ∧
      field w0 0 16 ++ field w1 0 32 = r.stamp.time ∧
      field w2 16 16 = r.stamp.cycle ∧ field w2 14 2 = 0 ∧ (field w2 0 14).toNat = r.stamp.angle ∧
      field w3 24 8 = 0 ∧ (field w3 0 24).toNat = r.width.getD 0

/-! ## Ports (chapter 10) -/

/-- A request whose kind code names none, and a request on the port it is not allowed on, are answered with the status
alone and change nothing else (R192, R193). That a request command stands for words that arrive whole is the model's
choice (assumption 10). -/
def Obligations.PortRefusals : Prop :=
  (∀ (s : State) (p : Port) (t k : Byte) (l : List Word), s.takesNow p = true →
    (∀ x : RequestKind, x.code ≠ k) → l.length ≤ 255 →
      exec (.unknownKind p t k l) s = .next (s.respond p k t (.refuse .unknownKind))) ∧
  ∀ (s : State) (i : Instr) (p : Port) (t : Byte) (e : RequestKind × List Word), s.takesNow p = true →
    i.sender = some (p, t) → encodePayload i = some e → e.2.length ≤ 255 → e.1.allowed p = false →
      exec i s = .next (s.respond p e.1.code t (.refuse .wrongPort))

/-- A request that its port cannot take as its last word arrives: it is discarded while the part is held in reset
(R185); it waits at the tail of the inbound queue; its header is a framing error where that queue is full; its words
are discarded in HUNT; and they are payload of a request that is still being received (R188 to R191). That a request
command stands for its words arriving one after the other is the model's choice (assumption 10). -/
def Obligations.RequestWaits : Prop :=
  ∀ (s : State) (i : Instr) (p : Port) (t : Byte) (e : RequestKind × List Word),
    i.sender = some (p, t) → encodePayload i = some e → e.2.length ≤ 255 →
      (s.pins.resetLine = true → exec i s = .next s) ∧
      (s.pins.resetLine = false → s.portFree p = false →
        exec i s = .next (s.updPort p fun q =>
          (headerWord 0xC3 e.1.code t e.2.length :: e.2).foldl PortState.receive q) ∧
        ((s.port p).link = .synced → (∀ q ∈ (s.port p).inbound, q.complete = true) →
          ((s.port p).inbound.length < 8 →
            exec i s = .next (s.updPort p fun x => { x with inbound := x.inbound ++ [packetOf t e] })) ∧
          (8 ≤ (s.port p).inbound.length → (∀ w ∈ e.2, w ≠ 0xFFFFFFFF) →
            exec i s = .next (s.updPort p fun x => { x with link := .hunt false })))) ∧
      (s.pins.resetLine = false → (s.port p).inbound = [] → (∀ w ∈ e.2, w ≠ 0xFFFFFFFF) →
        ∀ seen, (s.port p).link = .hunt seen →
          exec i s = .next (s.updPort p fun x => { x with link := .hunt false })) ∧
      (s.pins.resetLine = false → ∀ k g n l, (s.port p).inbound = [⟨k, g, n, l⟩] → l.length + 1 + e.2.length < n →
        exec i s = .next (s.updPort p fun x =>
          { x with inbound := [⟨k, g, n, l ++ headerWord 0xC3 e.1.code t e.2.length :: e.2⟩] }))

/-- A free port takes the oldest request of its inbound queue where it is complete, judges and answers it as a packet,
and goes on with the next (R191). A request command that is taken at once is taken in the same way as its words taken
one by one; that it stands for its words is the model's choice (assumption 10). -/
def Obligations.CompleteRequestIsTaken : Prop :=
  (∀ (s : State) (p : Port) (q : Packet) (rest : List Packet), (s.port p).inbound = q :: rest → rest.length < 8 →
    q.complete = true → s.portFree p = true →
      s.serve p = ((s.updPort p fun x => { x with inbound := rest }).takePacket p q).serve p) ∧
  (∀ (s : State) (p : Port), ((s.port p).inbound = [] ∨ s.portFree p = false ∨
      ∃ q rest, (s.port p).inbound = q :: rest ∧ q.complete = false) → s.serve p = s) ∧
  (∀ (s : State) (p : Port) (q : Packet), s.takesNow p = true → q.payload.length = q.need → q.need ≤ 255 →
    q.words.foldl (fun u w => (u.updPort p fun x => x.receive w).serve p) s = s.takePacket p q) ∧
  ∀ (s : State) (i : Instr) (p : Port) (t : Byte) (e : RequestKind × List Word), i.wf = true →
    i.sender = some (p, t) → encodePayload i = some e → e.2.length ≤ 255 → e.1.allowed p = true →
    s.takesNow p = true → exec i s = .next (s.takePacket p (packetOf t e))

/-- One word in and one word out (R187 to R190, R194): what a word between packets does by link state, the payload of a
request that is being received, a full inbound queue, and the words of the response at the head of the queue, whose word
goes out also where a RESET_RIG is taken at it (R191, R194). READY is high while the inbound queue has a free place and
the part is not held in reset: a header that arrives then has its place, one that arrives in a full queue is a framing
error, and a request taken from a full queue makes READY high (R185, R190). That the outbound word is chosen before the
inbound word is judged is the model's choice (assumption 22). -/
def Obligations.PortWordExchanged : Prop :=
  (∀ (s : State) (p : Port) (w : Word), s.pins.resetLine = true →
    exec (.portWord p w) s = .next (s.updPort p fun q => { q with outWord := 0xFFFFFFFF })) ∧
  (∀ (s : State) (p : Port) (w : Word), s.pins.resetLine = false → (s.port p).inbound = [] →
    (s.port p).responses = [] →
      (∀ seen, (s.port p).link = .hunt seen → w ≠ 0xFFFFFFFF →
        exec (.portWord p w) s =
          .next (s.updPort p fun q => { q with outWord := 0xFFFFFFFF, link := .hunt false })) ∧
      ((s.port p).link = .hunt false → w = 0xFFFFFFFF →
        exec (.portWord p w) s =
          .next (s.updPort p fun q => { q with outWord := 0xFFFFFFFF, link := .hunt true })) ∧
      ((s.port p).link = .hunt true → w = 0xFFFFFFFF →
        exec (.portWord p w) s =
          .next (s.updPort p fun q =>
            { q with
              outWord := 0xFFFFFFFF
              link := .synced
              resetHunt := false
              sticky := if q.resetHunt then q.sticky else q.sticky ||| 0x100 })) ∧
      ((s.port p).link = .synced → w = 0xFFFFFFFF →
        exec (.portWord p w) s = .next (s.updPort p fun q => { q with outWord := 0xFFFFFFFF })) ∧
      ((s.port p).link = .synced → field w 24 8 = 0xC3 → 0 < (field w 0 8).toNat →
        exec (.portWord p w) s =
          .next (s.updPort p fun q =>
            { q with
              outWord := 0xFFFFFFFF
              inbound := [⟨field w 16 8, field w 8 8, (field w 0 8).toNat, []⟩] })) ∧
      ((s.port p).link = .synced → field w 24 8 = 0xC3 → field w 0 8 = 0 → s.transferring p = false →
        exec (.portWord p w) s =
          .next ((s.updPort p fun q => { q with outWord := 0xFFFFFFFF }).takePacket p
            ⟨field w 16 8, field w 8 8, 0, []⟩)) ∧
      ((s.port p).link = .synced → w ≠ 0xFFFFFFFF → field w 24 8 ≠ 0xC3 →
        exec (.portWord p w) s =
          .next (s.updPort p fun q => { q with outWord := 0xFFFFFFFF, link := .hunt false }))) ∧
  (∀ (s : State) (p : Port) (w : Word) (k t : Byte) (n : Nat) (l : List Word), s.pins.resetLine = false →
    (s.port p).responses = [] → (s.port p).inbound = [⟨k, t, n, l⟩] →
      (l.length + 1 < n →
        exec (.portWord p w) s =
          .next (s.updPort p fun q =>
            { q with outWord := 0xFFFFFFFF, inbound := [⟨k, t, n, l ++ [w]⟩] })) ∧
      (l.length + 1 = n → s.transferring p = false →
        exec (.portWord p w) s =
          .next ((s.updPort p fun q => { q with outWord := 0xFFFFFFFF, inbound := [] }).takePacket p
            ⟨k, t, n, l ++ [w]⟩))) ∧
  (∀ (s : State) (p : Port) (w : Word) (k t : Byte), s.pins.resetLine = false →
    (s.port p).responses = [⟨k, t, none⟩] → s.transferring p = true →
    (s.port p).inbound.length = 8 → (∀ q ∈ (s.port p).inbound, q.complete = true) →
    (s.port p).link = .synced → w ≠ 0xFFFFFFFF →
      exec (.portWord p w) s =
        .next (s.updPort p fun q => { q with outWord := 0xFFFFFFFF, link := .hunt false })) ∧
  (∀ (s : State) (p : Port) (k t : Byte) (rest : List Response), s.pins.resetLine = false →
    (s.port p).inbound = [] → (s.port p).link = .synced →
      (∀ r, (s.port p).responses = ⟨k, t, some r⟩ :: rest →
        exec (.portWord p 0xFFFFFFFF) s =
          .next (s.updPort p fun q =>
            { q with
              outWord := (responseWords k t r).getD q.sent 0xFFFFFFFF
              sent := if q.sent + 1 < (responseWords k t r).length then q.sent + 1 else 0
              responses := if q.sent + 1 < (responseWords k t r).length then q.responses else rest })) ∧
      ((s.port p).responses = ⟨k, t, none⟩ :: rest →
        exec (.portWord p 0xFFFFFFFF) s = .next (s.updPort p fun q => { q with outWord := 0xFFFFFFFF }))) ∧
  (∀ (s : State) (p : Port) (w : Word), s.pins.resetLine = false →
    ∃ t, exec (.portWord p w) s = .next t ∧
      (t.port p).outWord = match (s.port p).responses with
        | ⟨k, g, some r⟩ :: _ => (responseWords k g r).getD (s.port p).sent 0xFFFFFFFF
        | _ => 0xFFFFFFFF) ∧
  (∀ (s : State) (w : Word) (k t : Byte) (r : Reply) (rest : List Response), s.pins.resetLine = false →
    (s.port .B).responses = ⟨k, t, some r⟩ :: rest → (s.port .B).inbound = [] → (s.port .B).link = .synced →
    s.transferring .B = false → field w 24 8 = 0xC3 → field w 16 8 = 0x05 → field w 0 8 = 0 →
    (rest.length < 7 ∨ (rest.length = 7 ∧ (responseWords k t r).length ≤ (s.port .B).sent + 1)) →
      exec (.portWord .B w) s = .next (s.rigReset.updPort .B fun q =>
        { q with outWord := (responseWords k t r).getD (s.port .B).sent 0xFFFFFFFF })) ∧
  (∀ (s : State) (p : Port), s.ready p = true ↔ s.pins.resetLine = false ∧ (s.port p).inbound.length < 8) ∧
  (∀ (s : State) (p : Port) (w : Word), s.pins.resetLine = false → (s.port p).link = .synced →
    (∀ q ∈ (s.port p).inbound, q.complete = true) → s.transferring p = true → field w 24 8 = 0xC3 →
      ∃ t, exec (.portWord p w) s = .next t ∧
        (s.ready p = true → (t.port p).link = .synced ∧
          (t.port p).inbound =
            (s.port p).inbound ++ [⟨field w 16 8, field w 8 8, (field w 0 8).toNat, []⟩] ∧
          (t.ready p = false ↔ (s.port p).inbound.length = 7)) ∧
        (s.ready p = false → (t.port p).link = .hunt false ∧ (t.port p).inbound = (s.port p).inbound ∧
          t.ready p = false)) ∧
  ∀ (s : State) (p : Port) (q : Packet) (rest : List Packet), s.pins.resetLine = false →
    (s.port p).inbound = q :: rest → rest.length = 7 → q.complete = true → s.portFree p = true →
      s.ready p = false ∧ (s.serve p).ready p = true

/-! ## Resets (9.7) -/

/-- What a power-on reset leaves; the RESET line: a rig reset at its assertion, no tick and no word while it stays
asserted; and RESET_RIG, which makes a rig reset and gets no response (R185, R191). A rig reset keeps Sample Memory
but for a write in flight, the DEFINED segments with their counts at 0, and the active pattern tables, and sets
everything else as a power-on reset does (R125, R186). How much of a write in flight had been written is open
(assumption 2). That the lines the rig drives, the waiting commands and the count of free values stay is the model's
choice (assumption 13), and so are the values of the model's own fields `wait`, `place`, `drawn`, `pin`, `pinHeld`,
`outWord`, and of `edge`, `fresh` and `halfDone`, at reset (assumption 14). -/
def Obligations.PowerOnAndResetLine : Prop :=
  (∀ s : State, exec .powerOnReset s = .next s.powerOn ∧
    s.powerOn =
      { State.reset with
        pins := s.pins
        freeCount := s.freeCount
        pending := s.pending
        inputs := Vector.ofFn fun i =>
          { settings := { enabled := false, level := 0, divider := 1, agreement := 2, edges := .both,
                          dest := ⟨false, false⟩, trip := false, width := false }
            comparator := decide (800 < s.pins.captureMv.get i)
            level := none, disagree := 0, runStamp := none, lastEdge := none, edge := none } }) ∧
  (State.reset.rigTime = 0 ∧ State.reset.angle.phase = 0 ∧ State.reset.angle.cycle = 0 ∧
    State.reset.angle.speed = 0 ∧ State.reset.angle.target = 0 ∧ State.reset.angle.ramp = 0 ∧
    State.reset.angle.source = .model ∧ State.reset.angle.safeRamp = 400 ∧
    State.reset.angle.active = ⟨[], [], []⟩ ∧ State.reset.angle.staged = ⟨none, none, none⟩) ∧
  (∀ c, State.reset.channel c =
    { mode := .free, source := .live, live := ⟨0, 0⟩, slot := none, forced := ⟨0, 0⟩, safe := 0,
      inverted := false, pattern := .crank, offset := 0, autoRestore := true, keepOut := false,
      driver := .off, lastOutput := 0, clamped := false, gen := none, buffer := none, wait := 0,
      limitTicks := none, noise := 0xACE1 ^^^ BitVec.ofNat 16 c.1, drawn := false, pin := 0, pinHeld := false }) ∧
  (∀ c, (State.reset.relaySet c).inService = true ∧ (State.reset.relaySet c).holder = none ∧
    (State.reset.relaySet c).normalising = none ∧
    ∀ r, (State.reset.relaySet c).relays.get r =
      { state := if r = .path then .closed else .opened, failed := false, movement := none }) ∧
  (State.reset.timing = ⟨3, 20⟩ ∧ State.reset.battery = ⟨false, 0⟩ ∧ State.reset.buses = ⟨none, none⟩ ∧
    State.reset.lastEcho = none ∧ State.reset.waitList = [] ∧ State.reset.joining = [] ∧
    State.reset.examineDue = false ∧ State.reset.due = []) ∧
  (∀ k, State.reset.fault k =
    { state := .free, target := 0, partner := none, bus := none, kind := .openWire, level := 0,
      param := .int 0, trigger := .atTime 0, duration := .untilRelease, repeats := 0, repeatPeriod := 0,
      notify := ⟨false, false⟩, releasePending := false, activations := 0, startStamp := none, endStamp := none,
      failReason := none, trigProgress := 0, durProgress := 0, frozen := none, seq := none, fresh := false }) ∧
  (∀ a, memRead State.reset.memory a = 0) ∧ (∀ g, State.reset.segment g = ⟨false, 0, 0, 0⟩) ∧
  (∀ n, State.reset.engine n =
    { state := .idle, target := .analog 0, pacing := .time 1000, interp := false, gain := 4096, offset := 0,
      notify := ⟨false, false⟩, current := none, queue := [], k := 0, e := 0, awaiting := false,
      lastOut := none, clamped := false }) ∧
  (∀ p, State.reset.port p =
    { link := .hunt false, resetHunt := true, inbound := [], responses := [], sent := 0,
      outWord := 0xFFFFFFFF, sticky := 0, enables := 0, captures := [], gap := false }) ∧
  (State.reset.run =
    { mode := .config, safe := ⟨true, 0⟩, cause := none,
      monitor := { enabled := false, deadline := 100, limit := 3, state := .off, misses := 0,
                   timer := none } } ∧ State.reset.moving = none ∧ State.reset.queued = none) ∧
  (∀ s : State, s.pins.resetLine = false →
    exec .resetLineAssert s =
      .next { s.rigReset with pins := { s.pins with resetLine := true } }) ∧
  (∀ s : State, s.pins.resetLine = true → exec .resetLineAssert s = .next s) ∧
  (∀ s : State, exec .resetLineRelease s = .next { s with pins := { s.pins with resetLine := false } }) ∧
  (∀ (s : State) (l : List PinChange), s.pins.resetLine = true →
    exec (.rigTick l) s = .next { s with pins := l.foldl Pins.change s.pins }) ∧
  (∀ (s : State) (tag : Byte), s.takesNow .B = true → exec (.resetRig .B tag) s = .next s.rigReset) ∧
  ∀ s : State,
    s.rigReset = { s.powerOn with
      angle := { active := s.angle.active }
      memory := s.rigReset.memory
      segments := mapV (fun _ g => { g with refs := 0 }) s.segments
      freeCount := s.rigReset.freeCount } ∧
    (s.moving = none → s.rigReset.memory = s.memory) ∧
    (∀ x, s.moving = some x → x.write = false → s.rigReset.memory = s.memory) ∧
    ∀ x, s.moving = some x → x.write = true →
      ∃ n ≤ x.samples.length, s.rigReset.memory = memWriteRun s.memory x.address (x.samples.take n)

/-! ## Rig time and the Angle Base (chapter 1) -/

/-- A tick advances the rig time by one (R1); in RUN and SAFE it adds the increment to the phase, and the tick whose
addition carries is a cycle wrap (R4, R5); in CONFIG the angle stands. A tick before whose instant the half-tick instant
is still to come is the tick at that instant (`State.halfTicked`, R32), and one that finds period starts and ends of
high time due is the tick after the first of them is taken, so what follows holds of those ticks too. It is given for a
tick at a closed instant: nothing due, the half-tick instant passed. Where no AT_ANGLE trigger can fire and no
ANGLE-paced engine runs, it is the whole effect: the battery bus and the SAFE line are sampled (R62, R169), durations
and movements count (R48, R85), inputs and current limits are sampled (R41, R152), pulse pins are evaluated (R36), FREE
periods, TIME-paced engines and the deadline timer count (R32, R137, R178), and exactly the events whose conditions this
meets are due. CYCLE_WRAP is that tick where the addition is due to carry, and changes nothing otherwise, which is the
model's choice (assumption 9); `wait` and `place` are the model's own (assumption 23). That the count of four shows with
the old state until its event is the model's choice (assumption 31), and so is that all this comes before every event of
the instant: a channel that one of them brings back to driving its pin is sampled from the next tick (assumption 37), and
the level that a FREE pin has here is its last output (assumption 28). -/
def Obligations.TickAdvancesTimeAndPhase : Prop :=
  (∀ (s : State) (l : List PinChange), s.pins.resetLine = false →
    ∃ t, exec (.rigTick l) s = .next t ∧ t.rigTime = s.rigTime + 1 ∧ t.halfDone = false ∧
      t.pins = l.foldl Pins.change s.pins ∧ t.memory = s.memory ∧ t.timing = s.timing ∧
      t.lastEcho = s.lastEcho ∧ t.moving = s.moving ∧ t.queued = s.queued ∧ t.pending = s.pending) ∧
  (∀ (s : State) (l : List PinChange), s.pins.resetLine = false → s.due = [] → s.halfDone = true →
    ∃ t, exec (.rigTick l) s = .next t ∧ t.run.mode = s.run.mode ∧
      (Event.millisecond ∈ t.due ↔ t.rigTime.toNat % 1000 = 0) ∧
      (Event.refresh ∈ t.due ↔ t.rigTime.toNat % 4 = 0) ∧
      (s.run.mode = .config → t.angle = s.angle) ∧
      (s.run.mode ≠ .config →
        t.angle.phase.toNat = (s.angle.phase.toNat + increment s.angle.speed) % 2 ^ 32 ∧
        (s.angle.phase.toNat + increment s.angle.speed < 2 ^ 32 →
          t.angle = { s.angle with phase := t.angle.phase }) ∧
        (2 ^ 32 ≤ s.angle.phase.toNat + increment s.angle.speed →
          t.angle = { s.angle with phase := t.angle.phase, cycle := s.angle.cycle + 1,
                                   active := t.angle.active, staged := ⟨none, none, none⟩ } ∧
          ∀ q, t.angle.active.get q = (s.angle.staged.get q).getD (s.angle.active.get q)))) ∧
  (∀ (s : State) (l : List PinChange), s.pins.resetLine = false → s.due = [] → s.halfDone = true →
    s.examineDue = false →
    (s.run.mode = .run →
      (∀ k c a, (s.fault k).state = .armed → (s.fault k).trigger ≠ .atAngle c a) ∧
      ∀ n, (s.engine n).state = .running → (s.engine n).pacing.isAngle = false) →
    ∃ (t : State) (d : Nat) (w : Bool), exec (.rigTick l) s = .next t ∧
      d = angleAdvance (angleCount s.angle.phase) (angleCount t.angle.phase) ∧
      w = decide (s.run.mode ≠ .config ∧ 2 ^ 32 ≤ s.angle.phase.toNat + increment s.angle.speed) ∧
      t = { s with rigTime := t.rigTime, halfDone := false, angle := t.angle, pins := t.pins, due := t.due,
                   battery := t.battery, run := t.run, faults := t.faults, relays := t.relays,
                   inputs := t.inputs, channels := t.channels, engines := t.engines,
                   place := s.place - 1 } ∧
      t.battery = s.battery.sample (decide (6400 < t.pins.batteryMv)) ∧
      t.run = { s.run with
        safe := s.run.safe.sample t.pins.safeLine
        monitor := { s.run.monitor with timer :=
          if s.run.mode = .run then s.run.monitor.timer.map (· - 1) else s.run.monitor.timer } } ∧
      (∀ k, t.fault k = tickRecord d w (s.fault k)) ∧
      (∀ c, t.relaySet c = { s.relaySet c with relays := (t.relaySet c).relays } ∧
        ∀ r, (t.relaySet c).relays.get r = { (s.relaySet c).relays.get r with
          movement := ((s.relaySet c).relays.get r).movement.map fun m => { m with elapsed := m.elapsed + 1 } }) ∧
      (∀ i, t.input i =
        if (s.input i).settings.enabled = true ∧ s.run.mode ≠ .config ∧
            t.rigTime.toNat % (s.input i).settings.divider = 0 then
          (s.input i).sample ⟨t.rigTime, angleCount t.angle.phase, t.angle.cycle⟩
        else s.input i) ∧
      (∀ c, ∃ (level : Nat) (held : Bool),
        (kindOf c ≠ .pulse → level = (s.channel c).pin ∧ held = (s.channel c).pinHeld) ∧
        (kindOf c = .pulse → (level, held) = pulsePin (s.effectiveRecord c) (s.channel c).inverted
          (if (s.channel c).mode = .wheel then t.wheelActive c (s.channel c)
            else (s.channel c).gen.any fun g => g.active)) ∧
        t.channel c = { s.channel c with
          pin := level
          pinHeld := held
          lastOutput := if kindOf c = .pulse then level else (s.channel c).lastOutput
          gen := (s.channel c).gen.map fun g => { g with elapsed := g.elapsed + 1 }
          wait := (s.channel c).wait - 1
          limitTicks :=
            if (s.channel c).driver = .driving ∧ (s.relaySet c).inService = true ∧ t.pins.limit.get c = true then
              (match (s.channel c).limitTicks with | none => some 0 | some n => some (n + 1))
            else none }) ∧
      (∀ n, t.engine n = { s.engine n with e :=
        if s.run.mode = .run ∧ (s.engine n).state = .running ∧ (s.engine n).current.isSome = true then
          (match (s.engine n).pacing with
            | .time p => if (s.engine n).e + 1 < p then (s.engine n).e + 1 else (s.engine n).e
            | .angle _ => (s.engine n).e)
        else (s.engine n).e }) ∧
      (Event.battery ∈ t.due ↔ t.battery.count = 4) ∧
      (Event.safeLine ∈ t.due ↔ t.run.safe.count = 4) ∧
      (Event.deadline ∈ t.due ↔ s.run.mode = .run ∧ ∃ n ≤ 1, s.run.monitor.timer = some n) ∧
      (∀ k, (Event.durationEnd k ∈ t.due ↔ (t.fault k).state = .active ∧ (t.fault k).durationOver = true) ∧
        (Event.atTime k ∈ t.due ↔ s.run.mode = .run ∧ (s.fault k).state = .armed ∧
          ∃ x : RigTime, (s.fault k).trigger = .atTime x ∧ x.toNat ≤ t.rigTime.toNat) ∧
        Event.onCapture k ∉ t.due) ∧
      (∀ c r, (Event.moveComplete c r ∈ t.due ↔
          ((t.relaySet c).relays.get r).completes ((t.pins.sense.get c).get r) = true) ∧
        (Event.moveFail c r ∈ t.due ↔
          ((t.relaySet c).relays.get r).fails ((t.pins.sense.get c).get r) = true)) ∧
      (∀ i, Event.captureReport i ∈ t.due ↔ (t.input i).level.isSome = true ∧ (t.input i).edge.isSome = true) ∧
      (∀ c, (Event.driverTrip c ∈ t.due ↔ (t.channel c).limitTicks = some 1000) ∧
        (Event.periodStart c ∈ t.due ↔ kindOf c = .pulse ∧
          ((s.channel c).gen = none ∧ (s.channel c).wait = 1 ∨
            ∃ g, (s.channel c).gen = some g ∧ g.elapsed + 1 = g.period)) ∧
        (Event.highEnd c ∈ t.due ↔ kindOf c = .pulse ∧ ∃ g, (s.channel c).gen = some g ∧
          g.active = true ∧ g.elapsed + 1 = g.high ∧ g.high < g.period)) ∧
      ∀ n, Event.replayAdvance n ∈ t.due ↔ s.run.mode = .run ∧ (s.engine n).state = .running ∧
        (s.engine n).current.isSome = true ∧ ∃ p, (s.engine n).pacing = .time p ∧ p ≤ (s.engine n).e + 1) ∧
  (∀ (s : State) (l : List PinChange), s.pins.resetLine = false → s.due = [] → s.halfDone = false →
    s.examineDue = false → ∃ h, s.halfTicked h ∧ exec (.rigTick l) s = exec (.rigTick l) h) ∧
  (∀ (s : State) (l : List PinChange) (c : Fin 24) (i : Instr) (e : Event) (rest : List Event),
    s.pins.resetLine = false → s.due = e :: rest → rest.length < 16 →
    (∀ x ∈ s.due, ∃ d, x = .periodStart d ∨ x = .highEnd d) →
    (i = .periodStart c ∧ e = .periodStart c ∨ i = .pulseHighEnd c ∧ e = .highEnd c) →
      ∃ t, exec i s = .next t ∧ t.due = rest ∧ exec (.rigTick l) s = exec (.rigTick l) t) ∧
  ∀ s : State, s.pins.resetLine = false → s.due = [] → (s.halfDone = true ∨ s.examineDue = false) →
    (s.run.mode ≠ .config → 2 ^ 32 ≤ s.angle.phase.toNat + increment s.angle.speed →
      ∃ t, exec .cycleWrap s = .next t ∧ exec (.rigTick []) s = .next t ∧
        t.angle.cycle = s.angle.cycle + 1) ∧
    (s.run.mode = .config ∨ s.angle.phase.toNat + increment s.angle.speed < 2 ^ 32 →
      exec .cycleWrap s = .next s)

/-- The angle count of a phase (R3): its two forms, its range, the revolution it lies in, and how many phase values a
count spans. The increment is the speed's exact value rounded to the nearest integer, halves up (R7). The angle advance
of a tick is the angle count after it less that before it, taken round the 11520 counts of a cycle, at most 2, and 2 only
above 372,827 phase units a tick (R6). -/
def Obligations.AngleCountAndIncrement : Prop :=
  (∀ x : BitVec 32, angleCount x = x.toNat * 45 / 2 ^ 24 ∧ angleCount x = x.toNat * 11520 / 2 ^ 32 ∧
    angleCount x ≤ 11519 ∧ (angleCount x < 5760 ↔ x.toNat < 2 ^ 31)) ∧
  angleCount 0 = 0 ∧ angleCount 0xFFFFFFFF = 11519 ∧
  (∀ a ≤ 11519, ∃ lo n, (n = 372827 ∨ n = 372828) ∧
    ∀ x : BitVec 32, angleCount x = a ↔ lo ≤ x.toNat ∧ x.toNat < lo + n) ∧
  (∃ a b lo lo', ∀ x : BitVec 32, (angleCount x = a ↔ lo ≤ x.toNat ∧ x.toNat < lo + 372827) ∧
    (angleCount x = b ↔ lo' ≤ x.toNat ∧ x.toNat < lo' + 372828)) ∧
  (∀ v : Nat, 480000000 * increment v ≤ v * 2 ^ 32 + 240000000 ∧
    v * 2 ^ 32 + 240000000 < 480000000 * (increment v + 1)) ∧
  (∀ v ≤ 64000, increment v ≤ 572662) ∧
  ([0, 1, 4, 3200, 4000, 4400, 14000, 24000, 64000].map increment) =
    [0, 9, 36, 28633, 35791, 39371, 125270, 214748, 572662] ∧
  (∀ a b, a < 11520 → b < 11520 → angleAdvance a b < 11520 ∧ (a + angleAdvance a b) % 11520 = b) ∧
  ∀ (x : BitVec 32) (v : Nat), v ≤ 64000 →
    (angleCount x + angleAdvance (angleCount x) (angleCount (x + BitVec.ofNat 32 (increment v)))) % 11520 =
      angleCount (x + BitVec.ofNat 32 (increment v)) ∧
    angleAdvance (angleCount x) (angleCount (x + BitVec.ofNat 32 (increment v))) ≤ 2 ∧
    (angleAdvance (angleCount x) (angleCount (x + BitVec.ofNat 32 (increment v))) = 2 →
      372827 < increment v)

/-- MILLISECOND_BOUNDARY: the ramp step of R8 in RUN, its hold (R9), the safe ramp of R10 in SAFE, none in CONFIG; in
RUN the engines whose target is SPEED compute first, from their samples and their position, clamped to 0..64000 (R140,
R143), and the output of the engine the speed source names becomes the target (R12, R143). -/
def Obligations.MillisecondRamps : Prop :=
  ∀ s : State, Event.millisecond ∈ s.due → (∀ n, Event.replayAdvance n ∉ s.due) → s.noPassAfter .millisecond →
    (s.run.mode = .config →
      exec .millisecondBoundary s = .next { s with due := s.due.erase .millisecond }) ∧
    (s.run.mode = .safe →
      exec .millisecondBoundary s =
        .next { s with due := s.due.erase .millisecond,
                       angle := { s.angle with speed := s.angle.speed - s.angle.safeRamp } }) ∧
    (s.run.mode = .run → ∃ t, exec .millisecondBoundary s = .next t ∧
      t = { s with due := s.due.erase .millisecond, engines := t.engines,
                   angle := { s.angle with speed := t.angle.speed, target := t.angle.target } } ∧
      (∀ n c, (s.engine n).target = .analog c → t.engine n = s.engine n) ∧
      (∀ n, ((s.engine n).state ≠ .running ∨ (s.engine n).awaiting = true ∨ (s.engine n).current = none) →
        t.engine n = s.engine n) ∧
      (∀ n d, (s.engine n).target = .speed → (s.engine n).state = .running →
        (s.engine n).awaiting = false → (s.engine n).current = some d →
          ∃ (x y i v : Int) (f : Nat),
            x = (memRead s.memory ((s.segment d.segment).base + d.first + (s.engine n).k)).toInt ∧
            y = (if (s.engine n).k + 1 < d.count then
              (memRead s.memory ((s.segment d.segment).base + d.first + (s.engine n).k + 1)).toInt else x) ∧
            f = (match (s.engine n).pacing with
              | .time p => (s.engine n).e * 256 / p
              | .angle m => s.angle.phase.toNat * m * 256 / 2 ^ 32 % 256) ∧
            i = (if (s.engine n).interp then x + Int.fdiv ((y - x) * f) 256 else x) ∧
            v = Int.fdiv (i * (s.engine n).gain) 4096 + (s.engine n).offset ∧
            t.engine n = { s.engine n with lastOut := some (clampInt 0 64000 v),
                                           clamped := decide (v < 0 ∨ 64000 < v) } ∧
            (s.angle.source = .replay n → (t.angle.target : Int) = clampInt 0 64000 v)) ∧
      ((∀ n, s.angle.source ≠ .replay n) → t.angle.target = s.angle.target) ∧
      (∀ n, s.angle.source = .replay n →
        ((s.engine n).target ≠ .speed ∨ (s.engine n).state ≠ .running ∨ (s.engine n).awaiting = true ∨
            (s.engine n).current = none) →
          t.angle.target = s.angle.target) ∧
      (s.run.monitor.state = .late → s.angle.source = .model → t.angle.speed = s.angle.speed) ∧
      (s.run.monitor.state ≠ .late ∨ s.angle.source ≠ .model →
        (s.angle.ramp = 0 → t.angle.speed = t.angle.target) ∧
        (0 < s.angle.ramp →
          (s.angle.speed < t.angle.target →
            t.angle.speed = min t.angle.target (s.angle.speed + s.angle.ramp)) ∧
          (t.angle.target < s.angle.speed →
            t.angle.speed = max t.angle.target (s.angle.speed - s.angle.ramp)) ∧
          (s.angle.speed = t.angle.target → t.angle.speed = s.angle.speed))))

/-- SET_SPEED (R11): the source check, the check of the mode, the target stored as at most 64000, the response. -/
def Obligations.SetSpeedSetsTarget : Prop :=
  ∀ (s : State) (p : Port) (tag : Byte) (x : Word) (r : Half), s.takesNow p = true →
    (((s.angle.source = .model ∧ p = .B) ∨ (s.angle.source = .bench ∧ p = .M) ∨
        ∃ n, s.angle.source = .replay n) →
      exec (.setSpeed p tag x r) s = .next (s.answerNo p .setSpeed tag .notSource)) ∧
    ((s.angle.source = .model ∧ p = .M) ∨ (s.angle.source = .bench ∧ p = .B) →
      (s.run.mode = .safe → exec (.setSpeed p tag x r) s = .next (s.answerNo p .setSpeed tag .wrongMode)) ∧
      (s.run.mode ≠ .safe →
        exec (.setSpeed p tag x r) s =
          .next (({ s with angle := { s.angle with target := min x.toNat 64000, ramp := r.toNat } }).answerOk
            p .setSpeed tag (.speed (min x.toNat 64000) s.angle.speed (decide (64000 < x.toNat))))))

/-- SET_ANGLE_BASE (R13) and LOAD_PATTERN (R15 to R17), with what a good window list is. -/
def Obligations.AngleBaseSettings : Prop :=
  (∀ (s : State) (tag code : Byte) (r : Half), s.takesNow .B = true →
    ((r = 0 ∨ (code.toNat ≠ 0 ∧ code.toNat ≠ 1 ∧ ∀ n : Fin 4, code.toNat ≠ 4 + n.1)) →
      exec (.setAngleBase .B tag code r) s = .next (s.answerNo .B .setAngleBase tag .badValue)) ∧
    (r ≠ 0 → ∀ x : SpeedSource, code.toNat = (match x with | .model => 0 | .bench => 1 | .replay n => 4 + n.1) →
      exec (.setAngleBase .B tag code r) s =
        .next (({ s with angle := { s.angle with source := x, safeRamp := r.toNat } }).answerOk
          .B .setAngleBase tag .nothing))) ∧
  (∀ (q : Pattern) (l : List Window), windowsGood q l = true ↔
    (∀ w ∈ l, w.start < w.stop ∧ w.stop ≤ q.span) ∧ l.Pairwise fun a b => a.stop < b.start) ∧
  ∀ (s : State) (tag code : Byte) (l : List WindowWord), s.takesNow .B = true → l.length ≤ 254 →
    (2 < code.toNat →
      exec (.loadPattern .B tag code l) s = .next (s.answerNo .B .loadPattern tag .badValue)) ∧
    ∀ q : Pattern, code.toNat = (match q with | .crank => 0 | .cam0 => 1 | .cam1 => 2) →
      (q.most < l.length ∨ windowsGood q (windowsOf l) = false →
        exec (.loadPattern .B tag code l) s = .next (s.answerNo .B .loadPattern tag .badValue)) ∧
      (l.length ≤ q.most → windowsGood q (windowsOf l) = true →
        (s.run.mode = .config →
          exec (.loadPattern .B tag code l) s =
            .next (({ s with angle := { s.angle with active := s.angle.active.put q (windowsOf l) } }).answerOk
              .B .loadPattern tag (.placed false))) ∧
        (s.run.mode ≠ .config →
          exec (.loadPattern .B tag code l) s =
            .next (({ s with angle :=
                { s.angle with staged := s.angle.staged.put q (some (windowsOf l)) } }).answerOk
              .B .loadPattern tag (.placed true))))

/-! ## Reads -/

/-- The reads of Run Control, of the Angle Base, of the patterns, of the notices, of every record and of the echo
answer what their rules list and change nothing but the port's response queue; an index above the table is refused with
BAD_VALUE (R14, R18, R30, R45, R64, R77, R121, R148, R166, R183, R197). The order of the eight counts of fault records is
the model's choice (assumption 1). -/
def Obligations.ReadsAnswerState : Prop :=
  (∀ (s : State) (p : Port) (tag : Byte), s.takesNow p = true →
    exec (.readRunState p tag) s =
      .next (s.answerOk p .readRunState tag
        (.runState s.rigTime s.run
          ([FaultState.free, .armed, .waiting, .starting, .active, .stopping, .done, .failed].map s.countIn)
          s.anyMoving)) ∧
    exec (.readAngleBase p tag) s =
      .next (s.answerOk p .readAngleBase tag
        (.angleBase s.rigTime s.angle (angleCount s.angle.phase) (increment s.angle.speed)
          (decide (s.run.mode = .run ∧ s.run.monitor.state = .late ∧ s.angle.source = .model))
          ⟨s.angle.active.crank.length, s.angle.active.cam0.length, s.angle.active.cam1.length⟩
          ⟨s.angle.staged.crank.isSome, s.angle.staged.cam0.isSome, s.angle.staged.cam1.isSome⟩)) ∧
    (∀ (code : Byte) (staged : Bool),
      (2 < code.toNat →
        exec (.readPattern p tag code staged) s = .next (s.answerNo p .readPattern tag .badValue)) ∧
      ∀ q : Pattern, code.toNat = (match q with | .crank => 0 | .cam0 => 1 | .cam1 => 2) →
        exec (.readPattern p tag code staged) s =
          .next (s.answerOk p .readPattern tag
            (.pattern (if staged then (s.angle.staged.get q).getD [] else s.angle.active.get q)
              (s.angle.staged.get q).isSome))) ∧
    exec (.readNotices p tag) s =
      .next (s.answerOk p .readNotices tag
        (.notices (s.port p).flags (s.port p).enables (decide ((s.port p).flags &&& (s.port p).enables ≠ 0))
          (decide ((s.port p).link = .synced))))) ∧
  (∀ (s : State) (tag : Byte), s.takesNow .B = true →
    exec (.echo .B tag) s = .next (s.answerOk .B .echo tag (.echo s.lastEcho))) ∧
  ∀ (s : State) (p : Port) (tag x : Byte), s.takesNow p = true →
    (24 ≤ x.toNat →
      exec (.readChannel p tag x) s = .next (s.answerNo p .readChannel tag .badValue) ∧
      exec (.readRelays p tag x) s = .next (s.answerNo p .readRelays tag .badValue)) ∧
    (∀ c : Fin 24, x.toNat = c.1 →
      exec (.readChannel p tag x) s =
        .next (s.answerOk p .readChannel tag
          (.channelRead (kindOf c) (s.channel c)
            (if s.run.mode = .safe ∧ kindOf c ≠ .pulse then { value := (s.channel c).safe } else s.baseValue c)
            (s.relaySet c).inService (s.effective c))) ∧
      exec (.readRelays p tag x) s =
        .next (s.answerOk p .readRelays tag
          (.relays (s.relaySet c) (s.pins.sense.get c) s.buses s.battery.level s.timing))) ∧
    (64 ≤ x.toNat → exec (.readFault p tag x) s = .next (s.answerNo p .readFault tag .badValue)) ∧
    (∀ k : Fin 64, x.toNat = k.1 →
      exec (.readFault p tag x) s =
        .next (s.answerOk p .readFault tag
          (.faultRead (s.fault k)
            (if (s.fault k).state = .waiting then placeIn k (s.waitList ++ s.joining) else none)
            (if (s.fault k).state = .active ∧ (s.fault k).kind.electronic = true then
              some (decide (s.effective (s.fault k).target = some k)) else none)))) ∧
    (32 ≤ x.toNat → exec (.readSegment p tag x) s = .next (s.answerNo p .readSegment tag .badValue)) ∧
    (∀ g : Fin 32, x.toNat = g.1 →
      exec (.readSegment p tag x) s = .next (s.answerOk p .readSegment tag (.segment (s.segment g)))) ∧
    (4 ≤ x.toNat → exec (.readReplay p tag x) s = .next (s.answerNo p .readReplay tag .badValue)) ∧
    (∀ n : Fin 4, x.toNat = n.1 →
      exec (.readReplay p tag x) s =
        .next (s.answerOk p .readReplay tag
          (.engineRead (s.engine n) ((s.engine n).current.map fun d => d.count - (s.engine n).k)
            (match (s.engine n).target with
              | .analog c => decide (s.boundEngine (analogChannel c) = some n)
              | .speed => decide (s.angle.source = .replay n))))) ∧
    (16 ≤ x.toNat →
      exec (.readCaptureState p tag x) s = .next (s.answerNo p .readCaptureState tag .badValue)) ∧
    ∀ i : Fin 16, x.toNat = i.1 →
      exec (.readCaptureState p tag x) s =
        .next (s.answerOk p .readCaptureState tag
          (.captureRead (s.input i) ((List.finRange 16).map fun j => (s.input j).level)
            s.portM.captures.length s.portM.gap s.portB.captures.length s.portB.gap))

/-! ## Output Stage (chapter 2, 5.5, 5.6) -/

/-- ANALOG_REFRESH: the engines with an analog target compute first (R139 to R142); every analog channel takes its base
value by its source (R24), or its safe value in SAFE, through the overlay of its effective record and the clamp to
0..4000 (R25, R26, R39); every switch channel takes its level through the overlay (R37); a pulse channel is not
touched. What a pin presents between its driver's return to DRIVING and this refresh is the model's choice
(assumption 14); the refresh gives it the value of the rules. -/
def Obligations.RefreshComputesOutputs : Prop :=
  (∀ (s : State) (c : Fin 24),
    ((s.channel c).source = .live → s.baseValue c = (s.channel c).live) ∧
    ((s.channel c).source = .forced → s.baseValue c = (s.channel c).forced) ∧
    ((s.channel c).source = .replay →
      ((∀ n a, (s.engine n).target = .analog a → a.1 ≠ c.1) → s.baseValue c = ⟨0, 0⟩) ∧
      ∀ n a, (s.engine n).target = .analog a → a.1 = c.1 →
        (∀ m < n, ∀ b, (s.engine m).target = .analog b → b.1 ≠ c.1) →
          s.baseValue c = ⟨(s.engine n).lastOut.getD 0, 0⟩)) ∧
  ∀ s : State, Event.refresh ∈ s.due → (∀ n, Event.replayAdvance n ∉ s.due) → s.noPassAfter .refresh →
    ∃ t, exec .analogRefresh s = .next t ∧
      t = { s with due := s.due.erase .refresh, engines := t.engines, channels := t.channels } ∧
      (∀ n, ((s.engine n).target = .speed ∨ (s.engine n).state ≠ .running ∨ (s.engine n).awaiting = true ∨
          (s.engine n).current = none) → t.engine n = s.engine n) ∧
      (∀ n a d, (s.engine n).target = .analog a → (s.engine n).state = .running →
        (s.engine n).awaiting = false → (s.engine n).current = some d →
          ∃ (x y i v : Int) (f : Nat),
            x = (memRead s.memory ((s.segment d.segment).base + d.first + (s.engine n).k)).toInt ∧
            y = (if (s.engine n).k + 1 < d.count then
              (memRead s.memory ((s.segment d.segment).base + d.first + (s.engine n).k + 1)).toInt else x) ∧
            f = (match (s.engine n).pacing with
              | .time p => (s.engine n).e * 256 / p
              | .angle m => s.angle.phase.toNat * m * 256 / 2 ^ 32 % 256) ∧
            i = (if (s.engine n).interp then x + Int.fdiv ((y - x) * f) 256 else x) ∧
            v = Int.fdiv (i * (s.engine n).gain) 4096 + (s.engine n).offset ∧
            t.engine n = { s.engine n with lastOut := some (clampInt 0 4000 v),
                                           clamped := decide (v < 0 ∨ 4000 < v) }) ∧
      (∀ c, kindOf c = .pulse → t.channel c = s.channel c) ∧
      (∀ c, kindOf c = .analog →
        ∃ (b v : Int) (r : Half),
          b = (if s.run.mode = .safe then ((s.channel c).safe : Int) else (t.baseValue c).value) ∧
          r = (if (s.effectiveRecord c).any (fun f => f.kind == .noise) then noiseNext (s.channel c).noise
            else (s.channel c).noise) ∧
          v = analogOverlay (s.effectiveRecord c) r b ∧
          t.channel c =
            { s.channel c with
              noise := r
              drawn := (s.effectiveRecord c).any fun f => f.kind == .noise
              lastOutput := (clampInt 0 4000 v).toNat
              clamped := decide (v < 0 ∨ 4000 < v)
              pin := if (s.channel c).driver = .driving then (clampInt 0 4000 v).toNat
                else (s.channel c).pin }) ∧
      ∀ c, kindOf c = .switch →
        ∃ (b : Int) (l : Nat),
          b = (if s.run.mode = .safe then ((s.channel c).safe : Int) else (t.baseValue c).value) ∧
          l = (switchOverlay (s.effectiveRecord c) b).toNat ∧
          t.channel c =
            { s.channel c with
              lastOutput := l
              pin := if (s.channel c).driver = .driving then
                  (if (s.channel c).inverted then 1 - l else l) else (s.channel c).pin }

/-- The overlays of R105 to R109 by kind; the channel angle of a WHEEL channel, the windows of its pattern, and the
SHIFT, MISS_TOOTH and EXTRA_TOOTH overlays on it (R35, R36, R108); the noise source and the range of its draws
(R110). -/
def Obligations.OverlaysAndNoise : Prop :=
  (∀ (f : FaultRecord) (r : Half) (b : Int),
    (f.kind = .stuckAt → analogOverlay (some f) r b = f.param.num ∧ switchOverlay (some f) b = f.param.num) ∧
    (f.kind = .freeze → ∀ v, f.frozen = some v →
      analogOverlay (some f) r b = v ∧ switchOverlay (some f) b = v) ∧
    (f.kind = .offset → analogOverlay (some f) r b = b + f.param.num ∧
      periodOverlay (some f) r b = b + f.param.num) ∧
    (f.kind = .gain → analogOverlay (some f) r b = Int.fdiv (b * f.param.num) 4096 ∧
      periodOverlay (some f) r b = Int.fdiv (b * f.param.num) 4096) ∧
    (f.kind = .noise → ∀ n : Nat, f.param = .int n → ∃ d : Int,
      d = (r.toNat : Int) % (2 * n + 1) - n ∧ -n ≤ d ∧ d ≤ n ∧
        analogOverlay (some f) r b = b + d ∧ periodOverlay (some f) r b = b + d) ∧
    (f.kind = .stuckAt ∨ f.kind = .freeze → periodOverlay (some f) r b = b) ∧
    analogOverlay none r b = b ∧ periodOverlay none r b = b ∧ switchOverlay none b = b) ∧
  (∀ (f : FaultRecord) (inverted active : Bool),
    (f.kind = .stuckAt → ∀ l, f.param = .int l → (l = 0 ∨ l = 1) →
      pulsePin (some f) inverted active = ((if inverted then 1 - l.toNat else l.toNat), false)) ∧
    (f.kind = .freeze → ∀ v, f.frozen = some v → pulsePin (some f) inverted active = (v, true)) ∧
    (f.kind ≠ .stuckAt → f.kind ≠ .freeze →
      pulsePin (some f) inverted active = pulsePin none inverted active) ∧
    pulsePin none inverted active = ((if active = inverted then 0 else 1), false)) ∧
  (∀ (s : State) (c : Fin 24), ∃ (x l : Nat) (shift q : Int) (tooth : Option Int),
    l = (if (s.channel c).pattern = .crank then 5760 else 11520) ∧
    (s.effective c = none → shift = 0 ∧ tooth = none) ∧
    (∀ k, s.effective c = some k →
      shift = (if (s.fault k).kind = .offset then (s.fault k).param.num else 0) ∧
      tooth = (if (s.fault k).kind = .missTooth then some (s.fault k).param.num else none)) ∧
    (x : Int) = angleCount s.angle.phase - (s.channel c).offset - shift + l * q ∧ x < l ∧
    (s.wheelActive c (s.channel c) = true ↔
      (∃ (j : Nat) (w : Window), (s.angle.active.get (s.channel c).pattern)[j]? = some w ∧ w.start ≤ x ∧ x < w.stop ∧
        tooth ≠ some (j : Int)) ∨
      inExtraTooth (s.effectiveRecord c) l x = true)) ∧
  (∀ (e : Option FaultRecord) (l x : Nat), (∀ f, e = some f → f.kind ≠ .extraTooth) →
    inExtraTooth e l x = false) ∧
  (∀ (f : FaultRecord) (l x a w : Nat), f.kind = .extraTooth → f.param = .extra a w → a < l → x < l → w ≤ l →
    (inExtraTooth (some f) l x = true ↔ ∃ j < w, (a + j) % l = x)) ∧
  (∀ x : Half, noiseNext x = (x >>> 1) ^^^ (if x.toNat % 2 = 1 then 0xB400 else 0)) ∧
  (∀ x : Half, x ≠ 0 → noiseNext x ≠ 0) ∧
  (∀ x y : Half, noiseNext x = noiseNext y → x = y) ∧
  (State.reset.channel 0).noise = 0xACE1 ∧ (State.reset.channel 12).noise = 0xACED ∧
  (State.reset.channel 23).noise = 0xACF6

/-- The effective record of a channel is the ACTIVE electronic record on it with the highest level, the lower index
among equals, or none where there is no such record (R111). -/
def Obligations.EffectiveRecordIsHighest : Prop :=
  ∀ (s : State) (c : Fin 24),
    (s.effective c = none ↔ ∀ k, ¬((s.fault k).state = .active ∧ (s.fault k).kind.electronic = true ∧
      (s.fault k).target = c)) ∧
    ∀ k, s.effective c = some k ↔
      ((s.fault k).state = .active ∧ (s.fault k).kind.electronic = true ∧ (s.fault k).target = c ∧
        ∀ j, (s.fault j).state = .active → (s.fault j).kind.electronic = true → (s.fault j).target = c →
          (s.fault j).level < (s.fault k).level ∨ ((s.fault j).level = (s.fault k).level ∧ k ≤ j))

/-- LIVE_UPDATE: one bad entry refuses the whole request (R27); a good list is applied in order, the later entry for a
channel winning, an IMMEDIATE entry emptying the slot and writing the echo (R28, R30). A running FREE channel buffers
the pair (R33); that a write of an equal pair is buffered too is the model's choice (assumption 15). A stopped FREE
channel in RUN starts with the pair that the list leaves, where its period is not 0 and no start is to come: at once,
or at a grid point to come, all the channels of the list at one; at which of those that `State.mayOpenAt` names is the
model's free choice (assumption 23). -/
def Obligations.LiveUpdateApplies : Prop :=
  (∀ e : LiveEntry, judgeEntry e = none ↔
    24 ≤ e.channel.toNat ∨ 2 ≤ e.placement.toNat ∨
      ∃ c : Fin 24, e.channel.toNat = c.1 ∧
        ((kindOf c = .pulse ∧ (e.value.toInt < 0 ∨ 16777215 < e.value.toInt)) ∨
          (kindOf c = .switch ∧ e.value.toInt ≠ 0 ∧ e.value.toInt ≠ 1))) ∧
  (∀ (e : LiveEntry) (c : Fin 24) (staged : Bool) (v : Value), judgeEntry e = some (c, staged, v) →
    e.channel.toNat = c.1 ∧ e.placement.toNat = (if staged then 1 else 0) ∧
      v = ⟨e.value.toInt, if kindOf c = .pulse then e.aux.toNat else 0⟩) ∧
  ∀ (s : State) (tag : Byte) (l : List LiveEntry), s.takesNow .M = true → l.length ≤ 127 →
    ((∃ e ∈ l, judgeEntry e = none) →
      exec (.liveUpdate .M tag l) s = .next (s.answerNo .M .liveUpdate tag .badValue)) ∧
    ∀ g : List GoodEntry, l.map judgeEntry = g.map some →
      ∃ (t : State) (w : Nat),
        exec (.liveUpdate .M tag l) s = .next (t.answerOk .M .liveUpdate tag (.count l.length)) ∧
        t = { s with channels := t.channels, lastEcho := t.lastEcho, freeCount := t.freeCount, place := t.place } ∧
        s.mayOpenAt w ∧ (t.place = s.place ∨ t.place = w) ∧
        (t.lastEcho = match (g.filter fun x => !x.2.1).getLast? with
          | some x => some ⟨x.1, x.2.2, s.rigTime⟩
          | none => s.lastEcho) ∧
        ∀ c,
          (t.channel c).live = (match (g.filter fun x => x.1 == c && !x.2.1).getLast? with
            | some x => x.2.2
            | none => (s.channel c).live) ∧
          (t.channel c).slot = (match (g.filter fun x => x.1 == c).getLast? with
            | some x => if x.2.1 then some x.2.2 else none
            | none => (s.channel c).slot) ∧
          ((s.channel c).gen = none →
            (s.run.mode ≠ .run ∨ kindOf c ≠ .pulse ∨ (s.channel c).mode ≠ .free ∨ (s.channel c).source ≠ .live ∨
              0 < (s.channel c).wait ∨ (t.channel c).live.value = 0 ∨
              (g.any fun x => x.1 == c && !x.2.1) = false) →
            t.channel c = { s.channel c with live := (t.channel c).live, slot := (t.channel c).slot }) ∧
          ((s.channel c).gen = none → s.run.mode = .run → kindOf c = .pulse → (s.channel c).mode = .free →
            (s.channel c).source = .live → (s.channel c).wait = 0 → (t.channel c).live.value ≠ 0 →
            (g.any fun x => x.1 == c && !x.2.1) = true →
              s.startsAt t c (t.channel c).live
                { s.channel c with live := (t.channel c).live, slot := (t.channel c).slot } w) ∧
          ((s.channel c).gen.isSome = true → kindOf c = .pulse → (s.channel c).mode = .free →
            t.channel c = { s.channel c with live := (t.channel c).live, slot := (t.channel c).slot,
                                             buffer := (t.channel c).buffer } ∧
            (t.channel c).buffer =
              if (s.channel c).source = .live ∧ (g.any fun x => x.1 == c && !x.2.1) = true then
                some (t.channel c).live else (s.channel c).buffer)

/-- STEP_MARK copies every staged value into its live value and empties the slots (R29, R30), and then, in RUN, acts on
the deadline monitor by its state (R179). A running FREE channel with source LIVE buffers the pair copied (R33), also
where it is an equal pair, which is the model's choice (assumption 15); a stopped one in RUN starts with it where its
period is not 0 and no start is to come, all of them at one grid point, at which of those that `State.mayOpenAt` names
is the model's free choice (assumption 23). -/
def Obligations.StepMarkCopiesAndMarks : Prop :=
  ∀ (s : State) (tag : Byte), s.takesNow .M = true →
    ∃ (t : State) (w : Nat), exec (.stepMark .M tag) s =
        .next (t.answerOk .M .stepMark tag
          (.count ((List.finRange 24).filter fun c => (s.channel c).slot.isSome).length)) ∧
      t = { s with channels := t.channels, lastEcho := t.lastEcho, run := t.run, freeCount := t.freeCount,
                   place := t.place } ∧
      s.mayOpenAt w ∧ (t.place = s.place ∨ t.place = w) ∧
      (t.lastEcho = match ((List.finRange 24).filter fun c => (s.channel c).slot.isSome).getLast? with
        | some c => some ⟨c, ((s.channel c).slot).getD {}, s.rigTime⟩
        | none => s.lastEcho) ∧
      (∀ c, ((s.channel c).slot = none → t.channel c = s.channel c) ∧
        ∀ v, (s.channel c).slot = some v →
          (kindOf c ≠ .pulse ∨ (s.channel c).mode = .wheel ∨ (s.channel c).source ≠ .live ∨
              ((s.channel c).gen = none ∧ (s.run.mode ≠ .run ∨ 0 < (s.channel c).wait ∨ v.value = 0)) →
            t.channel c = { s.channel c with live := v, slot := none }) ∧
          (kindOf c = .pulse → (s.channel c).mode = .free → (s.channel c).source = .live →
            ((s.channel c).gen.isSome = true →
              t.channel c = { s.channel c with live := v, slot := none, buffer := some v }) ∧
            ((s.channel c).gen = none → s.run.mode = .run → (s.channel c).wait = 0 → v.value ≠ 0 →
              s.startsAt t c v { s.channel c with live := v, slot := none } w))) ∧
      (s.run.mode = .run → (s.run.monitor.state = .onTime ∨ s.run.monitor.state = .late) →
        t.run = { s.run with monitor :=
          { s.run.monitor with state := .onTime, misses := 0, timer := some (10 * s.run.monitor.deadline) } }) ∧
      (s.run.mode = .run → (s.run.monitor.state = .off ∨ s.run.monitor.state = .lost) → t.run = s.run) ∧
      (s.run.mode ≠ .run → t.run = s.run) ∧
      t.rampHeld = false

/-- SET_CHANNEL: the refusals of R43 in their order, and a taken request, which writes every present field and leaves
the absent ones; the level of a pulse pin that no FREEZE holds follows a change of polarity (R44, R109); a written
auto-restore returns a TRIPPED driver (R42); a written mode stops the generator. A change of base source is a new base
pair: a running FREE channel buffers it, and a stopped one in RUN starts with it where its period is not 0 (R33), at
which grid point of those that `State.mayOpenAt` names is the model's free choice (assumption 23). So are that the pin
of a driver which a written auto-restore returns stays as it was until its refresh (assumption 14), that a channel whose
generator a written mode stops shows no clamp (assumption 15), that the last output of a FREE channel stays as its pin
moves (assumption 28), and that a change of polarity moves the pin as the request is taken, not at the next tick, for R44
says both (assumption 39). -/
def Obligations.SetChannelWritesFields : Prop :=
  (∀ (s : State) (tag x : Byte) (g : ChannelArgs), s.takesNow .B = true → 24 ≤ x.toNat →
    exec (.setChannel .B tag x g) s = .next (s.answerNo .B .setChannel tag .badValue)) ∧
  (∀ (k : ChannelKind) (g : ChannelArgs), fieldsBad k g = true ↔
    (k ≠ .pulse ∧ (g.wheel.isSome ∨ g.pattern.isSome ∨ g.offset.isSome)) ∨
    (k = .analog ∧ g.inverted.isSome) ∨ (k = .pulse ∧ g.safe.isSome) ∨
    (∃ x, g.pattern = some x ∧ x.toNat = 3) ∨ (∃ x, g.source = some x ∧ x.toNat = 3) ∨
    (k ≠ .analog ∧ ∃ x, g.source = some x ∧ x.toNat = 2) ∨ (∃ x, g.offset = some x ∧ 11519 < x.toNat) ∨
    (k = .analog ∧ ∃ x, g.safe = some x ∧ 4000 < x.toNat) ∨
    (k = .switch ∧ ∃ x, g.safe = some x ∧ 1 < x.toNat)) ∧
  ∀ (s : State) (tag x : Byte) (c : Fin 24) (g : ChannelArgs), s.takesNow .B = true → x.toNat = c.1 →
    (fieldsBad (kindOf c) g = true →
      exec (.setChannel .B tag x g) s = .next (s.answerNo .B .setChannel tag .badValue)) ∧
    (fieldsBad (kindOf c) g = false → (g.wheel.isSome ∨ g.pattern.isSome) → s.run.mode ≠ .config →
      exec (.setChannel .B tag x g) s = .next (s.answerNo .B .setChannel tag .wrongMode)) ∧
    (fieldsBad (kindOf c) g = false → (g.wheel.isSome ∨ g.pattern.isSome) → s.run.mode = .config →
      (∃ k, (s.fault k).state = .armed ∧ (s.fault k).kind.electronic = true ∧ (s.fault k).target = c) →
      exec (.setChannel .B tag x g) s = .next (s.answerNo .B .setChannel tag .busy)) ∧
    (fieldsBad (kindOf c) g = false →
      ((g.wheel = none ∧ g.pattern = none) ∨ s.run.mode = .config ∧
        ∀ k, ¬((s.fault k).state = .armed ∧ (s.fault k).kind.electronic = true ∧ (s.fault k).target = c)) →
      ∃ (y z : Channel) (b : Value) (t : State),
        exec (.setChannel .B tag x g) s = .next (t.answerOk .B .setChannel tag (.channel (t.channel c))) ∧
        y = { s.channel c with
          mode := (match g.wheel with | some true => .wheel | some false => .free | none => (s.channel c).mode)
          offset := (match g.offset with | some v => v.toNat | none => (s.channel c).offset)
          safe := (match g.safe with | some v => v.toNat | none => (s.channel c).safe)
          inverted := g.inverted.getD (s.channel c).inverted
          autoRestore := g.autoRestore.getD (s.channel c).autoRestore
          keepOut := g.keepOut.getD (s.channel c).keepOut
          pattern := (match g.pattern with
            | some v => if v = 0 then .crank else if v = 1 then .cam0 else .cam1
            | none => (s.channel c).pattern)
          source := (match g.source with
            | some v => if v = 0 then .live else if v = 1 then .forced else .replay
            | none => (s.channel c).source)
          driver := (if g.autoRestore.isSome = true ∧ (s.channel c).driver = .tripped then
            (if s.run.mode = .config then .off else .driving) else (s.channel c).driver)
          pin := (if kindOf c = .pulse ∧ (s.channel c).pinHeld = false ∧
              g.inverted = some (!(s.channel c).inverted) then 1 - (s.channel c).pin else (s.channel c).pin) } ∧
        z = (if g.wheel.isSome then shownThrough c (s.effectiveRecord c)
          { y with gen := none, buffer := none, wait := 0, clamped := false } else y) ∧
        b = (if y.source = .forced then y.forced else y.live) ∧
        (kindOf c ≠ .pulse ∨ y.source = (s.channel c).source ∨ y.mode = .wheel ∨
            (z.gen = none ∧ (s.run.mode ≠ .run ∨ 0 < z.wait ∨ b.value = 0)) → t = s.updChannel c fun _ => z) ∧
        (kindOf c = .pulse → y.source ≠ (s.channel c).source → y.mode = .free →
          (z.gen.isSome = true → t = s.updChannel c fun _ => { z with buffer := some b }) ∧
          (z.gen = none → s.run.mode = .run → z.wait = 0 → b.value ≠ 0 →
            t = { s with channels := t.channels, freeCount := t.freeCount, place := t.place } ∧
            (∀ d, d ≠ c → t.channel d = s.channel d) ∧
            ∃ w, s.mayOpenAt w ∧ s.startsAt t c b z w)))

/-- FORCE: its refusals, the forced value, and the two outputs its response shows (R31). For an analog or switch channel
the second goes through the effective record's overlay and the clamps, with the draw of the last refresh under NOISE,
and the pin does not move until the next refresh. A running FREE channel buffers the pair (R33); the second output is
the pair it gives at the next period start, through overlay and clamps. A stopped FREE channel in RUN starts with it
where its period is not 0, and a halted one keeps it in the forced value (R33, R34). The model's choices: BAD_VALUE
before WRONG_STATE (assumption 33), the draw `r` where there has been none, which is free (assumption 3), the parameter
of that draw (assumption 29), the buffer of an equal pair (assumption 15), the grid point of a start (assumption 23),
that a pair's draw is the next one (assumption 22), and the first output in SAFE before the refresh that shows the safe
value in force (assumption 24). -/
def Obligations.ForceShowsOutputs : Prop :=
  (∀ (s : State) (tag : Byte) (x : BitVec 6) (aux : BitVec 24) (v : Word), s.takesNow .B = true →
    (24 ≤ x.toNat → exec (.force .B tag x aux v) s = .next (s.answerNo .B .force tag .badValue)) ∧
    ∀ c : Fin 24, x.toNat = c.1 →
      ((kindOf c = .pulse ∧ (v.toInt < 0 ∨ 16777215 < v.toInt)) ∨
          (kindOf c = .switch ∧ v.toInt ≠ 0 ∧ v.toInt ≠ 1) →
        exec (.force .B tag x aux v) s = .next (s.answerNo .B .force tag .badValue)) ∧
      (valueGood (kindOf c) v.toInt = true → (s.channel c).source ≠ .forced →
        exec (.force .B tag x aux v) s = .next (s.answerNo .B .force tag .wrongState))) ∧
  (∀ (s : State) (tag : Byte) (x : BitVec 6) (aux : BitVec 24) (v : Word) (c : Fin 24), s.takesNow .B = true →
    x.toNat = c.1 → valueGood (kindOf c) v.toInt = true → (s.channel c).source = .forced →
    kindOf c ≠ .pulse →
      ∃ (noisy : Bool) (r : Half) (b w : Int) (u : State),
        noisy = (s.effectiveRecord c).any (fun f => f.kind == .noise) ∧
        (noisy = true → (s.channel c).drawn = true → r = (s.channel c).noise) ∧
        b = (if s.run.mode = .safe then ((s.channel c).safe : Int) else v.toInt) ∧
        w = (if kindOf c = .analog then analogOverlay (s.effectiveRecord c) r b
          else switchOverlay (s.effectiveRecord c) b) ∧
        u = (if kindOf c = .analog ∧ noisy = true ∧ (s.channel c).drawn = false then
          { s with freeCount := s.freeCount + 1 } else s) ∧
        exec (.force .B tag x aux v) s =
          .next ((u.updChannel c fun ch => { ch with forced := ⟨v.toInt, 0⟩ }).answerOk .B .force tag
            (.forced (.level (s.channel c).lastOutput)
              (.level (if kindOf c = .analog then (clampInt 0 4000 w).toNat else w.toNat))
              (decide (kindOf c = .analog ∧ (w < 0 ∨ 4000 < w)))))) ∧
  (∀ (s : State) (tag : Byte) (x : BitVec 6) (aux : BitVec 24) (v : Word) (c : Fin 24), s.takesNow .B = true →
    x.toNat = c.1 → valueGood .pulse v.toInt = true → (s.channel c).source = .forced → kindOf c = .pulse →
    (s.channel c).mode = .free →
      ∃ (b : Value) (r : Half) (p : Int) (period high : Nat) (second : OutputView) (clamped : Bool),
        b = ⟨v.toInt, aux.toNat⟩ ∧
        r = (if (s.effectiveRecord c).any (fun f => f.kind == .noise) then noiseNext (s.channel c).noise
          else (s.channel c).noise) ∧
        p = periodOverlay (s.effectiveRecord c) r v.toInt ∧ (period : Int) = clampInt 20 16777215 p ∧
        high = min aux.toNat period ∧
        second = (if v.toInt = 0 then .stopped else .pair period high) ∧
        clamped = decide (v.toInt ≠ 0 ∧ (p ≠ period ∨ high ≠ aux.toNat)) ∧
        (∀ g, (s.channel c).gen = some g →
          exec (.force .B tag x aux v) s =
            .next ((s.updChannel c fun ch => { ch with forced := b, buffer := some b }).answerOk .B .force tag
              (.forced (.pair g.period g.high) second clamped))) ∧
        ((s.channel c).gen = none → (s.run.mode ≠ .run ∨ 0 < (s.channel c).wait ∨ v.toInt = 0) →
          exec (.force .B tag x aux v) s =
            .next ((s.updChannel c fun ch => { ch with forced := b }).answerOk .B .force tag
              (.forced .stopped second clamped))) ∧
        ((s.channel c).gen = none → s.run.mode = .run → (s.channel c).wait = 0 → v.toInt ≠ 0 →
          ∃ (t : State) (w : Nat),
            exec (.force .B tag x aux v) s = .next (t.answerOk .B .force tag (.forced .stopped second clamped)) ∧
            t = { s with channels := t.channels, freeCount := t.freeCount, place := t.place } ∧
            (∀ d, d ≠ c → t.channel d = s.channel d) ∧
            s.mayOpenAt w ∧ s.startsAt t c b { s.channel c with forced := b } w)) ∧
  ∀ (s : State) (tag : Byte) (x : BitVec 6) (aux : BitVec 24) (v : Word) (c : Fin 24), s.takesNow .B = true →
    x.toNat = c.1 → valueGood .pulse v.toInt = true → (s.channel c).source = .forced → kindOf c = .pulse →
    (s.channel c).mode = .wheel →
      exec (.force .B tag x aux v) s =
        .next ((s.updChannel c fun ch => { ch with forced := ⟨v.toInt, aux.toNat⟩ }).answerOk .B .force tag
          (.forced (.level (s.channel c).lastOutput) (.level (s.channel c).lastOutput) false))

/-- PERIOD_START and PULSE_HIGH_END, at a grid point where they are due: a period opens with the effective pair of the
buffered or the base pair, or the channel stops where that pair's period is 0; at the end of the high time the output
goes to the inactive level (R32, R33). A start that fell off the grid opens at its grid point with the base pair (R32),
its field `wait` the model's own (assumption 23). The level that the event leaves is the last output of its grid point,
also where something else of the instant has moved the pin, which is the model's choice (assumption 28). With nothing due and the half-tick instant still to come, either
command is the command at that instant where the instant brings the event, and does nothing where it does not (R32).
That a stopped channel shows no clamp is the model's choice (assumption 15). -/
def Obligations.FreePeriodEvents : Prop :=
  (∀ (s : State) (c : Fin 24) (i : Instr) (e : Event), s.due = [] →
    (i = .periodStart c ∧ e = .periodStart c ∨ i = .pulseHighEnd c ∧ e = .highEnd c) →
      (s.halfDone = true → exec i s = .next s) ∧
      (s.halfDone = false → ∃ h, s.halfTicked h ∧
        (e ∈ h.due → exec i s = exec i h) ∧ (e ∉ h.due → exec i s = .next s))) ∧
  (∀ (s : State) (c : Fin 24) (g : Generator), Event.periodStart c ∈ s.due → s.noPassAfter (.periodStart c) →
    (s.channel c).gen = some g → g.elapsed = g.period → kindOf c = .pulse → (s.channel c).mode = .free →
      ∃ t : State, exec (.periodStart c) s = .next t ∧
        t = { s with due := s.due.erase (.periodStart c), channels := t.channels } ∧
        (∀ d, d ≠ c → t.channel d = s.channel d) ∧
        (t.channel c).buffer = none ∧ (t.channel c).lastOutput = (t.channel c).pin ∧
        ∀ b : Value, b = ((s.channel c).buffer.getD
            (if (s.channel c).source = .forced then (s.channel c).forced else (s.channel c).live)) →
          (s.channel c).source ≠ .replay →
          (b.value = 0 → ∃ z : Channel,
            z = shownThrough c (s.effectiveRecord c)
              { s.channel c with gen := none, buffer := none, wait := 0, clamped := false } ∧
            t.channel c = { z with lastOutput := z.pin }) ∧
          (b.value ≠ 0 → s.periodOpens c b (s.channel c) (t.channel c))) ∧
  (∀ (s : State) (c : Fin 24), Event.periodStart c ∈ s.due → s.noPassAfter (.periodStart c) →
    s.run.mode = .run → (s.channel c).gen = none → (s.channel c).wait = 0 → kindOf c = .pulse → (s.channel c).mode = .free →
    (s.channel c).source ≠ .replay →
      ∃ t : State, exec (.periodStart c) s = .next t ∧
        t = { s with due := s.due.erase (.periodStart c), channels := t.channels } ∧
        (∀ d, d ≠ c → t.channel d = s.channel d) ∧
        ∀ b : Value, b = (if (s.channel c).source = .forced then (s.channel c).forced else (s.channel c).live) →
          (b.value = 0 → t.channel c = s.channel c) ∧
          (b.value ≠ 0 → s.periodOpens c b (s.channel c) (t.channel c))) ∧
  ∀ (s : State) (c : Fin 24) (g : Generator), Event.highEnd c ∈ s.due → s.noPassAfter (.highEnd c) →
    (s.channel c).gen = some g → g.active = true → g.elapsed = g.high → g.high < g.period →
    kindOf c = .pulse → (s.channel c).mode = .free →
      ∃ z : Channel,
        z = shownThrough c (s.effectiveRecord c) { s.channel c with gen := some { g with active := false } } ∧
        exec (.pulseHighEnd c) s =
          .next ({ s with due := s.due.erase (.highEnd c) }.updChannel c fun _ => { z with lastOutput := z.pin })

/-- DRIVER_TRIP: a driver that has been in current limit for 1000 ticks while it drives its pin becomes TRIPPED and
OVERCURRENT is set on both ports (R41); the measurement counts unbroken ticks and is discarded otherwise. An event
that is not due changes nothing, which is the model's choice (assumption 7). -/
def Obligations.DriverTrips : Prop :=
  (∀ (s : State) (c : Fin 24), Event.driverTrip c ∈ s.due → s.noPassAfter (.driverTrip c) →
    (s.channel c).driver = .driving → (s.relaySet c).inService = true →
    (s.channel c).limitTicks = some 1000 →
      exec (.driverTrip c) s =
        .next (({ s with due := s.due.erase (.driverTrip c) }.updChannel c fun ch =>
          { ch with driver := .tripped, limitTicks := none }).raiseBoth .overcurrent)) ∧
  (∀ (s : State) (c : Fin 24), Event.driverTrip c ∉ s.due → exec (.driverTrip c) s = .next s) ∧
  ∀ (s : State) (c : Fin 24), s.sampleLimits.channel c =
    { s.channel c with limitTicks :=
        if (s.channel c).driver = .driving ∧ (s.relaySet c).inService = true ∧ s.pins.limit.get c = true then
          (match (s.channel c).limitTicks with | none => some 0 | some n => some (n + 1))
        else none } ∧
    (Event.driverTrip c ∈ s.sampleLimits.due ↔
      Event.driverTrip c ∈ s.due ∨ (s.sampleLimits.channel c).limitTicks = some 1000)

/-! ## Relay Matrix (chapter 3) -/

/-- SET_RELAY_TIMING (R50): refused outside 1..4 and 5..50, otherwise both settings are written and no movement in
flight is touched; a movement commanded later records the settings then in force; the settings after either reset. -/
def Obligations.RelayTimingIsSet : Prop :=
  (∀ (s : State) (tag x y : Byte), s.takesNow .B = true →
    (x.toNat < 1 ∨ 4 < x.toNat ∨ y.toNat < 5 ∨ 50 < y.toNat →
      exec (.setRelayTiming .B tag x y) s = .next (s.answerNo .B .setRelayTiming tag .badValue)) ∧
    (1 ≤ x.toNat → x.toNat ≤ 4 → 5 ≤ y.toNat → y.toNat ≤ 50 →
      exec (.setRelayTiming .B tag x y) s =
        .next (({ s with timing := ⟨x.toNat, y.toNat⟩ }).answerOk .B .setRelayTiming tag
          (.timing ⟨x.toNat, y.toNat⟩)))) ∧
  (∀ s : State, s.powerOn.timing = ⟨3, 20⟩ ∧ s.rigReset.timing = ⟨3, 20⟩) ∧
  ∀ (t : RelayTiming) (pos : Position) (x : Relay), x.state.moving = false →
    (x.state = pos.rest → x.failed = false → x.want t pos = x) ∧
    (x.state ≠ pos.rest ∨ x.failed = true →
      x.want t pos = { state := pos.moving, failed := false, movement := some ⟨0, t.settle, t.timeout⟩ })

/-- MOVEMENT_COMPLETE and MOVEMENT_FAIL: the relay comes to the commanded position, its failed mark no or yes (R48,
R49), and whatever commanded it goes on. In a normalisation, of an out-of-service channel that recovers or of one that a
FAILED record holds: a step with another movement in flight waits for it; the breaking step is followed by the joining
one or, with PATH confirmed closed, by service; the joining one ends in service; a failed one leaves the channel
OUT_OF_SERVICE with RELAY_FAULT on both ports; and with the last of its channels the record that holds it lets go of all
it holds (R53, R57, R58, R60). In a record's sequence: a step that ends with a failed movement makes it FAILED, in a
start or a stop, and begins the normalisation of every channel it holds (R55, R102); the first step of SHORT_GND,
SHORT_BAT and PIN_SHORT starts and stops is followed by the second (R54); one relay of a PIN_SHORT step waits for the
other; where the last movement of a start completes, the record becomes ACTIVE with its start stamp, its notice and its
START event, or goes on to its stop where a release is pending (R54, R94, R99); where the last movement of a stop
completes, the holders are released and the activation ends, in DONE or re-armed for a repeat, its END event firing the
electronic records that listen for it (R83, R89, R101, R103); their chain comes before the re-arming, which is the model's
choice (assumption 41). A release of holders has the wait list examined, which `passLeaves` says, once no event of the
instant is left (R96 to R98, assumption 16); the mark `fresh` is the model's own (assumption 21). -/
def Obligations.MovementsEnd : Prop :=
  (∀ (x : Relay) (made : Bool) (n settle timeout : Nat), x.movement = some ⟨n, settle, timeout⟩ →
    x.state.moving = true →
      (x.completes made = true ↔ 1000 * settle ≤ n ∧ (made = true ↔ x.state = .movingClosed)) ∧
      (x.fails made = true ↔ 1000 * timeout ≤ n ∧ x.completes made = false)) ∧
  (∀ (s : State) (c : Fin 24) (r : RelayName) (failed : Bool) (cmd : Instr) (e : Event) (y : Relay),
    y = (s.relaySet c).relays.get r →
    (failed = false ∧ cmd = .movementComplete c r ∧ e = .moveComplete c r ∧
        y.completes ((s.pins.sense.get c).get r) = true ∨
      failed = true ∧ cmd = .movementFail c r ∧ e = .moveFail c r ∧
        y.fails ((s.pins.sense.get c).get r) = true) →
    e ∈ s.due →
    ∃ u : State, u = { s with due := s.due.erase e }.updRelaySet c (fun x =>
        { x with relays := x.relays.upd r fun y =>
          { state := y.state.position.rest, failed := failed, movement := none } }) ∧
      (∀ bad : Bool,
        ((s.relaySet c).normalising = some .breaking ∧ r ≠ .path ∧
            (∀ r', r' ≠ .path → r' ≠ r → ((s.relaySet c).relays.get r').state.moving = false) ∧
            (bad = true ∧ (failed = true ∨ ∃ r', r' ≠ .path ∧ r' ≠ r ∧ ((s.relaySet c).relays.get r').failed = true) ∨
              bad = false ∧ failed = false ∧ (∀ r', r' ≠ .path → ((s.relaySet c).relays.get r').failed = false) ∧
                (s.relaySet c).relays.path = { state := .closed }) ∨
          (s.relaySet c).normalising = some .joining ∧ r = .path ∧ bad = failed) →
        ∃ w t : State, w = (if bad then
            ((u.updRelaySet c fun x => { x with normalising := none, inService := false }).updChannel c fun ch =>
              { ch with limitTicks := none }).raiseBoth .relayFault
          else u.updRelaySet c fun x => { x with normalising := none, inService := true }) ∧
          exec cmd s = .next t ∧ w.normLeaves t c) ∧
      ((s.relaySet c).normalising = some .breaking → r ≠ .path → s.noPassAfter e →
        ((∃ r', r' ≠ .path ∧ r' ≠ r ∧ ((s.relaySet c).relays.get r').state.moving = true) →
          exec cmd s = .next u) ∧
        (failed = false → (∀ r', r' ≠ .path → r' ≠ r → ((s.relaySet c).relays.get r').state.moving = false) →
          (∀ r', r' ≠ .path → ((s.relaySet c).relays.get r').failed = false) →
          (s.relaySet c).relays.path.state.moving = false →
          (s.relaySet c).relays.path.state = .opened ∨ (s.relaySet c).relays.path.failed = true →
            exec cmd s = .next (u.updRelaySet c fun x =>
              { x with
                normalising := some .joining
                relays := { x.relays with
                  path := { state := .movingClosed, failed := false,
                            movement := some ⟨0, s.timing.settle, s.timing.timeout⟩ } } })))) ∧
  (∀ (s : State) (c : Fin 24) (k : Fin 64), s.noPassAfter (.moveComplete c .path) →
    (s.relaySet c).normalising = none → (s.relaySet c).holder = some k → (s.fault k).target = c →
    (s.fault k).seq = some ⟨false, 0⟩ → Event.moveComplete c .path ∈ s.due →
    ((s.relaySet c).relays.path).completes ((s.pins.sense.get c).path) = true →
    (s.relaySet c).relays.path.state = .movingOpen →
    ((s.fault k).kind = .shortGnd → (s.relaySet c).relays.gnd.state = .opened →
      exec (.movementComplete c .path) s =
        .next (({ s with due := s.due.erase (.moveComplete c .path) }.updRelaySet c fun x =>
            { x with relays := { x.relays with
                path := { state := .opened, failed := false, movement := none }
                gnd := { state := .movingClosed, failed := false,
                         movement := some ⟨0, s.timing.settle, s.timing.timeout⟩ } } }).updFault k fun f =>
          { f with seq := some ⟨false, 1⟩ })) ∧
    ((s.fault k).kind = .shortBat → (s.relaySet c).relays.bat.state = .opened →
      exec (.movementComplete c .path) s =
        .next (({ s with due := s.due.erase (.moveComplete c .path) }.updRelaySet c fun x =>
            { x with relays := { x.relays with
                path := { state := .opened, failed := false, movement := none }
                bat := { state := .movingClosed, failed := false,
                         movement := some ⟨0, s.timing.settle, s.timing.timeout⟩ } } }).updFault k fun f =>
          { f with seq := some ⟨false, 1⟩ }))) ∧
  (∀ (s : State) (c p : Fin 24) (k : Fin 64) (b : Bus), c ≠ p →
    (s.fault k).kind = .pinShort → (s.fault k).target = c → (s.fault k).partner = some p →
    (s.fault k).bus = some b → (s.relaySet c).normalising = none → (s.relaySet p).normalising = none →
    (s.relaySet c).holder = some k → (s.relaySet p).holder = some k →
      ((s.fault k).seq = some ⟨false, 0⟩ → Event.moveComplete p .path ∈ s.due → s.noPassAfter (.moveComplete p .path) →
        ((s.relaySet p).relays.path).completes ((s.pins.sense.get p).path) = true →
        (s.relaySet p).relays.path.state = .movingOpen →
        (s.relaySet c).relays.get b.relay = { state := .opened } →
        (s.relaySet p).relays.get b.relay = { state := .opened } →
          exec (.movementComplete p .path) s =
            .next ((({ s with due := s.due.erase (.moveComplete p .path) }.updRelaySet p fun x =>
                { x with relays := ({ x.relays with path := { state := .opened } } : PerRelay Relay).upd b.relay fun _ =>
                  { state := .movingClosed, movement := some ⟨0, s.timing.settle, s.timing.timeout⟩ } }).updRelaySet
                c fun x => { x with relays := x.relays.upd b.relay fun _ =>
                  { state := .movingClosed, movement := some ⟨0, s.timing.settle, s.timing.timeout⟩ } }).updFault k
              fun f => { f with seq := some ⟨false, 1⟩ })) ∧
      ((s.fault k).seq = some ⟨false, 1⟩ ∨ (s.fault k).seq = some ⟨true, 0⟩ →
        Event.moveComplete c b.relay ∈ s.due → s.noPassAfter (.moveComplete c b.relay) →
        ((s.relaySet c).relays.get b.relay).completes ((s.pins.sense.get c).get b.relay) = true →
        ((s.relaySet p).relays.get b.relay).state.moving = true →
          exec (.movementComplete c b.relay) s =
            .next ({ s with due := s.due.erase (.moveComplete c b.relay) }.updRelaySet c fun x =>
              { x with relays := x.relays.upd b.relay fun y => { state := y.state.position.rest } }))) ∧
  (∀ (s : State) (c : Fin 24) (k : Fin 64) (n : RelayName), s.noPassAfter (.moveComplete c n) →
    (s.relaySet c).normalising = none → (s.relaySet c).holder = some k → (s.fault k).target = c →
    ((s.fault k).kind = .shortGnd ∧ n = .gnd ∨ (s.fault k).kind = .shortBat ∧ n = .bat) →
    (s.fault k).seq = some ⟨true, 0⟩ → Event.moveComplete c n ∈ s.due →
    ((s.relaySet c).relays.get n).completes ((s.pins.sense.get c).get n) = true →
    ((s.relaySet c).relays.get n).state = .movingOpen → (s.relaySet c).relays.path.state = .opened →
      exec (.movementComplete c n) s =
        .next (({ s with due := s.due.erase (.moveComplete c n) }.updRelaySet c fun x =>
            { x with relays := { x.relays.upd n fun _ => { state := .opened } with
                path := { state := .movingClosed, movement := some ⟨0, s.timing.settle, s.timing.timeout⟩ } } }).updFault
          k fun f => { f with seq := some ⟨true, 1⟩ })) ∧
  (∀ (s : State) (c : Fin 24) (k : Fin 64) (i : Nat), (s.relaySet c).normalising = none →
    (s.relaySet c).holder = some k → (s.fault k).state = .stopping → (s.fault k).seq = some ⟨true, i⟩ →
    ((s.fault k).target = c ∧ ((s.fault k).kind = .openWire ∧ i = 0 ∨
        ((s.fault k).kind = .shortGnd ∨ (s.fault k).kind = .shortBat) ∧ i = 1) ∨
      (s.fault k).kind = .pinShort ∧ (s.fault k).partner = some c ∧ (s.fault k).bus ≠ none ∧ i = 1) →
    Event.moveComplete c .path ∈ s.due → (s.relaySet c).relays.path.state = .movingClosed →
    ((s.relaySet c).relays.path).completes ((s.pins.sense.get c).path) = true →
    s.listeners k .stop = [] ∨ s.listenersElectronic →
    ∃ u v r t : State,
      u = { s with due := s.due.erase (.moveComplete c .path) }.updRelaySet c (fun x =>
        { x with relays := { x.relays with path := { state := .closed } } }) ∧
      v = { u with faults := v.faults, channels := v.channels, portM := v.portM, portB := v.portB } ∧
      exec (.movementComplete c .path) s = .next t ∧ v.letsGo k r ∧ r.passLeaves t ∧
      v.fault k = s.endedNow k ∧ s.chainFires v k .stop ∧
      (s.listeners k .stop = [] → v = (u.updFault k fun _ => s.endedNow k).raiseSet
        (if (s.endedNow k).state = .done then (s.fault k).notify else ⟨false, false⟩) .faultEvent)) ∧
  (∀ (s : State) (c : Fin 24) (k : Fin 64) (n : RelayName) (pos back : Position) (i : Nat),
    s.noPassAfter (.moveComplete c n) →
    (s.relaySet c).normalising = none → (s.relaySet c).holder = some k → (s.fault k).target = c →
    (s.fault k).state = .starting → (s.fault k).seq = some ⟨false, i⟩ →
    ((s.fault k).kind = .openWire ∧ n = .path ∧ pos = .opened ∧ back = .closed ∧ i = 0 ∨
      (s.fault k).kind = .shortGnd ∧ n = .gnd ∧ pos = .closed ∧ back = .opened ∧ i = 1 ∨
      (s.fault k).kind = .shortBat ∧ n = .bat ∧ pos = .closed ∧ back = .opened ∧ i = 1) →
    Event.moveComplete c n ∈ s.due →
    ((s.relaySet c).relays.get n).completes ((s.pins.sense.get c).get n) = true →
    ((s.relaySet c).relays.get n).state = pos.moving →
    ∃ v : State, v = (({ s with due := s.due.erase (.moveComplete c n) }.updRelaySet c fun x =>
        { x with relays := x.relays.upd n fun _ => { state := pos.rest } }).updFault k fun f =>
          { f with
            state := .active
            startStamp := some ⟨s.rigTime, angleCount s.angle.phase, s.angle.cycle⟩
            durProgress := 0
            frozen := none
            fresh := true
            seq := none }).raiseSet (s.fault k).notify .faultEvent ∧
      (s.listeners k .start = [] →
        ((s.fault k).releasePending = false → exec (.movementComplete c n) s = .next v) ∧
        ((s.fault k).releasePending = true →
          exec (.movementComplete c n) s = .next ((v.updRelaySet c fun x =>
              { x with relays := x.relays.upd n fun _ =>
                { state := back.moving, movement := some ⟨0, s.timing.settle, s.timing.timeout⟩ } }).updFault k fun f =>
            { f with state := .stopping, seq := some ⟨true, 0⟩ }))) ∧
      (s.run.mode = .run → (s.fault k).releasePending = false →
        (∀ j x e, (s.fault j).state = .armed → (s.fault j).trigger = .onFault x e →
          (s.fault j).kind.electronic = true) →
        ∃ t : State, exec (.movementComplete c n) s = .next t ∧ t.fault k = v.fault k ∧ t.relays = v.relays ∧
          ∀ j, (s.fault j).state = .armed → (s.fault j).trigger = .onFault k .start →
            t.fault j = { s.fault j with
              state := .active
              startStamp := some ⟨s.rigTime, angleCount s.angle.phase, s.angle.cycle⟩
              durProgress := 0
              frozen := if (s.fault j).kind = FaultKind.freeze then
                some (s.channel (s.fault j).target).lastOutput else none
              fresh := true })) ∧
  (∀ (s : State) (c p d d' : Fin 24) (k : Fin 64) (b : Bus), s.noPassAfter (.moveComplete d b.relay) → c ≠ p →
    (d = c ∧ d' = p ∨ d = p ∧ d' = c) → (s.fault k).kind = .pinShort → (s.fault k).target = c →
    (s.fault k).partner = some p → (s.fault k).bus = some b → (s.relaySet d).normalising = none →
    (s.relaySet d).holder = some k → (s.fault k).seq = some ⟨true, 0⟩ → Event.moveComplete d b.relay ∈ s.due →
    ((s.relaySet d).relays.get b.relay).completes ((s.pins.sense.get d).get b.relay) = true →
    ((s.relaySet d).relays.get b.relay).state = .movingOpen →
    (s.relaySet d').relays.get b.relay = { state := .opened } → (s.relaySet p).relays.path.state = .opened →
      exec (.movementComplete d b.relay) s =
        .next ((({ s with due := s.due.erase (.moveComplete d b.relay) }.updRelaySet d fun x =>
            { x with relays := x.relays.upd b.relay fun _ => { state := .opened } }).updRelaySet p fun x =>
          { x with relays := { x.relays with
              path := { state := .movingClosed, movement := some ⟨0, s.timing.settle, s.timing.timeout⟩ } } }).updFault
          k fun f => { f with seq := some ⟨true, 1⟩ })) ∧
  (∀ (s : State) (c p d d' : Fin 24) (k : Fin 64) (b : Bus), s.noPassAfter (.moveComplete d b.relay) → c ≠ p →
    (d = c ∧ d' = p ∨ d = p ∧ d' = c) → (s.fault k).kind = .pinShort → (s.fault k).target = c →
    (s.fault k).partner = some p → (s.fault k).bus = some b → (s.relaySet d).normalising = none →
    (s.relaySet d).holder = some k → (s.fault k).state = .starting → (s.fault k).seq = some ⟨false, 1⟩ →
    Event.moveComplete d b.relay ∈ s.due →
    ((s.relaySet d).relays.get b.relay).completes ((s.pins.sense.get d).get b.relay) = true →
    ((s.relaySet d).relays.get b.relay).state = .movingClosed →
    (s.relaySet d').relays.get b.relay = { state := .closed } → s.listeners k .start = [] →
    ∃ v : State, v = (({ s with due := s.due.erase (.moveComplete d b.relay) }.updRelaySet d fun x =>
        { x with relays := x.relays.upd b.relay fun _ => { state := .closed } }).updFault k fun f =>
          { f with
            state := .active
            startStamp := some ⟨s.rigTime, angleCount s.angle.phase, s.angle.cycle⟩
            durProgress := 0
            frozen := none
            fresh := true
            seq := none }).raiseSet (s.fault k).notify .faultEvent ∧
      ((s.fault k).releasePending = false → exec (.movementComplete d b.relay) s = .next v) ∧
      ((s.fault k).releasePending = true →
        exec (.movementComplete d b.relay) s = .next (((v.updRelaySet c fun x =>
            { x with relays := x.relays.upd b.relay fun _ =>
              { state := .movingOpen, movement := some ⟨0, s.timing.settle, s.timing.timeout⟩ } }).updRelaySet p fun x =>
            { x with relays := x.relays.upd b.relay fun _ =>
              { state := .movingOpen, movement := some ⟨0, s.timing.settle, s.timing.timeout⟩ } }).updFault k fun f =>
          { f with state := .stopping, seq := some ⟨true, 0⟩ }))) ∧
  (∀ (s : State) (c : Fin 24) (n : RelayName) (k : Fin 64) (q : Sequence) (i : Instr) (e : Event) (bad : Bool),
    s.noPassAfter e → (s.relaySet c).normalising = none → (s.relaySet c).holder = some k →
    (s.fault k).seq = some q → inStep (s.fault k) q c n →
    (bad = false ∧ i = .movementComplete c n ∧ e = .moveComplete c n ∧
        ((s.relaySet c).relays.get n).completes ((s.pins.sense.get c).get n) = true ∨
      bad = true ∧ i = .movementFail c n ∧ e = .moveFail c n ∧
        ((s.relaySet c).relays.get n).fails ((s.pins.sense.get c).get n) = true) → e ∈ s.due →
    ∃ u : State, u = { s with due := s.due.erase e }.updRelaySet c (fun x => { x with
        relays := x.relays.upd n fun y => { state := y.state.position.rest, failed := bad } }) ∧
      ((∃ d m, inStep (s.fault k) q d m ∧ ((u.relaySet d).relays.get m).state.moving = true) →
        exec i s = .next u) ∧
      ((∀ d m, inStep (s.fault k) q d m →
          (s.relaySet d).holder = some k ∧ ((u.relaySet d).relays.get m).state.moving = false) →
        (∃ d m, inStep (s.fault k) q d m ∧ ((u.relaySet d).relays.get m).failed = true) →
        ∃ t : State, exec i s = .next t ∧
          t = { (u.updFault k fun r =>
              { r with state := .failed, failReason := some .relayTimeout, seq := none }).raiseSet
                (s.fault k).notify .faultEvent with relays := t.relays } ∧
          ∀ d, ((s.relaySet d).holder = some k → normalisationBegins s.timing (u.relaySet d) (t.relaySet d)) ∧
            ((s.relaySet d).holder ≠ some k → t.relaySet d = u.relaySet d))) ∧
  ∀ (s : State) (c : Fin 24) (k : Fin 64), s.noPassAfter (.moveFail c .path) → (s.relaySet c).normalising = none →
    (s.relaySet c).holder = some k → (∀ d, d ≠ c → (s.relaySet d).holder ≠ some k) →
    (s.fault k).kind = .openWire → (s.fault k).target = c → (s.fault k).seq = some ⟨false, 0⟩ →
    Event.moveFail c .path ∈ s.due →
    ((s.relaySet c).relays.path).fails ((s.pins.sense.get c).path) = true →
    (s.relaySet c).relays.path.state = .movingOpen →
    (∀ r, r ≠ .path → (s.relaySet c).relays.get r = { state := .opened }) →
      exec (.movementFail c .path) s =
        .next ((({ s with due := s.due.erase (.moveFail c .path) }.updRelaySet c fun x =>
            { x with
              normalising := some .joining
              relays := { x.relays with
                path := { state := .movingClosed, failed := false,
                          movement := some ⟨0, s.timing.settle, s.timing.timeout⟩ } } }).updFault k fun f =>
          { f with state := .failed, failReason := some .relayTimeout, seq := none }).raiseSet
            (s.fault k).notify .faultEvent)

/-- The filters of the battery bus and of the SAFE line (R62, R169), and their events: BATTERY_FLAG_CHANGE changes the
flag alone; SAFE_LINE_CHANGE changes the state, and a change to ASSERTED in RUN enters SAFE with its cause (R170,
R174). That voltages are whole millivolts, which the battery clause compares, is the model's choice (assumption 20), and
so is that the count of 4 is kept with the old level until the event (assumption 31). -/
def Obligations.SampledLinesChange : Prop :=
  (∀ (f : LineFilter) (l : Bool), f.sample l =
    if l = f.level then { f with count := 0 } else { f with count := f.count + 1 }) ∧
  (∀ s : State, s.sampleBattery.battery = s.battery.sample (decide (6400 < s.pins.batteryMv)) ∧
    s.sampleSafeLine.run.safe = s.run.safe.sample s.pins.safeLine ∧
    ((s.battery.sample (decide (6400 < s.pins.batteryMv))).count = 4 →
      Event.battery ∈ s.sampleBattery.due) ∧
    ((s.run.safe.sample s.pins.safeLine).count = 4 → Event.safeLine ∈ s.sampleSafeLine.due)) ∧
  (∀ s : State, Event.battery ∈ s.due → s.noPassAfter .battery → s.battery.count = 4 →
    exec .batteryFlagChange s =
      .next { s with due := s.due.erase .battery, battery := ⟨!s.battery.level, 0⟩ }) ∧
  (∀ s : State, Event.safeLine ∈ s.due → s.noPassAfter .safeLine → s.run.safe.count = 4 →
    (s.run.mode ≠ .run ∨ s.run.safe.level = true) →
      exec .safeLineChange s =
        .next { s with due := s.due.erase .safeLine,
                       run := { s.run with safe := ⟨!s.run.safe.level, 0⟩ } }) ∧
  ∀ s : State, Event.safeLine ∈ s.due → s.run.safe.count = 4 → s.run.mode = .run → s.run.safe.level = false →
    ∃ t : State, exec .safeLineChange s = .next t ∧
      t.run = { s.run with
                mode := .safe, safe := ⟨true, 0⟩, cause := some ⟨.safeLine, s.rigTime⟩,
                monitor := { s.run.monitor with timer := none } } ∧
      t.portM.sticky.getLsbD 7 = true ∧ t.portB.sticky.getLsbD 7 = true ∧
      t.angle = { s.angle with target := 0 } ∧ t.memory = s.memory ∧ t.inputs = s.inputs

/-! ## Fault Table (chapters 4 and 5) -/

/-- ARM_FAULT: its refusals in the order of R73 with what makes a definition bad, and the record a taken request leaves
(R74). -/
def Obligations.ArmFaultDefines : Prop :=
  (∀ (s : State) (tag x : Byte) (g : FaultArgs), s.takesNow .B = true →
    (64 ≤ x.toNat → exec (.armFault .B tag x g) s = .next (s.answerNo .B .armFault tag .badValue)) ∧
    ∀ k : Fin 64, x.toNat = k.1 →
      ((s.fault k).state.inUse = true ∨
          ((s.fault k).state = .failed ∧ ∃ c, (s.relaySet c).holder = some k) →
        exec (.armFault .B tag x g) s = .next (s.answerNo .B .armFault tag .busy)) ∧
      ((s.fault k).state.inUse = false →
          ((s.fault k).state = .failed → ∀ c, (s.relaySet c).holder ≠ some k) →
        (judgeFault s k g = none →
          exec (.armFault .B tag x g) s = .next (s.answerNo .B .armFault tag .badValue)) ∧
        ∀ r, judgeFault s k g = some r →
          exec (.armFault .B tag x g) s =
            .next ((s.updFault k fun _ => r).answerOk .B .armFault tag (.fault r)))) ∧
  (∀ (s : State) (k : Fin 64) (g : FaultArgs), judgeFault s k g = none ↔
    (∀ (c : Fin 24) (kind : FaultKind), g.target.toNat = c.1 → faultKindOf g.kind = some kind →
      judgeParam kind (kindOf c) (s.channel c).mode (s.channel c).pattern g.param = none ∨
      (kind = .pinShort ∧ (24 ≤ g.partner.toNat ∨ g.partner.toNat = c.1)) ∨ g.level = 0 ∨
      255 < g.repeats.toNat ∨ judgeTrigger k g.trigger = none ∨ judgeDuration g.duration = none ∨
      ∃ t, g.trigger = .atTime t ∧ 0 < g.repeats.toNat ∧ g.period = 0)) ∧
  ∀ (s : State) (k : Fin 64) (g : FaultArgs) (r : FaultRecord), judgeFault s k g = some r →
    r.state = .armed ∧ r.target.1 = g.target.toNat ∧ faultKindOf g.kind = some r.kind ∧
    judgeParam r.kind (kindOf r.target) (s.channel r.target).mode (s.channel r.target).pattern g.param =
      some r.param ∧
    r.level = g.level.toNat ∧ judgeTrigger k g.trigger = some r.trigger ∧
    judgeDuration g.duration = some r.duration ∧ r.repeats = g.repeats.toNat ∧
    r.repeatPeriod = g.period.toNat ∧ r.notify = ⟨g.notify.getLsbD 0, g.notify.getLsbD 1⟩ ∧
    (r.kind ≠ .pinShort → r.partner = none) ∧
    (r.kind = .pinShort → ∃ p, r.partner = some p ∧ p.1 = g.partner.toNat) ∧
    r.bus = none ∧ r.seq = none ∧ r.frozen = none ∧ r.releasePending = false ∧ r.activations = 0 ∧
    r.startStamp = none ∧ r.endStamp = none ∧ r.failReason = none ∧ r.trigProgress = 0 ∧ r.durProgress = 0

/-- The parameter ranges of R69, the triggers and durations that R73 refuses, and what the good ones leave; the codes of
fault kinds, trigger kinds, duration kinds, edges and fault events (R205). -/
def Obligations.FaultDefinitionRanges : Prop :=
  (∀ (m : PulseMode) (q : Pattern) (w : Word) (k : ChannelKind) (a : FaultKind),
    (a = .openWire ∨ a = .shortGnd ∨ a = .shortBat ∨ a = .pinShort ∨ a = .freeze →
      judgeParam a k m q w = some (.int 0)) ∧
    (a = .stuckAt → (judgeParam a k m q w = some (.int w.toInt) ↔
      0 ≤ w.toInt ∧ w.toInt ≤ (if k = .analog then 4000 else 1))) ∧
    (a = .offset → (judgeParam a k m q w = some (.int w.toInt) ↔
      (k = .analog ∨ (k = .pulse ∧ m = .free)) ∧ -65536 ≤ w.toInt ∧ w.toInt ≤ 65535 ∨
      k = .pulse ∧ m = .wheel ∧ -5760 ≤ w.toInt ∧ w.toInt ≤ 5759)) ∧
    (a = .gain → (judgeParam a k m q w = some (.int w.toInt) ↔
      (k = .analog ∨ (k = .pulse ∧ m = .free)) ∧ 0 ≤ w.toInt ∧ w.toInt ≤ 65535)) ∧
    (a = .noise → (judgeParam a k m q w = some (.int w.toInt) ↔
      (k = .analog ∨ (k = .pulse ∧ m = .free)) ∧ 0 ≤ w.toInt ∧ w.toInt ≤ 4000)) ∧
    (a = .missTooth → (judgeParam a k m q w = some (.int w.toInt) ↔
      k = .pulse ∧ m = .wheel ∧ 0 ≤ w.toInt ∧ w.toInt ≤ (if q = .crank then 119 else 15))) ∧
    (a = .stuckAt ∨ a = .offset ∨ a = .gain ∨ a = .noise ∨ a = .missTooth →
      judgeParam a k m q w = none ∨ judgeParam a k m q w = some (.int w.toInt)) ∧
    (a = .extraTooth → judgeParam a k m q w =
      if k = .pulse ∧ m = .wheel ∧ (field w 16 16).toNat < (if q = .crank then 5760 else 11520) ∧
          1 ≤ (field w 0 16).toNat ∧ (field w 0 16).toNat ≤ 720 then
        some (.extra (field w 16 16).toNat (field w 0 16).toNat) else none)) ∧
  (∀ (self : Fin 64) (t : RigTime) (any : Bool) (c a : Half) (i e n : Byte) (u : BitVec 4),
    judgeTrigger self (.atTime t) = some (.atTime t) ∧
    judgeTrigger self (.atAngle any c a) =
      (if a.toNat ≤ 11519 then some (.atAngle (if any then none else some c) a.toNat) else none) ∧
    (judgeTrigger self (.onCapture i e n) = none ↔ 16 ≤ i.toNat ∨ 3 ≤ e.toNat ∨ n = 0) ∧
    (judgeTrigger self (.onFault i e) = none ↔ 64 ≤ i.toNat ∨ 2 ≤ e.toNat ∨ i.toNat = self.1) ∧
    judgeTrigger self (.unknown u) = none) ∧
  (∀ code : BitVec 4, faultKindOf code = ([.openWire, .shortGnd, .shortBat, .pinShort, .stuckAt, .freeze, .offset, .gain,
    .noise, .missTooth, .extraTooth] : List FaultKind)[code.toNat]?) ∧
  (∀ (i e n : Byte) (j : Fin 16) (x : EdgeSel), i.toNat = j.1 → n ≠ 0 →
    e.toNat = (match x with | .rise => 0 | .fall => 1 | .both => 2) →
      (∀ self, judgeTrigger self (.onCapture i e n) = some (.onCapture j x n.toNat)) ∧
      judgeDuration (.capture i e n) = some (.capture j x n.toNat)) ∧
  (∀ (self j : Fin 64) (i e : Byte) (x : FaultEvent), i.toNat = j.1 → j ≠ self →
    e.toNat = (match x with | .start => 0 | .stop => 1) →
      judgeTrigger self (.onFault i e) = some (.onFault j x)) ∧
  (∀ a b : Word,
    (field a 28 4 = 0 → rawTrigger a b = .atTime (field a 0 16 ++ b) ∧ rawDuration a b = .untilRelease) ∧
    (field a 28 4 = 1 → rawTrigger a b = .atAngle (a.getLsbD 16) (field a 0 16) (field b 0 16) ∧
      rawDuration a b = .time b) ∧
    (field a 28 4 = 2 → rawTrigger a b = .onCapture (field a 16 8) (field a 8 8) (field a 0 8) ∧
      rawDuration a b = .angle b) ∧
    (field a 28 4 = 3 → rawTrigger a b = .onFault (field a 16 8) (field a 8 8) ∧ rawDuration a b = .cycles b) ∧
    (field a 28 4 = 4 → rawDuration a b = .capture (field a 16 8) (field a 8 8) (field a 0 8)) ∧
    (4 ≤ (field a 28 4).toNat → rawTrigger a b = .unknown (field a 28 4)) ∧
    (5 ≤ (field a 28 4).toNat → rawDuration a b = .unknown (field a 28 4))) ∧
  ∀ (v : Word) (i e n : Byte) (u : BitVec 4),
    judgeDuration .untilRelease = some .untilRelease ∧
    judgeDuration (.time v) = (if v = 0 then none else some (.time v.toNat)) ∧
    judgeDuration (.angle v) =
      (if 1 ≤ v.toNat ∧ v.toNat ≤ 16777215 then some (.angle v.toNat) else none) ∧
    judgeDuration (.cycles v) =
      (if 1 ≤ v.toNat ∧ v.toNat ≤ 65535 then some (.cycles v.toNat) else none) ∧
    (judgeDuration (.capture i e n) = none ↔ 16 ≤ i.toNat ∨ 3 ≤ e.toNat ∨ n = 0) ∧
    judgeDuration (.unknown u) = none

/-- RELEASE_FAULT by the state of its record (R75), and CLEAR_FAULT (R76). A WAITING record leaves its place in the wait
list, the others keep their order, and the list is examined, once no other event of the instant is left (R95, R97,
assumption 16). The activation of an electronic record that is released ends at once, and its END event fires the
records that listen for it (R83, R84, R103), given where they are electronic; that the last output of a FREE target stays
as its pin moves is the model's choice (assumption 28). An ACTIVE relay record enters STOPPING with its release pending
and its stop sequence begins, with no end stamp and no count yet (R54, R100). -/
def Obligations.FaultsReleasedAndCleared : Prop :=
  (∀ (s : State) (tag x : Byte), s.takesNow .B = true → 64 ≤ x.toNat →
    exec (.releaseFault .B tag x) s = .next (s.answerNo .B .releaseFault tag .badValue) ∧
    exec (.clearFault .B tag x) s = .next (s.answerNo .B .clearFault tag .badValue)) ∧
  ∀ (s : State) (tag x : Byte) (k : Fin 64), s.takesNow .B = true → x.toNat = k.1 →
    ((s.fault k).state = .free ∨ (s.fault k).state = .done ∨ (s.fault k).state = .failed →
      exec (.releaseFault .B tag x) s = .next (s.answerNo .B .releaseFault tag .wrongState)) ∧
    ((s.fault k).state = .waiting → (s.waitList ++ s.joining).Nodup →
      ∃ r t : State, r = { (s.updFault k fun f => { f with state := .done, frozen := none, seq := none }).raiseSet
          (s.fault k).notify .faultEvent with
            waitList := s.waitList.erase k, joining := s.joining.erase k, examineDue := true } ∧
        exec (.releaseFault .B tag x) s =
          .next (t.answerOk .B .releaseFault tag (.release .done (s.fault k).releasePending)) ∧
        r.passLeaves t) ∧
    (s.examineDue = false ∨ s.due ≠ [] → (s.fault k).state = .armed →
      exec (.releaseFault .B tag x) s =
        .next (((s.updFault k fun r => { r with state := .done, frozen := none, seq := none }).raiseSet
          (s.fault k).notify .faultEvent).answerOk .B .releaseFault tag
            (.release .done (s.fault k).releasePending))) ∧
    (s.examineDue = false ∨ s.due ≠ [] → (s.fault k).state = .starting ∨ (s.fault k).state = .stopping →
      exec (.releaseFault .B tag x) s =
        .next ((s.updFault k fun r => { r with releasePending := true }).answerOk .B .releaseFault tag
          (.release (s.fault k).state true))) ∧
    (s.examineDue = false ∨ s.due ≠ [] → (s.fault k).state = .active → (s.fault k).kind.electronic = true →
      s.listeners k .stop = [] ∨ s.listenersElectronic →
      ∃ (y : FaultRecord) (t : State), y = { s.fault k with
          state := .done
          releasePending := true
          endStamp := some ⟨s.rigTime, angleCount s.angle.phase, s.angle.cycle⟩
          activations := (s.fault k).activations + 1
          frozen := none
          seq := none } ∧
        exec (.releaseFault .B tag x) s = .next (t.answerOk .B .releaseFault tag (.release .done true)) ∧
        t = { s with faults := t.faults, channels := t.channels, portM := t.portM, portB := t.portB } ∧
        t.fault k = y ∧ s.chainFires t k .stop ∧
        (s.listeners k .stop = [] →
          t = { (s.updFault k fun _ => y).raiseSet (s.fault k).notify .faultEvent with channels := t.channels } ∧
          s.showsAfter t (s.fault k).target)) ∧
    (∀ (n : RelayName) (pos : Position), s.examineDue = false ∨ s.due ≠ [] → (s.fault k).state = .active →
      ((s.fault k).kind = .openWire ∧ n = .path ∧ pos = .closed ∨
        (s.fault k).kind = .shortGnd ∧ n = .gnd ∧ pos = .opened ∨
        (s.fault k).kind = .shortBat ∧ n = .bat ∧ pos = .opened) →
      ((s.relaySet (s.fault k).target).relays.get n).state.moving = false →
      ((s.relaySet (s.fault k).target).relays.get n).state ≠ pos.rest →
        exec (.releaseFault .B tag x) s =
          .next (((s.updRelaySet (s.fault k).target fun y =>
              { y with relays := y.relays.upd n fun _ =>
                { state := pos.moving, failed := false,
                  movement := some ⟨0, s.timing.settle, s.timing.timeout⟩ } }).updFault k fun r =>
            { r with state := .stopping, releasePending := true, seq := some ⟨true, 0⟩ }).answerOk
              .B .releaseFault tag (.release .stopping true))) ∧
    (∀ (p : Fin 24) (b : Bus), s.examineDue = false ∨ s.due ≠ [] → (s.fault k).state = .active →
      (s.fault k).kind = .pinShort →
      (s.fault k).partner = some p → (s.fault k).bus = some b → p ≠ (s.fault k).target →
      (∀ c, c = p ∨ c = (s.fault k).target → (s.relaySet c).relays.get b.relay = { state := .closed }) →
        ∃ t : State, exec (.releaseFault .B tag x) s =
            .next (t.answerOk .B .releaseFault tag (.release .stopping true)) ∧
          t = { s.updFault k (fun r =>
            { r with state := .stopping, releasePending := true, seq := some ⟨true, 0⟩ }) with
              relays := t.relays } ∧
          ∀ c, t.relaySet c = if c = p ∨ c = (s.fault k).target then
              { s.relaySet c with relays := (s.relaySet c).relays.upd b.relay fun _ =>
                { state := .movingOpen, failed := false,
                  movement := some ⟨0, s.timing.settle, s.timing.timeout⟩ } }
            else s.relaySet c) ∧
    ((s.fault k).state.inUse = true ∨
        ((s.fault k).state = .failed ∧ ∃ c, (s.relaySet c).holder = some k) →
      exec (.clearFault .B tag x) s = .next (s.answerNo .B .clearFault tag .busy)) ∧
    ((s.fault k).state = .free →
      exec (.clearFault .B tag x) s = .next (s.answerOk .B .clearFault tag .nothing)) ∧
    ((s.fault k).state = .done ∨
        ((s.fault k).state = .failed ∧ ∀ c, (s.relaySet c).holder ≠ some k) →
      exec (.clearFault .B tag x) s =
        .next ((s.updFault k fun _ => {}).answerOk .B .clearFault tag .nothing))

/-- AT_TIME_TRIGGER and ON_CAPTURE_TRIGGER of an electronic record: it enters ACTIVE with its stamp, its FREEZE capture
and its notice, and the pin of a FREE target shows its level overlay at once (R70, R78, R79, R82, R94, R107, R109),
given with no listener of its START event. An AT_ANGLE trigger fires at the tick that reaches its angle in a cycle it
names (R80), given for a tick at a closed instant and a record off the wait list, as `recordLaw` has it of every ARMED
one. A START or END event fires the ARMED records that listen for it, and their START events fire further ones at the
same instant, and no other record fires (R83, R84), given where every ARMED listener is electronic. The model's choices:
an event that is not due changes nothing (assumption 7), the last output of a FREE target stays as its pin moves
(assumption 28), and the chain of an END event is resolved before its record is re-armed, so it does not fire that record
again (assumption 41); the mark `fresh`, by which nothing of the same tick counts toward the record, is the model's own
(assumption 21). -/
def Obligations.ElectronicTriggersFire : Prop :=
  (∀ (s : State) (k : Fin 64) (e : Event) (c : Instr),
    (c = .atTimeTrigger k ∧ e = .atTime k ∧ (∃ t, (s.fault k).trigger = .atTime t ∧ t.toNat ≤ s.rigTime.toNat) ∨
      c = .onCaptureTrigger k ∧ e = .onCapture k ∧
        ∃ i d n, (s.fault k).trigger = .onCapture i d n ∧ (s.fault k).trigProgress = n) →
    e ∈ s.due → s.noPassAfter e → s.run.mode = .run → (s.fault k).state = .armed →
    (s.fault k).fresh = false → (s.fault k).kind.electronic = true →
    (∀ j, (s.fault j).trigger = .onFault k .start → (s.fault j).state ≠ .armed) →
      ∃ t : State, exec c s = .next t ∧
        t = { ({ s with due := s.due.erase e }.updFault k fun r =>
          { r with
            state := .active
            startStamp := some ⟨s.rigTime, angleCount s.angle.phase, s.angle.cycle⟩
            durProgress := 0
            frozen := if r.kind = FaultKind.freeze then some (s.channel r.target).lastOutput else none
            fresh := true }).raiseSet (s.fault k).notify .faultEvent with channels := t.channels } ∧
        s.showsAfter t (s.fault k).target) ∧
  (∀ (s : State) (l : List PinChange) (k : Fin 64) (cycle : Option Half) (a : Nat), s.pins.resetLine = false →
    s.due = [] → s.halfDone = true → s.examineDue = false → s.run.mode = .run → (s.fault k).state = .armed →
    (s.fault k).trigger = .atAngle cycle a → (s.fault k).kind.electronic = true → k ∉ s.wholeList →
      ∃ (t : State) (d : Nat), exec (.rigTick l) s = .next t ∧
        d = angleAdvance (angleCount s.angle.phase) (angleCount t.angle.phase) ∧
        ((∃ j, 1 ≤ j ∧ j ≤ d ∧ (angleCount s.angle.phase + j) % 11520 = a ∧
            (cycle = none ∨ cycle = some (if angleCount s.angle.phase + j ≤ 11519 then s.angle.cycle
              else t.angle.cycle))) →
          (t.fault k).state = .active ∧ (t.fault k).durProgress = 0 ∧ (t.fault k).target = (s.fault k).target ∧
          (t.fault k).startStamp = some ⟨t.rigTime, angleCount t.angle.phase, t.angle.cycle⟩ ∧
          (∀ p, ((s.fault k).notify.has p) = true → (t.port p).sticky.getLsbD 2 = true)) ∧
        (¬(∃ j, 1 ≤ j ∧ j ≤ d ∧ (angleCount s.angle.phase + j) % 11520 = a ∧
            (cycle = none ∨ cycle = some (if angleCount s.angle.phase + j ≤ 11519 then s.angle.cycle
              else t.angle.cycle))) →
          t.fault k = { s.fault k with fresh := false })) ∧
  (∀ (s : State) (k : Fin 64) (e : FaultEvent) (c : Instr) (x : Event), x ∈ s.due → s.noPassAfter x →
    s.run.mode = .run → (s.fault k).kind.electronic = true → s.listenersElectronic →
    (c = .atTimeTrigger k ∧ e = .start ∧ x = .atTime k ∧ (s.fault k).state = .armed ∧
        (s.fault k).fresh = false ∧ (∃ t, (s.fault k).trigger = .atTime t ∧ t.toNat ≤ s.rigTime.toNat) ∨
      c = .onCaptureTrigger k ∧ e = .start ∧ x = .onCapture k ∧ (s.fault k).state = .armed ∧
        (s.fault k).fresh = false ∧ (∃ i d n, (s.fault k).trigger = .onCapture i d n ∧ (s.fault k).trigProgress = n) ∨
      c = .durationEnd k ∧ e = .stop ∧ x = .durationEnd k ∧ (s.fault k).state = .active ∧
        (s.fault k).durationOver = true) →
      ∃ t : State, exec c s = .next t ∧ s.chainFires t k e) ∧
  (∀ (s : State) (k : Fin 64), Event.atTime k ∉ s.due → exec (.atTimeTrigger k) s = .next s) ∧
  ∀ (s : State) (k : Fin 64), Event.onCapture k ∉ s.due → exec (.onCaptureTrigger k) s = .next s

/-- A relay record whose trigger fires, AT_TIME, ON_CAPTURE, AT_ANGLE at a tick at a closed instant, or ON_FAULT at the
START or END event of an electronic record: it is FAILED where a channel that it names is OUT_OF_SERVICE (R93); otherwise
it joins the tail of the wait list, in ascending index with what else joins at the instant, and the list is examined
(R93, R95, R97). What the examination leaves, `passLeaves` says (R52, R54, R96 to R98): with its channels free and no
record ahead in its way the record holds them and its start sequence commands PATH open, the partner's PATH and with the
first free bus for PIN_SHORT; a SHORT_BAT record with the battery ABSENT is FAILED with NO_BATTERY; otherwise it waits.
The pass is made once no event of the instant is left, DEDUCED (assumption 16); the mark `fresh` is the model's own
(assumption 21); that the last output of the FREE target of the electronic record stays as its pin moves is the model's
choice (assumption 28). Given with no other record fired by the same tick or event. -/
def Obligations.RelayRecordIsGranted : Prop :=
  (∀ (s : State) (k : Fin 64) (i : Instr) (e : Event),
    (i = .atTimeTrigger k ∧ e = .atTime k ∧ (∃ t, (s.fault k).trigger = .atTime t ∧ t.toNat ≤ s.rigTime.toNat) ∨
      i = .onCaptureTrigger k ∧ e = .onCapture k ∧
        ∃ x d n, (s.fault k).trigger = .onCapture x d n ∧ (s.fault k).trigProgress = n) →
    e ∈ s.due → s.run.mode = .run → (s.fault k).state = .armed → (s.fault k).fresh = false →
    (s.fault k).kind.electronic = false →
    ∃ u : State, u = { s with due := s.due.erase e } ∧
      ((∃ c, (s.fault k).onChannel c ∧ (s.relaySet c).inService = false) → s.noPassAfter e →
        exec i s = .next ((u.updFault k fun r =>
          { r with state := .failed, failReason := some .outOfService, seq := none }).raiseSet
            (s.fault k).notify .faultEvent)) ∧
      ((∀ c, (s.fault k).onChannel c → (s.relaySet c).inService = true) → ∀ r : State, u.joins k r →
        ∃ t : State, exec i s = .next t ∧ r.passLeaves t)) ∧
  (∀ (s : State) (l : List PinChange) (k : Fin 64) (cycle : Option Half) (a : Nat), s.pins.resetLine = false →
    s.due = [] → s.halfDone = true → s.examineDue = false → s.joining = [] → s.run.mode = .run →
    (s.fault k).state = .armed → (s.fault k).trigger = .atAngle cycle a → (s.fault k).kind.electronic = false →
    (∀ j x b, j ≠ k → (s.fault j).state = .armed → (s.fault j).trigger ≠ .atAngle x b) →
      ∃ (t : State) (d : Nat), exec (.rigTick l) s = .next t ∧
        d = angleAdvance (angleCount s.angle.phase) (angleCount t.angle.phase) ∧
        (¬(∃ j, 1 ≤ j ∧ j ≤ d ∧ (angleCount s.angle.phase + j) % 11520 = a ∧
            (cycle = none ∨ cycle = some (if angleCount s.angle.phase + j ≤ 11519 then s.angle.cycle
              else t.angle.cycle))) →
          t.fault k = { s.fault k with fresh := false }) ∧
        ((∃ j, 1 ≤ j ∧ j ≤ d ∧ (angleCount s.angle.phase + j) % 11520 = a ∧
            (cycle = none ∨ cycle = some (if angleCount s.angle.phase + j ≤ 11519 then s.angle.cycle
              else t.angle.cycle))) →
          ((∃ c, (s.fault k).onChannel c ∧ (s.relaySet c).inService = false) →
            t.fault k = { s.fault k with
              state := .failed, failReason := some .outOfService, seq := none, fresh := false } ∧
            t.waitList = s.waitList ∧ t.joining = [] ∧
            (∀ p, ((s.fault k).notify.has p) = true → (t.port p).sticky.getLsbD 2 = true)) ∧
          ((∀ c, (s.fault k).onChannel c → (s.relaySet c).inService = true) →
            ∃ r : State, r.passLeaves t ∧ r.due = t.due ∧ r.waitList = s.waitList ∧ r.joining = [k] ∧
              r.fault k = { s.fault k with state := .waiting, fresh := true } ∧
              (∀ j, j ≠ k → ∃ n, r.fault j = { s.fault j with fresh := false, durProgress := n }) ∧
              r.buses = s.buses ∧ r.timing = s.timing ∧ r.battery.level = s.battery.level ∧
              ∀ c, r.relaySet c = { s.relaySet c with relays := (r.relaySet c).relays } ∧
                ∀ n, ((s.relaySet c).relays.get n).movement = none →
                  (r.relaySet c).relays.get n = (s.relaySet c).relays.get n))) ∧
  ∀ (s : State) (x k : Fin 64) (i : Instr) (e : Event) (v : FaultEvent), e ∈ s.due → s.run.mode = .run →
    (s.fault x).kind.electronic = true → (s.fault k).kind.electronic = false → s.listeners x v = [k] →
    (i = .atTimeTrigger x ∧ v = .start ∧ e = .atTime x ∧ (s.fault x).state = .armed ∧ (s.fault x).fresh = false ∧
        (∃ t, (s.fault x).trigger = .atTime t ∧ t.toNat ≤ s.rigTime.toNat) ∨
      i = .onCaptureTrigger x ∧ v = .start ∧ e = .onCapture x ∧ (s.fault x).state = .armed ∧
        (s.fault x).fresh = false ∧
        (∃ y d n, (s.fault x).trigger = .onCapture y d n ∧ (s.fault x).trigProgress = n) ∨
      i = .durationEnd x ∧ v = .stop ∧ e = .durationEnd x ∧ (s.fault x).state = .active ∧
        (s.fault x).durationOver = true) →
      ∃ (y : FaultRecord) (u : State), y = (if v = .start then s.activeNow x else s.endedNow x) ∧
        u = { ({ s with due := s.due.erase e }.updFault x fun _ => y).raiseSet
          (if y.state = FaultState.armed then ⟨false, false⟩ else (s.fault x).notify) .faultEvent with
            channels := u.channels } ∧
        s.showsAfter u (s.fault x).target ∧
        ((∃ c, (s.fault k).onChannel c ∧ (s.relaySet c).inService = false) → s.noPassAfter e →
          exec i s = .next ((u.updFault k fun r =>
            { r with state := .failed, failReason := some .outOfService, seq := none }).raiseSet
              (s.fault k).notify .faultEvent)) ∧
        ((∀ c, (s.fault k).onChannel c → (s.relaySet c).inService = true) → ∀ r : State, u.joins k r →
          ∃ t : State, exec i s = .next t ∧ r.passLeaves t)

/-- DURATION_END of an electronic record: the end stamp and the count are taken, and the record is re-armed for a repeat
with its trigger set up afresh, or enters DONE and announces it, and the pin of a FREE target shows the level without it
(R85, R89, R103, R107), given with no listener of its END event; of a relay record, a PIN_SHORT record with both its
channels among them: it enters STOPPING and its stop sequence begins, with no end stamp and no count yet (R54, R100). A
duration is over exactly where the progress has reached its value, and never for UNTIL_RELEASE (R85); what each tick adds
to it (R86, R87) comes before an entry to SAFE and a RELEASE_FAULT at that tick, which is the model's choice (assumptions
34, 37), and so is that the last output of a FREE target stays as its pin moves (assumption 28). The mark `fresh` is the model's own (assumption 21). -/
def Obligations.DurationEnds : Prop :=
  (∀ (s : State) (k : Fin 64), Event.durationEnd k ∈ s.due → s.noPassAfter (.durationEnd k) →
    (s.fault k).state = .active → (s.fault k).durationOver = true → (s.fault k).kind.electronic = true →
    s.listeners k .stop = [] → ∃ t : State, exec (.durationEnd k) s = .next t ∧
      s.showsAfter t (s.fault k).target ∧
      ((s.fault k).releasePending = true ∨ (s.fault k).repeats = 0 →
        t = { ({ s with due := s.due.erase (.durationEnd k) }.updFault k fun r =>
            { r with
              state := .done
              endStamp := some ⟨s.rigTime, angleCount s.angle.phase, s.angle.cycle⟩
              activations := r.activations + 1
              frozen := none
              seq := none }).raiseSet (s.fault k).notify .faultEvent with channels := t.channels }) ∧
      ((s.fault k).releasePending = false → 0 < (s.fault k).repeats →
        t = { { s with due := s.due.erase (.durationEnd k) }.updFault k fun r =>
            { r with
              state := .armed
              endStamp := some ⟨s.rigTime, angleCount s.angle.phase, s.angle.cycle⟩
              activations := r.activations + 1
              repeats := r.repeats - 1
              trigger := (match r.trigger with
                | .atTime t => .atTime (t + BitVec.ofNat 48 r.repeatPeriod)
                | .atAngle _ a => .atAngle none a
                | x => x)
              trigProgress := (match r.trigger with | .onCapture _ _ _ => 0 | _ => r.trigProgress)
              frozen := none
              seq := none
              fresh := true } with channels := t.channels })) ∧
  (∀ (s : State) (k : Fin 64) (c : Fin 24) (n : RelayName) (pos : Position),
    Event.durationEnd k ∈ s.due → s.noPassAfter (.durationEnd k) → (s.fault k).state = .active →
    (s.fault k).durationOver = true → (s.fault k).target = c →
    ((s.fault k).kind = .openWire ∧ n = .path ∧ pos = .closed ∨
      (s.fault k).kind = .shortGnd ∧ n = .gnd ∧ pos = .opened ∨
      (s.fault k).kind = .shortBat ∧ n = .bat ∧ pos = .opened) →
    ((s.relaySet c).relays.get n).state.moving = false → ((s.relaySet c).relays.get n).state ≠ pos.rest →
      exec (.durationEnd k) s =
        .next (({ s with due := s.due.erase (.durationEnd k) }.updRelaySet c fun x =>
            { x with relays := x.relays.upd n fun _ =>
              { state := pos.moving, failed := false,
                movement := some ⟨0, s.timing.settle, s.timing.timeout⟩ } }).updFault k fun r =>
          { r with state := .stopping, seq := some ⟨true, 0⟩ })) ∧
  (∀ (s : State) (k : Fin 64) (p : Fin 24) (b : Bus),
    Event.durationEnd k ∈ s.due → s.noPassAfter (.durationEnd k) → (s.fault k).state = .active →
    (s.fault k).durationOver = true → (s.fault k).kind = .pinShort → (s.fault k).partner = some p →
    (s.fault k).bus = some b → p ≠ (s.fault k).target →
    (∀ c, c = p ∨ c = (s.fault k).target → (s.relaySet c).relays.get b.relay = { state := .closed }) →
      ∃ t : State, exec (.durationEnd k) s = .next t ∧
        t = { ({ s with due := s.due.erase (.durationEnd k) }.updFault k fun r =>
            { r with state := .stopping, seq := some ⟨true, 0⟩ }) with relays := t.relays } ∧
        ∀ c, t.relaySet c = if c = p ∨ c = (s.fault k).target then
            { s.relaySet c with relays := (s.relaySet c).relays.upd b.relay fun _ =>
              { state := .movingOpen, failed := false,
                movement := some ⟨0, s.timing.settle, s.timing.timeout⟩ } }
          else s.relaySet c) ∧
  ∀ (d : Nat) (w : Bool) (r : FaultRecord),
    (r.state ≠ .active → tickRecord d w r = { r with fresh := false }) ∧
    (r.state = .active → tickRecord d w r =
      { r with
        fresh := false
        durProgress := r.durProgress + (match r.duration with
          | .time _ => 1
          | .angle _ => d
          | .cycles _ => if w then 1 else 0
          | .untilRelease | .capture _ _ _ => 0) }) ∧
    (r.durationOver = true ↔ ∃ n, n ≤ r.durProgress ∧
      (r.duration = .time n ∨ r.duration = .angle n ∨ r.duration = .cycles n ∨
        ∃ i e, r.duration = .capture i e n))

/-! ## Sample Memory and segments (chapter 6) -/

/-- DEFINE_SEGMENT: the four cases of R118 in their order, each changing nothing, and the record of a taken request
(R119). Segments that meet without sharing an address do not overlap. -/
def Obligations.DefineSegmentChecks : Prop :=
  (∀ (s : State) (tag x : Byte) (b l : Word), s.takesNow .B = true →
    (32 ≤ x.toNat →
      exec (.defineSegment .B tag x b l) s = .next (s.answerNo .B .defineSegment tag .badValue)) ∧
    ∀ g : Fin 32, x.toNat = g.1 →
      ((s.segment g).defined = true →
        exec (.defineSegment .B tag x b l) s = .next (s.answerNo .B .defineSegment tag .busy)) ∧
      ((s.segment g).defined = false →
        (l.toNat < 2 ∨ 1048576 < l.toNat ∨ 1048575 < b.toNat ∨ 1048576 < b.toNat + l.toNat) →
        exec (.defineSegment .B tag x b l) s = .next (s.answerNo .B .defineSegment tag .badValue)) ∧
      ((s.segment g).defined = false → 2 ≤ l.toNat → b.toNat + l.toNat ≤ 1048576 →
        ((∃ h, h ≠ g ∧ (s.segment h).defined = true ∧
            ∃ a, b.toNat ≤ a ∧ a < b.toNat + l.toNat ∧ (s.segment h).base ≤ a ∧
              a < (s.segment h).base + (s.segment h).length) →
          exec (.defineSegment .B tag x b l) s = .next (s.answerNo .B .defineSegment tag .overlap)) ∧
        ((∀ h, h ≠ g → (s.segment h).defined = true →
            (s.segment h).base + (s.segment h).length ≤ b.toNat ∨ b.toNat + l.toNat ≤ (s.segment h).base) →
          exec (.defineSegment .B tag x b l) s =
            .next ((s.updSegment g fun _ => ⟨true, b.toNat, l.toNat, 0⟩).answerOk .B .defineSegment tag
              (.segment ⟨true, b.toNat, l.toNat, 0⟩)))))

/-- FREE_SEGMENT (R120): refused with BUSY while descriptors name the segment; a FREE record is unchanged; no sample
changes. -/
def Obligations.FreeSegmentFrees : Prop :=
  ∀ (s : State) (tag x : Byte), s.takesNow .B = true →
    (32 ≤ x.toNat → exec (.freeSegment .B tag x) s = .next (s.answerNo .B .freeSegment tag .badValue)) ∧
    ∀ g : Fin 32, x.toNat = g.1 →
      ((s.segment g).defined = true → 0 < (s.segment g).refs →
        exec (.freeSegment .B tag x) s = .next (s.answerNo .B .freeSegment tag .busy)) ∧
      ((s.segment g).defined = true → (s.segment g).refs = 0 →
        exec (.freeSegment .B tag x) s =
          .next ((s.updSegment g fun _ => ⟨false, 0, 0, 0⟩).answerOk .B .freeSegment tag
            (.segment ⟨false, 0, 0, 0⟩))) ∧
      ((s.segment g).defined = false →
        exec (.freeSegment .B tag x) s =
          .next (s.answerOk .B .freeSegment tag (.segment (s.segment g))))

/-- WRITE_SAMPLES and READ_SAMPLES as they are taken: the refusals of R123 in their order and those of R126, where
NOT_FOUND comes before a bad range, which is the model's choice for the count (assumption 40), and a taken transfer, which fixes its first address, holds a reserved place of the response queue, and begins, or waits for the
other port's (R124, R191). -/
def Obligations.TransfersAreTaken : Prop :=
  ∀ (s : State) (p : Port) (tag x : Byte) (o : Word) (n : Half) (l : List Half), s.takesNow p = true →
    (32 ≤ x.toNat → exec (.readSamples p tag x o n) s = .next (s.answerNo p .readSamples tag .badValue)) ∧
    (32 ≤ x.toNat → p = .B → l.length ≤ 506 →
      exec (.writeSamples p tag x o l) s = .next (s.answerNo p .writeSamples tag .badValue)) ∧
    ∀ g : Fin 32, x.toNat = g.1 →
      ((s.segment g).defined = false →
        exec (.readSamples p tag x o n) s = .next (s.answerNo p .readSamples tag .notFound) ∧
        (p = .B → l.length ≤ 506 →
          exec (.writeSamples p tag x o l) s = .next (s.answerNo p .writeSamples tag .notFound))) ∧
      ((s.segment g).defined = true →
        (n = 0 ∨ 504 < n.toNat ∨ (s.segment g).length < o.toNat + n.toNat →
          exec (.readSamples p tag x o n) s = .next (s.answerNo p .readSamples tag .badValue)) ∧
        (p = .B → (l = [] ∨ l.length = 505 ∨ l.length = 506 ∨
            (l.length ≤ 506 ∧ (s.segment g).length < o.toNat + l.length)) →
          exec (.writeSamples p tag x o l) s = .next (s.answerNo p .writeSamples tag .badValue)) ∧
        (p = .B → l ≠ [] → l.length ≤ 504 → o.toNat + l.length ≤ (s.segment g).length →
          0 < (s.segment g).refs →
          exec (.writeSamples p tag x o l) s = .next (s.answerNo p .writeSamples tag .busy)) ∧
        (n ≠ 0 → n.toNat ≤ 504 → o.toNat + n.toNat ≤ (s.segment g).length →
          ∃ t : Transfer, t = ⟨p, tag, false, g, o.toNat, (s.segment g).base + o.toNat, n.toNat, []⟩ ∧
            (s.moving = none → exec (.readSamples p tag x o n) s =
              .next ({ s with moving := some t }.updPort p fun q =>
                { q with responses := q.responses ++ [(⟨0x53, tag, none⟩ : Response)] })) ∧
            (s.moving ≠ none → exec (.readSamples p tag x o n) s =
              .next ({ s with queued := some t }.updPort p fun q =>
                { q with responses := q.responses ++ [(⟨0x53, tag, none⟩ : Response)] }))) ∧
        (p = .B → l ≠ [] → l.length ≤ 504 → o.toNat + l.length ≤ (s.segment g).length →
          (s.segment g).refs = 0 →
          ∃ t : Transfer, t = ⟨p, tag, true, g, o.toNat, (s.segment g).base + o.toNat, l.length, l⟩ ∧
            (s.moving = none → exec (.writeSamples p tag x o l) s =
              .next ({ s with moving := some t }.updPort p fun q =>
                { q with responses := q.responses ++ [(⟨0x52, tag, none⟩ : Response)] })) ∧
            (s.moving ≠ none → exec (.writeSamples p tag x o l) s =
              .next ({ s with queued := some t }.updPort p fun q =>
                { q with responses := q.responses ++ [(⟨0x52, tag, none⟩ : Response)] }))))

/-- WRITE_SAMPLES_DONE and READ_SAMPLES_DONE: the samples stand at the addresses of their offsets and no other sample
changes, the read changes none, the response is formed in its reserved place, and the waiting transfer begins (R124 to
R126). Given for a port with no request waiting; with one, the port takes it. That the two ends are
commands whose time is open, and that an end that no transfer meets changes nothing, are the model's choices
(assumptions 7 and 17). -/
def Obligations.TransfersEnd : Prop :=
  ∀ (s : State) (x : Transfer), s.moving = some x → (s.port x.port).inbound = [] → Memory.wf s.memory →
    (x.write = true →
      ∃ t : State, exec .writeSamplesDone s = .next t ∧
        t = ({ s with memory := t.memory, moving := s.queued, queued := none }.updPort x.port fun q =>
          { q with responses := q.responses.map fun r : Response =>
              if r.reply = none then
                { r with reply := some (.okay (.written x.segment x.offset x.count)) } else r }) ∧
        (∀ a, memRead t.memory a =
          if h : x.address ≤ a ∧ a - x.address < x.samples.length then x.samples[a - x.address]
          else memRead s.memory a) ∧
        ∀ p, exec (.readSamplesDone p) s = .next s) ∧
    (x.write = false →
      exec (.readSamplesDone x.port) s =
        .next ({ s with moving := s.queued, queued := none }.updPort x.port fun q =>
          { q with responses := q.responses.map fun r : Response =>
              if r.reply = none then
                { r with reply := some (.okay (.samples
                    ((List.range x.count).map fun j => memRead s.memory (x.address + j)))) } else r }) ∧
      (∀ p, p ≠ x.port → exec (.readSamplesDone p) s = .next s) ∧ exec .writeSamplesDone s = .next s)

/-! ## Replay engines (chapter 7) -/

/-- SET_REPLAY: the refusals of R131 in their order, the codes of target and pacing (R205), and what a taken request
writes (R132). -/
def Obligations.SetReplayWritesSettings : Prop :=
  (∀ g : ReplayArgs,
    (targetOf g.target = none ↔ 12 ≤ g.target.toNat ∧ g.target.toNat ≠ 255) ∧
    (pacingOf g.pacing g.rate = none ↔ 2 ≤ g.pacing.toNat ∨ (g.pacing = 0 ∧ g.rate = 0) ∨
      (g.pacing = 1 ∧ (g.rate.toNat < 8 ∨ 4096 < g.rate.toNat))) ∧
    (scaleGood g = false ↔ 65535 < g.gain.toNat ∨ g.offset.toInt < -65536 ∨ 65535 < g.offset.toInt)) ∧
  ((∀ (b : Byte) (c : Fin 12), b.toNat = c.1 → targetOf b = some (.analog c)) ∧ targetOf 255 = some .speed ∧
    (∀ r : Half, r ≠ 0 → pacingOf 0 r = some (.time r.toNat)) ∧
    ∀ r : Half, 8 ≤ r.toNat → r.toNat ≤ 4096 → pacingOf 1 r = some (.angle r.toNat)) ∧
  ∀ (s : State) (tag x : Byte) (g : ReplayArgs), s.takesNow .B = true →
    ((4 ≤ x.toNat ∨ targetOf g.target = none ∨ pacingOf g.pacing g.rate = none ∨ scaleGood g = false) →
      exec (.setReplay .B tag x g) s = .next (s.answerNo .B .setReplay tag .badValue)) ∧
    ∀ (n : Fin 4) (a : Target) (y : Pacing), x.toNat = n.1 → targetOf g.target = some a →
      pacingOf g.pacing g.rate = some y → scaleGood g = true →
      ((s.engine n).state ≠ .idle →
        exec (.setReplay .B tag x g) s = .next (s.answerNo .B .setReplay tag .wrongMode)) ∧
      ((s.engine n).state = .idle → a = .speed → s.angle.source ≠ .replay n →
        exec (.setReplay .B tag x g) s = .next (s.answerNo .B .setReplay tag .wrongState)) ∧
      ((s.engine n).state = .idle → (a = .speed → s.angle.source = .replay n) →
        ∃ e : Engine,
          e = { s.engine n with
                target := a, pacing := y, interp := g.interp, gain := g.gain.toNat,
                offset := g.offset.toInt, notify := ⟨g.notify.getLsbD 0, g.notify.getLsbD 1⟩,
                lastOut := if (s.engine n).target = .speed ∧ a ≠ .speed then none else (s.engine n).lastOut,
                k := if (s.engine n).current.isSome then 0 else (s.engine n).k,
                e := if (s.engine n).current.isSome then 0 else (s.engine n).e,
                awaiting := if (s.engine n).current.isSome then y.isAngle else (s.engine n).awaiting } ∧
          exec (.setReplay .B tag x g) s =
            .next ((s.updEngine n fun _ => e).answerOk .B .setReplay tag (.engine e)))

/-- QUEUE_REPLAY: the refusals of R133 in their order, and what a taken request does (R134, R136). STOP_REPLAY discards
every descriptor of its engine with its references (R135). Where the advance that lapses with it was the last event of its
instant, the pass of the wait list follows, which is the model's choice (assumption 16). -/
def Obligations.DescriptorsQueuedAndDiscarded : Prop :=
  (∀ (s : State) (tag x : Byte) (g : DescriptorArgs), s.takesNow .B = true →
    (4 ≤ x.toNat ∨ 32 ≤ g.segment.toNat →
      exec (.queueReplay .B tag x g) s = .next (s.answerNo .B .queueReplay tag .badValue)) ∧
    ∀ (n : Fin 4) (m : Fin 32), x.toNat = n.1 → g.segment.toNat = m.1 →
      (8 ≤ (s.engine n).queue.length →
        exec (.queueReplay .B tag x g) s = .next (s.answerNo .B .queueReplay tag .full)) ∧
      ((s.engine n).queue.length < 8 → (s.segment m).defined = false →
        exec (.queueReplay .B tag x g) s = .next (s.answerNo .B .queueReplay tag .notFound)) ∧
      ((s.engine n).queue.length < 8 → (s.segment m).defined = true →
        (g.count.toNat < 2 ∨ (s.segment m).length < g.first.toNat + g.count.toNat ∨ 255 < g.loops.toNat) →
        exec (.queueReplay .B tag x g) s = .next (s.answerNo .B .queueReplay tag .badValue)) ∧
      ((s.engine n).queue.length < 8 → (s.segment m).defined = true → 2 ≤ g.count.toNat →
        g.first.toNat + g.count.toNat ≤ (s.segment m).length → g.loops.toNat ≤ 255 →
        ∃ d : Descriptor, d = ⟨m, g.first.toNat, g.count.toNat, g.loops.toNat, g.final, true⟩ ∧
          ((s.run.mode ≠ .run ∨ (s.engine n).current.isSome = true ∨
              ((s.engine n).state ≠ .idle ∧ (s.engine n).state ≠ .underrun)) →
            exec (.queueReplay .B tag x g) s =
              .next (((s.updSegment m fun y => { y with refs := y.refs + 1 }).updEngine n fun e =>
                { e with queue := e.queue ++ [d] }).answerOk .B .queueReplay tag
                  (.queued ((s.engine n).queue.length + 1) (s.engine n).state))) ∧
          (s.run.mode = .run → (s.engine n).current = none →
            ((s.engine n).state = .idle ∨ (s.engine n).state = .underrun) →
            ∀ d' rest, (s.engine n).queue ++ [d] = d' :: rest →
            exec (.queueReplay .B tag x g) s =
              .next (({ s.updSegment m (fun y => { y with refs := y.refs + 1 }) with
                  due := s.due.erase (.replayAdvance n) }.updEngine n fun e =>
                { e with state := .running, current := some { d' with ready := false }, queue := rest, k := 0,
                         e := 0, awaiting := e.pacing.isAngle }).answerOk .B .queueReplay tag
                  (.queued (s.engine n).queue.length .running))))) ∧
  ∀ (s : State) (tag x : Byte), s.takesNow .B = true →
    (4 ≤ x.toNat → exec (.stopReplay .B tag x) s = .next (s.answerNo .B .stopReplay tag .badValue)) ∧
    ∀ n : Fin 4, x.toNat = n.1 →
      ∃ u t : State, exec (.stopReplay .B tag x) s = .next (t.answerOk .B .stopReplay tag
          (.count ((s.engine n).current.toList.length + (s.engine n).queue.length))) ∧
        u = { s with engines := u.engines, segments := u.segments,
                     due := s.due.erase (.replayAdvance n) } ∧
        u.engine n = { s.engine n with state := .idle, current := none, queue := [], k := 0, e := 0,
                                       awaiting := false } ∧
        (∀ m, m ≠ n → u.engine m = s.engine m) ∧
        (∀ g, u.segment g = { s.segment g with refs := (s.segment g).refs - (s.engine n).names g }) ∧
        (s.examineDue = false → t = u) ∧ (s.examineDue = true → u.passLeaves t)

/-- REPLAY_ADVANCE: e reaches P, so e becomes 0 and k rises by one (R137); at the descriptor's count it loops, or is
finished and the engine becomes IDLE after a final mark, takes the head of its queue, or becomes UNDERRUN (R136, R144,
R145). Given for an advance that is due, which is how the model orders the actions of a tick (assumption 5). Under ANGLE
pacing a tick at a closed instant moves k by the rise of the sample of the cycle, at most 1, and ends the descriptor
there; an engine that awaits a wrap starts at it (R136, R138). Where no other ANGLE-paced engine runs, such a tick drops
the reference of the descriptor that is finished and no other (R122), and sets REPLAY_EVENT on the ports of the notify
set where the engine becomes IDLE or UNDERRUN, and on no port otherwise (R145). That k and e are 0 where no descriptor
is current after a finished one is the model's choice (assumption 30). -/
def Obligations.ReplayAdvances : Prop :=
  (∀ (s : State) (n : Fin 4) (p : Nat) (d : Descriptor), Event.replayAdvance n ∈ s.due → s.noPassAfter (.replayAdvance n) →
    (s.engine n).state = .running → (s.engine n).pacing = .time p → p ≤ (s.engine n).e + 1 →
    (s.engine n).current = some d → s.due.count (.replayAdvance n) = 1 →
      ∃ u : State, u = { s with due := s.due.erase (.replayAdvance n) } ∧
      ((s.engine n).k + 1 < d.count →
        exec (.replayAdvance n) s =
          .next (u.updEngine n fun g => { g with e := 0, k := (s.engine n).k + 1 })) ∧
      (d.count ≤ (s.engine n).k + 1 → 0 < d.loops →
        exec (.replayAdvance n) s =
          .next (u.updEngine n fun g =>
            { g with e := 0, k := 0, current := some { d with loops := d.loops - 1 } })) ∧
      (d.count ≤ (s.engine n).k + 1 → d.loops = 0 → d.final = true →
        exec (.replayAdvance n) s =
          .next (((u.updSegment d.segment fun x => { x with refs := x.refs - 1 }).updEngine n fun g =>
            { g with state := .idle, e := 0, k := 0, current := none }).raiseSet
              (s.engine n).notify .replayEvent)) ∧
      (d.count ≤ (s.engine n).k + 1 → d.loops = 0 → d.final = false → (s.engine n).queue = [] →
        exec (.replayAdvance n) s =
          .next (((u.updSegment d.segment fun x => { x with refs := x.refs - 1 }).updEngine n fun g =>
            { g with state := .underrun, e := 0, k := 0, current := none }).raiseSet
              (s.engine n).notify .replayEvent)) ∧
      ∀ d' rest, d.count ≤ (s.engine n).k + 1 → d.loops = 0 → d.final = false →
        (s.engine n).queue = d' :: rest →
        exec (.replayAdvance n) s =
          .next ((u.updSegment d.segment fun x => { x with refs := x.refs - 1 }).updEngine n fun g =>
            { g with e := 0, k := 0, queue := rest, awaiting := false,
                     current := some { d' with ready := false } })) ∧
  ∀ (s : State) (l : List PinChange) (n : Fin 4) (m : Nat) (d : Descriptor), s.pins.resetLine = false →
    s.due = [] → s.halfDone = true → s.run.mode = .run → (s.engine n).state = .running →
    (s.engine n).pacing = .angle m → 1 ≤ m → m ≤ 4096 → s.angle.speed ≤ 64000 → (s.engine n).current = some d →
      ∃ (t : State) (rise : Nat), exec (.rigTick l) s = .next t ∧ rise ≤ 1 ∧
        (s.angle.phase.toNat * m / 2 ^ 32 + rise) % m = t.angle.phase.toNat * m / 2 ^ 32 ∧
        (1 < m → (rise = 1 ↔ s.angle.phase.toNat * m / 2 ^ 32 ≠ t.angle.phase.toNat * m / 2 ^ 32)) ∧
        (8 ≤ m → (∀ j, j ≠ n → (s.engine j).state = .running → (s.engine j).pacing.isAngle = false) →
          ∃ finished : Bool,
            (finished = true ↔ (s.engine n).awaiting = false ∧ d.count ≤ (s.engine n).k + rise ∧ d.loops = 0) ∧
            (∀ g, t.segment g = if finished = true ∧ g = d.segment then
              { s.segment g with refs := (s.segment g).refs - 1 } else s.segment g) ∧
            ∀ p, (t.port p).sticky.getLsbD 5 =
              ((s.port p).sticky.getLsbD 5 || (finished && (d.final || (s.engine n).queue.isEmpty) &&
                (match p with | .M => (s.engine n).notify.m | .B => (s.engine n).notify.b)))) ∧
        ((s.engine n).awaiting = true → s.angle.phase.toNat + increment s.angle.speed < 2 ^ 32 →
          t.engine n = s.engine n) ∧
        ((s.engine n).awaiting = true → 2 ^ 32 ≤ s.angle.phase.toNat + increment s.angle.speed →
          t.engine n = { s.engine n with awaiting := false, k := 0 }) ∧
        ((s.engine n).awaiting = false → 8 ≤ m →
          ((s.engine n).k + rise < d.count → t.engine n = { s.engine n with k := (s.engine n).k + rise }) ∧
          (d.count ≤ (s.engine n).k + rise → 0 < d.loops →
            t.engine n = { s.engine n with k := 0, current := some { d with loops := d.loops - 1 } }) ∧
          (d.count ≤ (s.engine n).k + rise → d.loops = 0 → d.final = true →
            t.engine n = { s.engine n with state := .idle, e := 0, k := 0, current := none }) ∧
          (d.count ≤ (s.engine n).k + rise → d.loops = 0 → d.final = false → (s.engine n).queue = [] →
            t.engine n = { s.engine n with state := .underrun, e := 0, k := 0, current := none }) ∧
          ∀ d' rest, d.count ≤ (s.engine n).k + rise → d.loops = 0 → d.final = false →
            (s.engine n).queue = d' :: rest →
            t.engine n = { s.engine n with
              e := 0, k := 0, queue := rest, current := some { d' with ready := false }
              awaiting := decide (s.angle.phase.toNat + increment s.angle.speed < 2 ^ 32) })

/-! ## Capture Unit (chapter 8) -/

/-- COMPARATOR_CHANGE and the comparator's thresholds (R151), one sample of the filter (R152, R153), and SET_CAPTURE
with its effects on the live state (R163, R164) and its edge codes (R205). That voltages are whole millivolts, which the
comparator clauses compare, is the model's choice (assumption 20); so is the field `edge`, which keeps the stamp of the
edge that a sample has agreed on until CAPTURE_EDGE_REPORT reports it (assumption 21). -/
def Obligations.CaptureInputsConfigured : Prop :=
  (∀ (level : Nat) (mv : Int) (old : Bool), comparatorNext level mv old =
    if 800 * ((level : Int) + 1) < mv then true
    else if mv < 800 * ((level : Int) + 1) - 200 then false else old) ∧
  (∀ (s : State) (i : Fin 16) (mv : Int),
    exec (.comparatorChange i mv) s =
      .next ({ s with pins := { s.pins with captureMv := s.pins.captureMv.set i.1 mv } }.updInput i fun x =>
        { x with comparator := comparatorNext x.settings.level mv x.comparator })) ∧
  (∀ (x : CaptureInput) (st : Stamp),
    (x.level = none → x.sample st = { x with level := some x.comparator }) ∧
    ∀ l, x.level = some l →
      (x.comparator = l → x.sample st = { x with disagree := 0, runStamp := none, edge := none }) ∧
      ∀ first, x.comparator ≠ l → first = (if x.disagree = 0 then some st else x.runStamp) →
        (x.disagree + 1 < x.settings.agreement →
          x.sample st = { x with disagree := x.disagree + 1, runStamp := first }) ∧
        (x.settings.agreement ≤ x.disagree + 1 → x.sample st = { x with edge := first })) ∧
  (edgeOf 0 = some .rise ∧ edgeOf 1 = some .fall ∧ edgeOf 2 = some .both ∧ ∀ n, 3 ≤ n → edgeOf n = none) ∧
  (∀ g : CaptureArgs, judgeCapture g = none ↔ 15 < g.level.toNat ∨ 3 < g.dest.toNat ∨ g.edges = 3 ∨
    g.divider.toNat ∉ [1, 2, 4, 8] ∨ g.agreement.toNat ∉ [1, 2, 4]) ∧
  ∀ (s : State) (tag x : Byte) (g : CaptureArgs), s.takesNow .B = true →
    ((16 ≤ x.toNat ∨ judgeCapture g = none) →
      exec (.setCapture .B tag x g) s = .next (s.answerNo .B .setCapture tag .badValue)) ∧
    ∀ (i : Fin 16) (y : CaptureSettings), x.toNat = i.1 → judgeCapture g = some y →
      (y.level = g.level.toNat ∧ y.divider = g.divider.toNat ∧ y.agreement = g.agreement.toNat ∧
        y.enabled = g.enabled ∧ y.trip = g.trip ∧ y.width = g.width ∧
        y.dest = ⟨g.dest.getLsbD 0, g.dest.getLsbD 1⟩ ∧ edgeOf g.edges.toNat = some y.edges) ∧
      ∃ z : CaptureInput, exec (.setCapture .B tag x g) s =
          .next ((s.updInput i fun _ => z).answerOk .B .setCapture tag (.capture z)) ∧
        z.settings = y ∧
        z.comparator = (if y.level = (s.input i).settings.level then (s.input i).comparator
          else comparatorNext y.level (s.pins.captureMv.get i) (s.input i).comparator) ∧
        (y.enabled = false → z.level = none ∧ z.disagree = 0 ∧ z.runStamp = none ∧ z.lastEdge = none ∧
          z.edge = none) ∧
        (y.enabled = true → z.level = (s.input i).level ∧ z.lastEdge = (s.input i).lastEdge ∧
          (y.level = (s.input i).settings.level ∧ y.divider = (s.input i).settings.divider ∧
              y.agreement = (s.input i).settings.agreement →
            z.disagree = (s.input i).disagree ∧ z.runStamp = (s.input i).runStamp ∧
              z.edge = (s.input i).edge) ∧
          (y.level ≠ (s.input i).settings.level ∨ y.divider ≠ (s.input i).settings.divider ∨
              y.agreement ≠ (s.input i).settings.agreement →
            z.disagree = 0 ∧ z.runStamp = none ∧ z.edge = none))

/-- CAPTURE_EDGE_REPORT, where no lower input's report is due: the filtered level changes, the edge's stamp becomes the
last edge stamp, a selected edge is offered to each port of the destination set, and the edge counts toward the triggers
and durations that match it and toward no other (R82, R88, R153 to R158, R161). RISE selects rising edges alone, FALL
falling ones alone, BOTH or EITHER each (R82, R154). A selected edge of a trip input in RUN enters SAFE (R162). That a
record which entered its state at this tick does not count the edge, which the mark `fresh` says, is the model's choice,
and the field `edge` is the model's own (assumption 21); so is that a lower input's report comes first in all it does
(assumption 36), and that an edge reported after a RESUME at its tick counts (assumption 38). -/
def Obligations.CaptureEdgeIsReported : Prop :=
  (∀ rise : Bool, (EdgeSel.rise.selects rise = true ↔ rise = true) ∧
    (EdgeSel.fall.selects rise = true ↔ rise = false) ∧ EdgeSel.both.selects rise = true) ∧
  (∀ (s : State) (i : Fin 16) (l : Bool) (st : Stamp), Event.captureReport i ∈ s.due →
    (∀ j, j < i → Event.captureReport j ∉ s.due) → s.noPassAfter (.captureReport i) →
    (s.input i).level = some l → (s.input i).edge = some st →
    ((s.input i).settings.edges.selects (!l) = false ∨ (s.input i).settings.trip = false ∨ s.run.mode ≠ .run) →
      ∃ t : State, exec (.captureEdgeReport i) s = .next t ∧
        t = { s with inputs := t.inputs, portM := t.portM, portB := t.portB, faults := t.faults,
                     due := t.due } ∧
        t.input i = { s.input i with level := some (!l), disagree := 0, runStamp := none, edge := none,
                                     lastEdge := some st } ∧
        (∀ j, j ≠ i → t.input j = s.input j) ∧
        ((s.input i).settings.edges.selects (!l) = false → t.portM = s.portM ∧ t.portB = s.portB) ∧
        ((s.input i).settings.edges.selects (!l) = true →
          ∃ r : CaptureRecord, r = ⟨i, !l, st, false,
              if (s.input i).settings.width then
                (s.input i).lastEdge.map fun x => min (st.time - x.time).toNat 16777215 else none⟩ ∧
            ∀ p, (((s.input i).settings.dest.has p) = false → t.port p = s.port p) ∧
              (((s.input i).settings.dest.has p) = true → (s.port p).captures.length < 128 →
                t.port p = { s.port p with
                  captures := placeRecord { r with gap := (s.port p).gap } (s.port p).captures, gap := false }) ∧
              (((s.input i).settings.dest.has p) = true → 128 ≤ (s.port p).captures.length →
                t.port p = { s.port p with gap := true, sticky := (s.port p).sticky ||| 2 })) ∧
        (∀ e, e ∈ t.due → e ∈ s.due ∨ (∃ k, e = .onCapture k) ∨ ∃ k, e = .durationEnd k) ∧
        ∀ k,
          (∀ d n, (s.fault k).fresh = false → (s.fault k).state = .armed → s.run.mode = .run →
            (s.fault k).trigger = .onCapture i d n → d.selects (!l) = true → (s.fault k).trigProgress < n →
              t.fault k = { s.fault k with trigProgress := (s.fault k).trigProgress + 1 }) ∧
          (∀ d n, (s.fault k).fresh = false → (s.fault k).state = .active →
            (s.fault k).duration = .capture i d n → d.selects (!l) = true →
              t.fault k = { s.fault k with durProgress := (s.fault k).durProgress + 1 }) ∧
          ((s.fault k).fresh = true ∨ ((s.fault k).state ≠ .armed ∧ (s.fault k).state ≠ .active) ∨
              ((s.fault k).state = .armed ∧ (s.run.mode ≠ .run ∨ ∀ d n, (s.fault k).trigger = .onCapture i d n →
                d.selects (!l) = false ∨ n ≤ (s.fault k).trigProgress)) ∨
              ((s.fault k).state = .active ∧ ∀ d n, (s.fault k).duration = .capture i d n →
                d.selects (!l) = false) → t.fault k = s.fault k) ∧
          (Event.onCapture k ∈ t.due ↔ Event.onCapture k ∈ s.due ∨
            (s.fault k).fresh = false ∧ (s.fault k).state = .armed ∧ s.run.mode = .run ∧
              ∃ d n, (s.fault k).trigger = .onCapture i d n ∧ d.selects (!l) = true ∧
                (s.fault k).trigProgress + 1 = n) ∧
          (Event.durationEnd k ∈ t.due ↔ Event.durationEnd k ∈ s.due ∨
            (s.fault k).fresh = false ∧ (s.fault k).state = .active ∧
              ∃ d n, (s.fault k).duration = .capture i d n ∧ d.selects (!l) = true ∧
                (s.fault k).durProgress + 1 = n)) ∧
  ∀ (s : State) (i : Fin 16) (l : Bool) (st : Stamp), Event.captureReport i ∈ s.due →
    (∀ j, j < i → Event.captureReport j ∉ s.due) → (s.input i).level = some l →
    (s.input i).edge = some st →
    (s.input i).settings.edges.selects (!l) = true → (s.input i).settings.trip = true → s.run.mode = .run →
      ∃ t : State, exec (.captureEdgeReport i) s = .next t ∧ t.run.mode = .safe ∧
        t.run.cause = some ⟨.trip i, s.rigTime⟩ ∧ t.angle = { s.angle with target := 0 } ∧
        (t.input i).level = some (!l) ∧ (t.input i).lastEdge = some st ∧ t.memory = s.memory

/-- TAKE_CAPTURES (R160) removes the oldest min(n, 63) records of the sending port's queue and answers them in order,
with the number left and the gap-pending mark, which it does not change. -/
def Obligations.TakeCapturesRemovesOldest : Prop :=
  ∀ (s : State) (p : Port) (tag n : Byte), s.takesNow p = true →
    exec (.takeCaptures p tag n) s =
      .next ((s.updPort p fun q => { q with captures := q.captures.drop (min n.toNat 63) }).answerOk
        p .takeCaptures tag
        (.captures ((s.port p).captures.take (min n.toNat 63))
          ((s.port p).captures.length - min n.toNat 63) (s.port p).gap)) ∧
    ((s.port p).captures.take (min n.toNat 63)).length = min (min n.toNat 63) (s.port p).captures.length ∧
    (n = 0 ∨ (s.port p).captures = [] →
      exec (.takeCaptures p tag n) s =
        .next (s.answerOk p .takeCaptures tag (.captures [] (s.port p).captures.length (s.port p).gap)))

/-- CAPTURE_READY is the level of R159: set while the port's queue holds a record, whatever was stored or taken; and a
record offered to a queue takes the gap-pending mark and is placed in order of its time, or is dropped from a full one
with its marks (R157, R158). -/
def Obligations.CaptureQueueAndReady : Prop :=
  (∀ q : PortState, q.flags.getLsbD 0 = true ↔ q.captures ≠ []) ∧
  (∀ (q : PortState) (r : CaptureRecord), q.captures.length < 128 →
    q.offer r = { q with captures := placeRecord { r with gap := q.gap } q.captures, gap := false } ∧
    (q.offer r).captures.length = q.captures.length + 1 ∧ (q.offer r).flags.getLsbD 0 = true) ∧
  (∀ (q : PortState) (r : CaptureRecord), 128 ≤ q.captures.length →
    q.offer r = { q with gap := true, sticky := q.sticky ||| 2 } ∧ (q.offer r).flags.getLsbD 1 = true) ∧
  (∀ (r : CaptureRecord) (l : List CaptureRecord), ∃ a b, l = a ++ b ∧ placeRecord r l = a ++ r :: b ∧
    (∀ x ∈ b, laterThan x.stamp.time r.stamp.time = true) ∧
    ∀ x, a.getLast? = some x → laterThan x.stamp.time r.stamp.time = false) ∧
  ∀ u t : RigTime, laterThan u t = true ↔ 1 ≤ (u - t).toNat ∧ (u - t).toNat ≤ 2 ^ 47

/-! ## Run Control (chapter 9) -/

/-- START and RESUME: their refusals, each changing nothing, and what a taken request does to the monitor, the drivers,
the engines and the FREE generators; nothing else changes (R19, R34, R40, R146, R147, R171, R176, R178). A stopped FREE
channel whose base period is not 0 starts at once or at a grid point to come, all of them at one; at which of those
that `State.mayOpenAt` names is the model's free choice (assumption 23). What the pins of drivers that return to DRIVING
present until their refresh is the model's choice (assumption 14). -/
def Obligations.StartAndResumeEnterRun : Prop :=
  ∀ (s : State) (tag : Byte), s.takesNow .B = true →
    (s.run.mode ≠ .config ∨ s.run.safe.level = true →
      exec (.start .B tag) s = .next (s.answerNo .B .start tag .wrongMode)) ∧
    (s.run.mode ≠ .safe ∨ s.run.safe.level = true →
      exec (.resume .B tag) s = .next (s.answerNo .B .resume tag .wrongMode)) ∧
    (s.run.mode = .safe → s.run.safe.level = false →
      (∃ k, (s.fault k).state = .starting ∨ (s.fault k).state = .stopping) →
      exec (.resume .B tag) s = .next (s.answerNo .B .resume tag .busy)) ∧
    ∀ (c : Instr) (kind : RequestKind),
      (c = .start .B tag ∧ kind = .start ∧ s.run.mode = .config ∨
        c = .resume .B tag ∧ kind = .resume ∧ s.run.mode = .safe ∧
          ∀ k, (s.fault k).state ≠ .starting ∧ (s.fault k).state ≠ .stopping) →
      s.run.safe.level = false →
      ∃ (t : State) (w : Nat), exec c s = .next (t.answerOk .B kind tag
          (.mode .run (if s.run.monitor.enabled then .onTime else .off))) ∧
        t = { s with run := t.run, channels := t.channels, engines := t.engines, due := t.due,
                     freeCount := t.freeCount, place := t.place } ∧
        s.mayOpenAt w ∧ (t.place = s.place ∨ t.place = w) ∧
        t.run = { s.run with
          mode := .run
          monitor := if s.run.monitor.enabled then
              { s.run.monitor with state := .onTime, misses := 0,
                                   timer := some (10 * s.run.monitor.deadline) }
            else { s.run.monitor with state := .off, misses := 0, timer := none } } ∧
        (t.due.filter fun e => !e.isAdvance) = (s.due.filter fun e => !e.isAdvance) ∧
        (∀ d, ∃ (x : Channel) (b : Value),
          x = { s.channel d with
            driver := if s.run.mode = .config ∧ (s.channel d).driver = .off then .driving
              else (s.channel d).driver
            limitTicks := if s.run.mode = .config ∧ (s.channel d).driver = .tripped then none
              else (s.channel d).limitTicks } ∧
          b = (match (s.channel d).source with
            | .live => (s.channel d).live
            | .forced => (s.channel d).forced
            | .replay => ⟨0, 0⟩) ∧
          (kindOf d ≠ .pulse ∨ (s.channel d).mode = .wheel ∨ (s.channel d).gen.isSome = true ∨
            0 < (s.channel d).wait ∨ b.value = 0 → t.channel d = x) ∧
          (kindOf d = .pulse → (s.channel d).mode = .free → (s.channel d).gen = none →
            (s.channel d).wait = 0 → b.value ≠ 0 →
              s.startsAt t d b x w)) ∧
        ∀ n, ((s.engine n).current.isSome = true → t.engine n = { s.engine n with state := .running }) ∧
          ((s.engine n).current = none →
            ((s.engine n).queue = [] ∨ ((s.engine n).state ≠ .idle ∧ (s.engine n).state ≠ .underrun)) →
            t.engine n = s.engine n) ∧
          (∀ d rest, (s.engine n).current = none → (s.engine n).queue = d :: rest →
            ((s.engine n).state = .idle ∨ (s.engine n).state = .underrun) →
            t.engine n = { s.engine n with
              state := .running, current := some { d with ready := false }, queue := rest, k := 0, e := 0,
              awaiting := (s.engine n).pacing.isAngle })

/-- STOP: the refusals of R172 in their order, each changing nothing, and what a taken request does (R21, R34, R40,
R147, R165, R173, R182); the pin of a FREE channel goes to the inactive level. That a halted generator shows no clamp is
the model's choice (assumption 15), and so is that its last output stays as its pin moves (assumption 28). Given with no trigger counted and not yet fired at the instant (assumption 6); that
a replay advance and an AT_TIME trigger still due lapse is the model's choice (assumption 21). -/
def Obligations.StopEntersConfig : Prop :=
  ∀ (s : State) (tag : Byte), s.takesNow .B = true → (∀ k, Event.onCapture k ∉ s.due) →
    (s.run.mode = .config → exec (.stop .B tag) s = .next (s.answerNo .B .stop tag .wrongMode)) ∧
    (s.run.mode ≠ .config → ((∃ k, (s.fault k).state.passing = true) ∨
        ∃ c r, ((s.relaySet c).relays.get r).state.moving = true) →
      exec (.stop .B tag) s = .next (s.answerNo .B .stop tag .busy)) ∧
    (s.run.mode ≠ .config → (∀ k, (s.fault k).state.passing = false) →
      (∀ c r, ((s.relaySet c).relays.get r).state.moving = false) →
      ∃ t : State, exec (.stop .B tag) s = .next (t.answerOk .B .stop tag (.modeOnly .config)) ∧
        t = { s with run := t.run, angle := t.angle, channels := t.channels, engines := t.engines,
                     inputs := t.inputs, due := t.due, examineDue := false } ∧
        t.due = s.due.filter (fun e => !e.lapses) ∧
        t.run = { s.run with mode := .config, monitor := { s.run.monitor with timer := none } } ∧
        t.angle = { s.angle with speed := 0, target := 0, active := t.angle.active,
                                 staged := ⟨none, none, none⟩ } ∧
        (∀ q, t.angle.active.get q = (s.angle.staged.get q).getD (s.angle.active.get q)) ∧
        (∀ n, t.engine n = { s.engine n with state := .idle }) ∧
        (∀ i, t.input i = { s.input i with level := none, disagree := 0, runStamp := none,
                                           lastEdge := none, edge := none }) ∧
        ∀ c, ∃ y : Channel,
          y = { s.channel c with
            driver := if (s.channel c).driver = .driving then .off else (s.channel c).driver
            limitTicks := none } ∧
          (kindOf c ≠ .pulse → t.channel c = y) ∧
          (kindOf c = .pulse → t.channel c = { y with
            gen := none, buffer := none, wait := 0, clamped := false
            pin := if y.mode = .free then (if y.inverted then 1 else 0) else y.pin
            pinHeld := decide (y.mode = .wheel ∧ y.pinHeld = true) }))

/-- ENTER_SAFE by mode (R175), and entry to SAFE: the mode, the cause record, SAFE_ENTERED on both ports, the target,
the generators with their pins at the inactive level, the engines, and each fault record in use by its state, with the
FAULT_EVENT of each that becomes DONE; an ACTIVE relay record enters STOPPING and the first step of its stop sequence
(`stopSteps`, R54) is commanded (R20, R34, R100, R113, R146, R174, R182). Given with no trigger counted and not yet fired
at the instant (assumption 6); that a replay advance and an AT_TIME trigger still due lapse is the model's choice
(assumption 21), and so is that a halted generator shows no clamp (assumption 15), that a record whose grant is still to
come at the instant is WAITING as the entry comes (assumption 26), and that the last output of a FREE channel stays as its
pin moves (assumption 28). -/
def Obligations.EnterSafeStopsTheRun : Prop :=
  ∀ (s : State) (tag : Byte), s.takesNow .B = true → (∀ k, Event.onCapture k ∉ s.due) →
    (s.run.mode = .config → exec (.enterSafe .B tag) s = .next (s.answerNo .B .enterSafe tag .wrongMode)) ∧
    (s.run.mode = .safe →
      exec (.enterSafe .B tag) s = .next (s.answerOk .B .enterSafe tag (.modeCause .safe s.run.cause))) ∧
    (s.run.mode = .run →
      ∃ t : State, exec (.enterSafe .B tag) s = .next (t.answerOk .B .enterSafe tag (.modeOnly .safe)) ∧
        t.run = { s.run with mode := .safe, cause := some ⟨.request, s.rigTime⟩,
                             monitor := { s.run.monitor with timer := none } } ∧
        t.portM.sticky.getLsbD 7 = true ∧ t.portB.sticky.getLsbD 7 = true ∧
        t.angle = { s.angle with target := 0 } ∧ t.rigTime = s.rigTime ∧ t.memory = s.memory ∧
        t.inputs = s.inputs ∧ t.segments = s.segments ∧ t.timing = s.timing ∧ t.lastEcho = s.lastEcho ∧
        t.portM.captures = s.portM.captures ∧ t.portB.captures = s.portB.captures ∧
        (∀ n, t.engine n = if (s.engine n).state = .running then { s.engine n with state := .paused }
          else s.engine n) ∧
        (∀ c, (kindOf c ≠ .pulse → t.channel c = s.channel c) ∧
          (kindOf c = .pulse → t.channel c = { s.channel c with
            gen := none, buffer := none, wait := 0, clamped := false
            pin := (t.channel c).pin, pinHeld := (t.channel c).pinHeld })) ∧
        (s.recordLaw →
          t.waitList ++ t.joining = [] ∧ t.due = s.due.filter (fun e => !e.lapses) ∧
          (∀ c, kindOf c = .pulse →
            ((s.channel c).mode = .free →
              (t.channel c).pin = (if (s.channel c).inverted then 1 else 0) ∧ (t.channel c).pinHeld = false) ∧
            ((s.channel c).mode = .wheel →
              (t.channel c).pin = (s.channel c).pin ∧ (t.channel c).pinHeld = (s.channel c).pinHeld)) ∧
          (∀ k,
            ((s.fault k).state = .free ∨ (s.fault k).state = .done ∨ (s.fault k).state = .failed →
              t.fault k = s.fault k) ∧
            ((s.fault k).state = .armed ∨ (s.fault k).state = .waiting →
              t.fault k = { s.fault k with state := .done, frozen := none, seq := none }) ∧
            ((s.fault k).state = .starting ∨ (s.fault k).state = .stopping →
              t.fault k = { s.fault k with releasePending := true }) ∧
            ((s.fault k).state = .active → (s.fault k).kind.electronic = true →
              t.fault k = { s.fault k with
                state := .done, releasePending := true, frozen := none, seq := none
                activations := (s.fault k).activations + 1
                endStamp := some ⟨s.rigTime, angleCount s.angle.phase, s.angle.cycle⟩ }) ∧
            ((s.fault k).state = .active → (s.fault k).kind.electronic = false →
              (t.fault k).releasePending = true ∧
              ((t.fault k).state = .stopping ∨ (t.fault k).state = .done))) ∧
          (s.matrixLaw →
            t = { s with run := t.run, angle := t.angle, channels := t.channels, engines := t.engines,
                         faults := t.faults, relays := t.relays, waitList := [], joining := [],
                         examineDue := t.examineDue, portM := t.portM, portB := t.portB, due := t.due } ∧
            (∀ k, (s.fault k).state = .active → (s.fault k).kind.electronic = false →
              t.fault k = { s.fault k with state := .stopping, releasePending := true, seq := some ⟨true, 0⟩ }) ∧
            (∀ c, t.relaySet c = { s.relaySet c with relays := (t.relaySet c).relays } ∧
              ∀ n, (∀ k pos, (s.fault k).state = .active → (c, n, pos) ∈ (stopSteps (s.fault k)).headD [] →
                  (t.relaySet c).relays.get n =
                    { state := pos.moving, failed := false,
                      movement := some ⟨0, s.timing.settle, s.timing.timeout⟩ }) ∧
                ((∀ k pos, (s.fault k).state = .active → (c, n, pos) ∉ (stopSteps (s.fault k)).headD []) →
                  (t.relaySet c).relays.get n = (s.relaySet c).relays.get n)) ∧
            ∀ p, t.port p = { s.port p with sticky := (t.port p).sticky } ∧
              ∀ b, (t.port p).sticky.getLsbD b = true ↔ (s.port p).sticky.getLsbD b = true ∨ b = 7 ∨
                b = 2 ∧ ∃ k, (s.fault k).notify.has p = true ∧
                  ((s.fault k).state = .armed ∨ (s.fault k).state = .waiting ∨
                    ((s.fault k).state = .active ∧ (s.fault k).kind.electronic = true)))))

/-- SET_DEADLINE (R177): its refusals, the settings written, and the monitor made OFF where it is disabled; the
settings after either reset. That WRONG_MODE comes before BAD_VALUE, for which R177 gives no order, is the model's
choice (assumption 32). -/
def Obligations.SetDeadlineWritesSettings : Prop :=
  (∀ (s : State) (tag : Byte) (en : Bool) (l : BitVec 4) (d : Half), s.takesNow .B = true →
    (s.run.mode ≠ .config →
      exec (.setDeadline .B tag en l d) s = .next (s.answerNo .B .setDeadline tag .wrongMode)) ∧
    (s.run.mode = .config → (d.toNat < 10 ∨ l = 0) →
      exec (.setDeadline .B tag en l d) s = .next (s.answerNo .B .setDeadline tag .badValue)) ∧
    (s.run.mode = .config → 10 ≤ d.toNat → l ≠ 0 →
      ∃ m : Monitor,
        m = { s.run.monitor with
              enabled := en, deadline := d.toNat, limit := l.toNat,
              state := if en then s.run.monitor.state else .off,
              misses := if en then s.run.monitor.misses else 0 } ∧
        exec (.setDeadline .B tag en l d) s =
          .next (({ s with run := { s.run with monitor := m } }).answerOk .B .setDeadline tag (.monitor m)))) ∧
  ∀ s : State, s.powerOn.run.monitor.enabled = false ∧ s.powerOn.run.monitor.deadline = 100 ∧
    s.powerOn.run.monitor.limit = 3 ∧ s.rigReset.run.monitor = s.powerOn.run.monitor

/-- DEADLINE_EXPIRY (R180): a miss is counted and announced on both ports; below the limit the monitor becomes LATE
and its timer restarts; at the limit it becomes LOST and the part enters SAFE, which is announced too (R174). The timer
counts the ticks of RUN alone (R178). An event that is not due changes nothing, which is the model's choice (assumption
7). -/
def Obligations.DeadlineExpires : Prop :=
  (∀ s : State, Event.deadline ∈ s.due → s.run.mode = .run → s.run.monitor.timer = some 0 →
    (s.noPassAfter .deadline → s.run.monitor.misses + 1 < s.run.monitor.limit →
      exec .deadlineExpiry s =
        .next (({ s with due := s.due.erase .deadline, run := { s.run with monitor :=
          { s.run.monitor with misses := s.run.monitor.misses + 1, state := .late,
                               timer := some (10 * s.run.monitor.deadline) } } }).raiseBoth .deadlineMissed)) ∧
    (s.run.monitor.limit ≤ s.run.monitor.misses + 1 →
      ∃ t : State, exec .deadlineExpiry s = .next t ∧
        t.run = { s.run with
          mode := .safe, cause := some ⟨.deadlineLost, s.rigTime⟩,
          monitor := { s.run.monitor with misses := s.run.monitor.misses + 1, state := .lost,
                                          timer := none } } ∧
        (∀ p, (t.port p).sticky.getLsbD 6 = true ∧ (t.port p).sticky.getLsbD 7 = true) ∧
        t.angle = { s.angle with target := 0 } ∧ t.memory = s.memory ∧ t.inputs = s.inputs)) ∧
  (∀ s : State, Event.deadline ∉ s.due → exec .deadlineExpiry s = .next s) ∧
  ∀ s : State, (s.run.mode ≠ .run ∨ s.run.monitor.timer = none → s.tickMonitor = s) ∧
    ∀ n, s.run.mode = .run → s.run.monitor.timer = some (n + 1) →
      s.tickMonitor.run.monitor.timer = some n ∧
      (n = 0 → Event.deadline ∈ s.tickMonitor.due) ∧ (0 < n → s.tickMonitor.due = s.due)

/-! ## Notices (10.5) -/

/-- CLEAR_NOTICES clears the sticky flags of its set on the sending port alone, and from Port B starts the recoveries of
the drivers and of the out-of-service channels (R42, R60, R198, R199); SET_NOTICE_ENABLE writes the mask of the sending
port (R196). What the pin of a returned driver presents until its refresh is the model's choice (assumption 14). -/
def Obligations.NoticesClearedAndEnabled : Prop :=
  ∀ (s : State) (p : Port) (tag : Byte) (w : Word), s.takesNow p = true →
    (512 ≤ w.toNat →
      exec (.clearNotices p tag w) s = .next (s.answerNo p .clearNotices tag .badValue) ∧
      exec (.setNoticeEnable p tag w) s = .next (s.answerNo p .setNoticeEnable tag .badValue)) ∧
    (w.toNat < 512 →
      (∃ q : PortState, q = { s.port p with sticky := (s.port p).sticky &&& ~~~(field w 0 9) } ∧
        (p = .M ∨ (w.getLsbD 3 = false ∧ w.getLsbD 4 = false) →
          exec (.clearNotices p tag w) s =
            .next ((s.updPort p fun _ => q).answerOk p .clearNotices tag
              (.cleared q.flags (decide (q.flags &&& q.enables ≠ 0))))) ∧
        (p = .B →
          ∃ t : State, exec (.clearNotices p tag w) s =
              .next (t.answerOk p .clearNotices tag (.cleared q.flags (decide (q.flags &&& q.enables ≠ 0)))) ∧
            t = { s.updPort p (fun _ => q) with channels := t.channels, relays := t.relays } ∧
            (w.getLsbD 4 = false → t.channels = s.channels) ∧
            (w.getLsbD 4 = true → ∀ c, t.channel c = { s.channel c with driver :=
              if (s.channel c).autoRestore = true ∧ (s.channel c).driver = .tripped then
                (if s.run.mode = .config then .off else .driving) else (s.channel c).driver }) ∧
            (w.getLsbD 3 = false → t.relays = s.relays) ∧
            (w.getLsbD 3 = true → ∀ c,
              ((s.relaySet c).inService = true ∨ (s.channel c).keepOut = true ∨
                  (s.relaySet c).normalising ≠ none ∨ (s.relaySet c).holder ≠ none →
                t.relaySet c = s.relaySet c) ∧
              ((s.relaySet c).inService = false → (s.channel c).keepOut = false →
                (s.relaySet c).normalising = none → (s.relaySet c).holder = none →
                  normalisationBegins s.timing (s.relaySet c) (t.relaySet c))))) ∧
      ∃ q : PortState, q = { s.port p with enables := field w 0 9 } ∧
        exec (.setNoticeEnable p tag w) s =
          .next ((s.updPort p fun _ => q).answerOk p .setNoticeEnable tag
            (.enables (field w 0 9) q.flags (decide (q.flags &&& q.enables ≠ 0)))))

/-! ## What every step keeps -/

/-- Every step keeps the speed and the target in 0..64000 (R7), every pattern table within the limits of R15, every
analog output code in 0..4000 (R25) and every noise source away from 0 (R110). -/
def Obligations.StepKeepsRanges : Prop :=
  (∀ s t : State, s.speedLaw → step s = .next t → t.speedLaw) ∧
  (∀ s t : State, s.tableLaw → step s = .next t → t.tableLaw) ∧
  (∀ s t : State, s.codeLaw → step s = .next t → t.codeLaw) ∧
  ∀ s t : State, s.noiseLaw → step s = .next t → t.noiseLaw

/-- Every step keeps what the part mode says of the drivers (R40), of the FREE generators (R32, R34), of the deadline
timer (R178) and of the live state of the capture inputs (R150, R152, R153), and keeps a start that fell off the grid
to come for a stopped FREE channel in RUN alone, no later than the last place of a request and the next tick (R32,
R34); the fields `wait`, `place` and `edge` are the model's own (assumptions 21 and 23). -/
def Obligations.StepKeepsModeLaws : Prop :=
  (∀ s t : State, s.driverLaw → step s = .next t → t.driverLaw) ∧
  (∀ s t : State, s.generatorLaw → step s = .next t → t.generatorLaw) ∧
  (∀ s t : State, s.generatorLaw → s.startLaw → step s = .next t → t.startLaw) ∧
  (∀ s t : State, s.inputLaw → step s = .next t → t.inputLaw) ∧
  ∀ s t : State, s.timerLaw → step s = .next t → t.timerLaw

/-- Every step keeps Sample Memory canonical and within its addresses, and the DEFINED segments apart (R115, R119). -/
def Obligations.StepKeepsSampleMemory : Prop :=
  (∀ s t : State, s.memoryLaw → step s = .next t → t.memoryLaw) ∧
  ∀ s t : State, s.segmentLaw → step s = .next t → t.segmentLaw

/-- Every step keeps every segment's reference count equal to the number of descriptors, current or queued, that name
it, and every segment with a count above 0 DEFINED (R122). -/
def Obligations.StepKeepsReferenceCounts : Prop :=
  ∀ s t : State, s.refLaw → step s = .next t → t.refLaw

/-- Every step keeps the queues of the engines within 8 ready descriptors with none ready that is current (R130),
RUNNING and PAUSED engines with a current descriptor, in RUN and in SAFE alone (R129, R146, R147), the capture queues
within 128 records, no record later than the one behind it (R157), and the queues of the ports within 8 (R190,
R194). -/
def Obligations.StepKeepsQueues : Prop :=
  (∀ s t : State, s.engineLaw → step s = .next t → t.engineLaw) ∧
  (∀ s t : State, s.playLaw → step s = .next t → t.playLaw) ∧
  (∀ s t : State, s.captureLaw → step s = .next t → t.captureLaw) ∧
  ∀ s t : State, s.queueLaw → step s = .next t → t.queueLaw

/-- Every step keeps the law of the Fault Table in CONFIG (R91) and the law of the relay wait list (R95), with the records
that join at one instant in ascending index (R93). -/
def Obligations.StepKeepsFaultRecords : Prop :=
  ∀ s t : State, s.recordLaw → step s = .next t → t.recordLaw

/-- Every step keeps, of a state that keeps the law of the wait list too, what the Relay Matrix holds: the holders of
channels and cross buses (R53), at most one harness relay of a channel away from open and PATH open before GND or BAT
moves (R56), and where each relay stands on the way of its record's sequence or of its channel's normalisation (R48,
R54 to R58, R60). -/
def Obligations.StepKeepsRelayMatrix : Prop :=
  ∀ s t : State, s.recordLaw → s.matrixLaw → step s = .next t → t.matrixLaw

/-- The laws hold after a power-on reset. -/
def Obligations.LawsHoldAtReset : Prop :=
  State.reset.speedLaw ∧ State.reset.tableLaw ∧ State.reset.codeLaw ∧ State.reset.noiseLaw ∧
    State.reset.driverLaw ∧ State.reset.generatorLaw ∧ State.reset.startLaw ∧ State.reset.inputLaw ∧
    State.reset.timerLaw ∧ State.reset.memoryLaw ∧ State.reset.segmentLaw ∧ State.reset.refLaw ∧
    State.reset.engineLaw ∧ State.reset.playLaw ∧ State.reset.captureLaw ∧ State.reset.queueLaw ∧
    State.reset.recordLaw ∧ State.reset.matrixLaw
end

