-- ==== Sys2Proof/Laws/State.lean ====
section
/-! SUPPORT. One lemma for each field of the state under each of its updates, each true by unfolding the update,
and what a record reads as after an update of its table. -/

namespace Sys2Proof.Machine

variable (s : State)

/-! ## Tables -/

/-- A record of a table changed at one index. -/
theorem updV_get {α : Type} {n : Nat} (v : Vector α n) (i j : Fin n) (f : α → α) :
    (updV v i f).get j = if i = j then f (v.get i) else v.get j := by
  simp [updV, Vector.get_eq_getElem, Vector.getElem_set, Fin.ext_iff]

/-- The changed record of a table. -/
@[simp] theorem updV_get_self {α : Type} {n : Nat} (v : Vector α n) (i : Fin n) (f : α → α) :
    (updV v i f).get i = f (v.get i) := by simp [updV_get]

/-- Another record of a table. -/
@[simp] theorem updV_get_ne {α : Type} {n : Nat} (v : Vector α n) {i j : Fin n} (f : α → α) (h : i ≠ j) :
    (updV v i f).get j = v.get j := by simp [updV_get, h]

/-- Two changes of one record. -/
theorem updV_updV {α : Type} {n : Nat} (v : Vector α n) (i : Fin n) (f g : α → α) :
    updV (updV v i f) i g = updV v i fun x => g (f x) := by
  ext j hj
  by_cases h : i.1 = j
  · subst h; simp [updV, Vector.get_eq_getElem]
  · simp [updV, h]

/-- Two changes that agree on the record they change. -/
theorem updV_congr {α : Type} {n : Nat} {v : Vector α n} {i : Fin n} {f g : α → α}
    (h : f (v.get i) = g (v.get i)) : updV v i f = updV v i g := by simp [updV, h]

/-- A change that leaves its record as it is. -/
theorem updV_self {α : Type} {n : Nat} {v : Vector α n} {i : Fin n} {f : α → α}
    (h : f (v.get i) = v.get i) : updV v i f = v := by
  ext j hj
  by_cases h' : i.1 = j
  · subst h'; simpa [updV, Vector.get_eq_getElem] using h
  · simp [updV, h']

/-- Two tables with the same records are equal. -/
theorem vector_ext_get {α : Type} {n : Nat} {v w : Vector α n} (h : ∀ i : Fin n, v.get i = w.get i) : v = w := by
  ext j hj
  simpa [Vector.get_eq_getElem] using h ⟨j, hj⟩

/-- A record of a table changed throughout. -/
@[simp] theorem mapV_get {α β : Type} {n : Nat} (f : Fin n → α → β) (v : Vector α n) (i : Fin n) :
    (mapV f v).get i = f i (v.get i) := by
  simp [mapV, Vector.get_eq_getElem]

/-! ## Fields -/

@[simp] theorem State.updChannel_rigTime (c : Fin 24) (f : Channel → Channel) : (s.updChannel c f).rigTime = s.rigTime := rfl
@[simp] theorem State.updChannel_halfDone (c : Fin 24) (f : Channel → Channel) : (s.updChannel c f).halfDone = s.halfDone := rfl
@[simp] theorem State.updChannel_angle (c : Fin 24) (f : Channel → Channel) : (s.updChannel c f).angle = s.angle := rfl
@[simp] theorem State.updChannel_channels (c : Fin 24) (f : Channel → Channel) : (s.updChannel c f).channels = updV s.channels c f := rfl
@[simp] theorem State.updChannel_lastEcho (c : Fin 24) (f : Channel → Channel) : (s.updChannel c f).lastEcho = s.lastEcho := rfl
@[simp] theorem State.updChannel_relays (c : Fin 24) (f : Channel → Channel) : (s.updChannel c f).relays = s.relays := rfl
@[simp] theorem State.updChannel_buses (c : Fin 24) (f : Channel → Channel) : (s.updChannel c f).buses = s.buses := rfl
@[simp] theorem State.updChannel_timing (c : Fin 24) (f : Channel → Channel) : (s.updChannel c f).timing = s.timing := rfl
@[simp] theorem State.updChannel_battery (c : Fin 24) (f : Channel → Channel) : (s.updChannel c f).battery = s.battery := rfl
@[simp] theorem State.updChannel_faults (c : Fin 24) (f : Channel → Channel) : (s.updChannel c f).faults = s.faults := rfl
@[simp] theorem State.updChannel_waitList (c : Fin 24) (f : Channel → Channel) : (s.updChannel c f).waitList = s.waitList := rfl
@[simp] theorem State.updChannel_joining (c : Fin 24) (f : Channel → Channel) : (s.updChannel c f).joining = s.joining := rfl
@[simp] theorem State.updChannel_examineDue (c : Fin 24) (f : Channel → Channel) : (s.updChannel c f).examineDue = s.examineDue := rfl
@[simp] theorem State.updChannel_memory (c : Fin 24) (f : Channel → Channel) : (s.updChannel c f).memory = s.memory := rfl
@[simp] theorem State.updChannel_segments (c : Fin 24) (f : Channel → Channel) : (s.updChannel c f).segments = s.segments := rfl
@[simp] theorem State.updChannel_moving (c : Fin 24) (f : Channel → Channel) : (s.updChannel c f).moving = s.moving := rfl
@[simp] theorem State.updChannel_queued (c : Fin 24) (f : Channel → Channel) : (s.updChannel c f).queued = s.queued := rfl
@[simp] theorem State.updChannel_engines (c : Fin 24) (f : Channel → Channel) : (s.updChannel c f).engines = s.engines := rfl
@[simp] theorem State.updChannel_inputs (c : Fin 24) (f : Channel → Channel) : (s.updChannel c f).inputs = s.inputs := rfl
@[simp] theorem State.updChannel_portM (c : Fin 24) (f : Channel → Channel) : (s.updChannel c f).portM = s.portM := rfl
@[simp] theorem State.updChannel_portB (c : Fin 24) (f : Channel → Channel) : (s.updChannel c f).portB = s.portB := rfl
@[simp] theorem State.updChannel_run (c : Fin 24) (f : Channel → Channel) : (s.updChannel c f).run = s.run := rfl
@[simp] theorem State.updChannel_pins (c : Fin 24) (f : Channel → Channel) : (s.updChannel c f).pins = s.pins := rfl
@[simp] theorem State.updChannel_due (c : Fin 24) (f : Channel → Channel) : (s.updChannel c f).due = s.due := rfl
@[simp] theorem State.updChannel_freeCount (c : Fin 24) (f : Channel → Channel) : (s.updChannel c f).freeCount = s.freeCount := rfl
@[simp] theorem State.updChannel_place (c : Fin 24) (f : Channel → Channel) : (s.updChannel c f).place = s.place := rfl
@[simp] theorem State.updChannel_pending (c : Fin 24) (f : Channel → Channel) : (s.updChannel c f).pending = s.pending := rfl

@[simp] theorem State.updRelaySet_rigTime (c : Fin 24) (f : RelaySet → RelaySet) : (s.updRelaySet c f).rigTime = s.rigTime := rfl
@[simp] theorem State.updRelaySet_halfDone (c : Fin 24) (f : RelaySet → RelaySet) : (s.updRelaySet c f).halfDone = s.halfDone := rfl
@[simp] theorem State.updRelaySet_angle (c : Fin 24) (f : RelaySet → RelaySet) : (s.updRelaySet c f).angle = s.angle := rfl
@[simp] theorem State.updRelaySet_channels (c : Fin 24) (f : RelaySet → RelaySet) : (s.updRelaySet c f).channels = s.channels := rfl
@[simp] theorem State.updRelaySet_lastEcho (c : Fin 24) (f : RelaySet → RelaySet) : (s.updRelaySet c f).lastEcho = s.lastEcho := rfl
@[simp] theorem State.updRelaySet_relays (c : Fin 24) (f : RelaySet → RelaySet) : (s.updRelaySet c f).relays = updV s.relays c f := rfl
@[simp] theorem State.updRelaySet_buses (c : Fin 24) (f : RelaySet → RelaySet) : (s.updRelaySet c f).buses = s.buses := rfl
@[simp] theorem State.updRelaySet_timing (c : Fin 24) (f : RelaySet → RelaySet) : (s.updRelaySet c f).timing = s.timing := rfl
@[simp] theorem State.updRelaySet_battery (c : Fin 24) (f : RelaySet → RelaySet) : (s.updRelaySet c f).battery = s.battery := rfl
@[simp] theorem State.updRelaySet_faults (c : Fin 24) (f : RelaySet → RelaySet) : (s.updRelaySet c f).faults = s.faults := rfl
@[simp] theorem State.updRelaySet_waitList (c : Fin 24) (f : RelaySet → RelaySet) : (s.updRelaySet c f).waitList = s.waitList := rfl
@[simp] theorem State.updRelaySet_joining (c : Fin 24) (f : RelaySet → RelaySet) : (s.updRelaySet c f).joining = s.joining := rfl
@[simp] theorem State.updRelaySet_examineDue (c : Fin 24) (f : RelaySet → RelaySet) : (s.updRelaySet c f).examineDue = s.examineDue := rfl
@[simp] theorem State.updRelaySet_memory (c : Fin 24) (f : RelaySet → RelaySet) : (s.updRelaySet c f).memory = s.memory := rfl
@[simp] theorem State.updRelaySet_segments (c : Fin 24) (f : RelaySet → RelaySet) : (s.updRelaySet c f).segments = s.segments := rfl
@[simp] theorem State.updRelaySet_moving (c : Fin 24) (f : RelaySet → RelaySet) : (s.updRelaySet c f).moving = s.moving := rfl
@[simp] theorem State.updRelaySet_queued (c : Fin 24) (f : RelaySet → RelaySet) : (s.updRelaySet c f).queued = s.queued := rfl
@[simp] theorem State.updRelaySet_engines (c : Fin 24) (f : RelaySet → RelaySet) : (s.updRelaySet c f).engines = s.engines := rfl
@[simp] theorem State.updRelaySet_inputs (c : Fin 24) (f : RelaySet → RelaySet) : (s.updRelaySet c f).inputs = s.inputs := rfl
@[simp] theorem State.updRelaySet_portM (c : Fin 24) (f : RelaySet → RelaySet) : (s.updRelaySet c f).portM = s.portM := rfl
@[simp] theorem State.updRelaySet_portB (c : Fin 24) (f : RelaySet → RelaySet) : (s.updRelaySet c f).portB = s.portB := rfl
@[simp] theorem State.updRelaySet_run (c : Fin 24) (f : RelaySet → RelaySet) : (s.updRelaySet c f).run = s.run := rfl
@[simp] theorem State.updRelaySet_pins (c : Fin 24) (f : RelaySet → RelaySet) : (s.updRelaySet c f).pins = s.pins := rfl
@[simp] theorem State.updRelaySet_due (c : Fin 24) (f : RelaySet → RelaySet) : (s.updRelaySet c f).due = s.due := rfl
@[simp] theorem State.updRelaySet_freeCount (c : Fin 24) (f : RelaySet → RelaySet) : (s.updRelaySet c f).freeCount = s.freeCount := rfl
@[simp] theorem State.updRelaySet_place (c : Fin 24) (f : RelaySet → RelaySet) : (s.updRelaySet c f).place = s.place := rfl
@[simp] theorem State.updRelaySet_pending (c : Fin 24) (f : RelaySet → RelaySet) : (s.updRelaySet c f).pending = s.pending := rfl

@[simp] theorem State.updFault_rigTime (k : Fin 64) (f : FaultRecord → FaultRecord) : (s.updFault k f).rigTime = s.rigTime := rfl
@[simp] theorem State.updFault_halfDone (k : Fin 64) (f : FaultRecord → FaultRecord) : (s.updFault k f).halfDone = s.halfDone := rfl
@[simp] theorem State.updFault_angle (k : Fin 64) (f : FaultRecord → FaultRecord) : (s.updFault k f).angle = s.angle := rfl
@[simp] theorem State.updFault_channels (k : Fin 64) (f : FaultRecord → FaultRecord) : (s.updFault k f).channels = s.channels := rfl
@[simp] theorem State.updFault_lastEcho (k : Fin 64) (f : FaultRecord → FaultRecord) : (s.updFault k f).lastEcho = s.lastEcho := rfl
@[simp] theorem State.updFault_relays (k : Fin 64) (f : FaultRecord → FaultRecord) : (s.updFault k f).relays = s.relays := rfl
@[simp] theorem State.updFault_buses (k : Fin 64) (f : FaultRecord → FaultRecord) : (s.updFault k f).buses = s.buses := rfl
@[simp] theorem State.updFault_timing (k : Fin 64) (f : FaultRecord → FaultRecord) : (s.updFault k f).timing = s.timing := rfl
@[simp] theorem State.updFault_battery (k : Fin 64) (f : FaultRecord → FaultRecord) : (s.updFault k f).battery = s.battery := rfl
@[simp] theorem State.updFault_faults (k : Fin 64) (f : FaultRecord → FaultRecord) : (s.updFault k f).faults = updV s.faults k f := rfl
@[simp] theorem State.updFault_waitList (k : Fin 64) (f : FaultRecord → FaultRecord) : (s.updFault k f).waitList = s.waitList := rfl
@[simp] theorem State.updFault_joining (k : Fin 64) (f : FaultRecord → FaultRecord) : (s.updFault k f).joining = s.joining := rfl
@[simp] theorem State.updFault_examineDue (k : Fin 64) (f : FaultRecord → FaultRecord) : (s.updFault k f).examineDue = s.examineDue := rfl
@[simp] theorem State.updFault_memory (k : Fin 64) (f : FaultRecord → FaultRecord) : (s.updFault k f).memory = s.memory := rfl
@[simp] theorem State.updFault_segments (k : Fin 64) (f : FaultRecord → FaultRecord) : (s.updFault k f).segments = s.segments := rfl
@[simp] theorem State.updFault_moving (k : Fin 64) (f : FaultRecord → FaultRecord) : (s.updFault k f).moving = s.moving := rfl
@[simp] theorem State.updFault_queued (k : Fin 64) (f : FaultRecord → FaultRecord) : (s.updFault k f).queued = s.queued := rfl
@[simp] theorem State.updFault_engines (k : Fin 64) (f : FaultRecord → FaultRecord) : (s.updFault k f).engines = s.engines := rfl
@[simp] theorem State.updFault_inputs (k : Fin 64) (f : FaultRecord → FaultRecord) : (s.updFault k f).inputs = s.inputs := rfl
@[simp] theorem State.updFault_portM (k : Fin 64) (f : FaultRecord → FaultRecord) : (s.updFault k f).portM = s.portM := rfl
@[simp] theorem State.updFault_portB (k : Fin 64) (f : FaultRecord → FaultRecord) : (s.updFault k f).portB = s.portB := rfl
@[simp] theorem State.updFault_run (k : Fin 64) (f : FaultRecord → FaultRecord) : (s.updFault k f).run = s.run := rfl
@[simp] theorem State.updFault_pins (k : Fin 64) (f : FaultRecord → FaultRecord) : (s.updFault k f).pins = s.pins := rfl
@[simp] theorem State.updFault_due (k : Fin 64) (f : FaultRecord → FaultRecord) : (s.updFault k f).due = s.due := rfl
@[simp] theorem State.updFault_freeCount (k : Fin 64) (f : FaultRecord → FaultRecord) : (s.updFault k f).freeCount = s.freeCount := rfl
@[simp] theorem State.updFault_place (k : Fin 64) (f : FaultRecord → FaultRecord) : (s.updFault k f).place = s.place := rfl
@[simp] theorem State.updFault_pending (k : Fin 64) (f : FaultRecord → FaultRecord) : (s.updFault k f).pending = s.pending := rfl

@[simp] theorem State.updSegment_rigTime (g : Fin 32) (f : Segment → Segment) : (s.updSegment g f).rigTime = s.rigTime := rfl
@[simp] theorem State.updSegment_halfDone (g : Fin 32) (f : Segment → Segment) : (s.updSegment g f).halfDone = s.halfDone := rfl
@[simp] theorem State.updSegment_angle (g : Fin 32) (f : Segment → Segment) : (s.updSegment g f).angle = s.angle := rfl
@[simp] theorem State.updSegment_channels (g : Fin 32) (f : Segment → Segment) : (s.updSegment g f).channels = s.channels := rfl
@[simp] theorem State.updSegment_lastEcho (g : Fin 32) (f : Segment → Segment) : (s.updSegment g f).lastEcho = s.lastEcho := rfl
@[simp] theorem State.updSegment_relays (g : Fin 32) (f : Segment → Segment) : (s.updSegment g f).relays = s.relays := rfl
@[simp] theorem State.updSegment_buses (g : Fin 32) (f : Segment → Segment) : (s.updSegment g f).buses = s.buses := rfl
@[simp] theorem State.updSegment_timing (g : Fin 32) (f : Segment → Segment) : (s.updSegment g f).timing = s.timing := rfl
@[simp] theorem State.updSegment_battery (g : Fin 32) (f : Segment → Segment) : (s.updSegment g f).battery = s.battery := rfl
@[simp] theorem State.updSegment_faults (g : Fin 32) (f : Segment → Segment) : (s.updSegment g f).faults = s.faults := rfl
@[simp] theorem State.updSegment_waitList (g : Fin 32) (f : Segment → Segment) : (s.updSegment g f).waitList = s.waitList := rfl
@[simp] theorem State.updSegment_joining (g : Fin 32) (f : Segment → Segment) : (s.updSegment g f).joining = s.joining := rfl
@[simp] theorem State.updSegment_examineDue (g : Fin 32) (f : Segment → Segment) : (s.updSegment g f).examineDue = s.examineDue := rfl
@[simp] theorem State.updSegment_memory (g : Fin 32) (f : Segment → Segment) : (s.updSegment g f).memory = s.memory := rfl
@[simp] theorem State.updSegment_segments (g : Fin 32) (f : Segment → Segment) : (s.updSegment g f).segments = updV s.segments g f := rfl
@[simp] theorem State.updSegment_moving (g : Fin 32) (f : Segment → Segment) : (s.updSegment g f).moving = s.moving := rfl
@[simp] theorem State.updSegment_queued (g : Fin 32) (f : Segment → Segment) : (s.updSegment g f).queued = s.queued := rfl
@[simp] theorem State.updSegment_engines (g : Fin 32) (f : Segment → Segment) : (s.updSegment g f).engines = s.engines := rfl
@[simp] theorem State.updSegment_inputs (g : Fin 32) (f : Segment → Segment) : (s.updSegment g f).inputs = s.inputs := rfl
@[simp] theorem State.updSegment_portM (g : Fin 32) (f : Segment → Segment) : (s.updSegment g f).portM = s.portM := rfl
@[simp] theorem State.updSegment_portB (g : Fin 32) (f : Segment → Segment) : (s.updSegment g f).portB = s.portB := rfl
@[simp] theorem State.updSegment_run (g : Fin 32) (f : Segment → Segment) : (s.updSegment g f).run = s.run := rfl
@[simp] theorem State.updSegment_pins (g : Fin 32) (f : Segment → Segment) : (s.updSegment g f).pins = s.pins := rfl
@[simp] theorem State.updSegment_due (g : Fin 32) (f : Segment → Segment) : (s.updSegment g f).due = s.due := rfl
@[simp] theorem State.updSegment_freeCount (g : Fin 32) (f : Segment → Segment) : (s.updSegment g f).freeCount = s.freeCount := rfl
@[simp] theorem State.updSegment_place (g : Fin 32) (f : Segment → Segment) : (s.updSegment g f).place = s.place := rfl
@[simp] theorem State.updSegment_pending (g : Fin 32) (f : Segment → Segment) : (s.updSegment g f).pending = s.pending := rfl

@[simp] theorem State.updEngine_rigTime (n : Fin 4) (f : Engine → Engine) : (s.updEngine n f).rigTime = s.rigTime := rfl
@[simp] theorem State.updEngine_halfDone (n : Fin 4) (f : Engine → Engine) : (s.updEngine n f).halfDone = s.halfDone := rfl
@[simp] theorem State.updEngine_angle (n : Fin 4) (f : Engine → Engine) : (s.updEngine n f).angle = s.angle := rfl
@[simp] theorem State.updEngine_channels (n : Fin 4) (f : Engine → Engine) : (s.updEngine n f).channels = s.channels := rfl
@[simp] theorem State.updEngine_lastEcho (n : Fin 4) (f : Engine → Engine) : (s.updEngine n f).lastEcho = s.lastEcho := rfl
@[simp] theorem State.updEngine_relays (n : Fin 4) (f : Engine → Engine) : (s.updEngine n f).relays = s.relays := rfl
@[simp] theorem State.updEngine_buses (n : Fin 4) (f : Engine → Engine) : (s.updEngine n f).buses = s.buses := rfl
@[simp] theorem State.updEngine_timing (n : Fin 4) (f : Engine → Engine) : (s.updEngine n f).timing = s.timing := rfl
@[simp] theorem State.updEngine_battery (n : Fin 4) (f : Engine → Engine) : (s.updEngine n f).battery = s.battery := rfl
@[simp] theorem State.updEngine_faults (n : Fin 4) (f : Engine → Engine) : (s.updEngine n f).faults = s.faults := rfl
@[simp] theorem State.updEngine_waitList (n : Fin 4) (f : Engine → Engine) : (s.updEngine n f).waitList = s.waitList := rfl
@[simp] theorem State.updEngine_joining (n : Fin 4) (f : Engine → Engine) : (s.updEngine n f).joining = s.joining := rfl
@[simp] theorem State.updEngine_examineDue (n : Fin 4) (f : Engine → Engine) : (s.updEngine n f).examineDue = s.examineDue := rfl
@[simp] theorem State.updEngine_memory (n : Fin 4) (f : Engine → Engine) : (s.updEngine n f).memory = s.memory := rfl
@[simp] theorem State.updEngine_segments (n : Fin 4) (f : Engine → Engine) : (s.updEngine n f).segments = s.segments := rfl
@[simp] theorem State.updEngine_moving (n : Fin 4) (f : Engine → Engine) : (s.updEngine n f).moving = s.moving := rfl
@[simp] theorem State.updEngine_queued (n : Fin 4) (f : Engine → Engine) : (s.updEngine n f).queued = s.queued := rfl
@[simp] theorem State.updEngine_engines (n : Fin 4) (f : Engine → Engine) : (s.updEngine n f).engines = updV s.engines n f := rfl
@[simp] theorem State.updEngine_inputs (n : Fin 4) (f : Engine → Engine) : (s.updEngine n f).inputs = s.inputs := rfl
@[simp] theorem State.updEngine_portM (n : Fin 4) (f : Engine → Engine) : (s.updEngine n f).portM = s.portM := rfl
@[simp] theorem State.updEngine_portB (n : Fin 4) (f : Engine → Engine) : (s.updEngine n f).portB = s.portB := rfl
@[simp] theorem State.updEngine_run (n : Fin 4) (f : Engine → Engine) : (s.updEngine n f).run = s.run := rfl
@[simp] theorem State.updEngine_pins (n : Fin 4) (f : Engine → Engine) : (s.updEngine n f).pins = s.pins := rfl
@[simp] theorem State.updEngine_due (n : Fin 4) (f : Engine → Engine) : (s.updEngine n f).due = s.due := rfl
@[simp] theorem State.updEngine_freeCount (n : Fin 4) (f : Engine → Engine) : (s.updEngine n f).freeCount = s.freeCount := rfl
@[simp] theorem State.updEngine_place (n : Fin 4) (f : Engine → Engine) : (s.updEngine n f).place = s.place := rfl
@[simp] theorem State.updEngine_pending (n : Fin 4) (f : Engine → Engine) : (s.updEngine n f).pending = s.pending := rfl

@[simp] theorem State.updInput_rigTime (i : Fin 16) (f : CaptureInput → CaptureInput) : (s.updInput i f).rigTime = s.rigTime := rfl
@[simp] theorem State.updInput_halfDone (i : Fin 16) (f : CaptureInput → CaptureInput) : (s.updInput i f).halfDone = s.halfDone := rfl
@[simp] theorem State.updInput_angle (i : Fin 16) (f : CaptureInput → CaptureInput) : (s.updInput i f).angle = s.angle := rfl
@[simp] theorem State.updInput_channels (i : Fin 16) (f : CaptureInput → CaptureInput) : (s.updInput i f).channels = s.channels := rfl
@[simp] theorem State.updInput_lastEcho (i : Fin 16) (f : CaptureInput → CaptureInput) : (s.updInput i f).lastEcho = s.lastEcho := rfl
@[simp] theorem State.updInput_relays (i : Fin 16) (f : CaptureInput → CaptureInput) : (s.updInput i f).relays = s.relays := rfl
@[simp] theorem State.updInput_buses (i : Fin 16) (f : CaptureInput → CaptureInput) : (s.updInput i f).buses = s.buses := rfl
@[simp] theorem State.updInput_timing (i : Fin 16) (f : CaptureInput → CaptureInput) : (s.updInput i f).timing = s.timing := rfl
@[simp] theorem State.updInput_battery (i : Fin 16) (f : CaptureInput → CaptureInput) : (s.updInput i f).battery = s.battery := rfl
@[simp] theorem State.updInput_faults (i : Fin 16) (f : CaptureInput → CaptureInput) : (s.updInput i f).faults = s.faults := rfl
@[simp] theorem State.updInput_waitList (i : Fin 16) (f : CaptureInput → CaptureInput) : (s.updInput i f).waitList = s.waitList := rfl
@[simp] theorem State.updInput_joining (i : Fin 16) (f : CaptureInput → CaptureInput) : (s.updInput i f).joining = s.joining := rfl
@[simp] theorem State.updInput_examineDue (i : Fin 16) (f : CaptureInput → CaptureInput) : (s.updInput i f).examineDue = s.examineDue := rfl
@[simp] theorem State.updInput_memory (i : Fin 16) (f : CaptureInput → CaptureInput) : (s.updInput i f).memory = s.memory := rfl
@[simp] theorem State.updInput_segments (i : Fin 16) (f : CaptureInput → CaptureInput) : (s.updInput i f).segments = s.segments := rfl
@[simp] theorem State.updInput_moving (i : Fin 16) (f : CaptureInput → CaptureInput) : (s.updInput i f).moving = s.moving := rfl
@[simp] theorem State.updInput_queued (i : Fin 16) (f : CaptureInput → CaptureInput) : (s.updInput i f).queued = s.queued := rfl
@[simp] theorem State.updInput_engines (i : Fin 16) (f : CaptureInput → CaptureInput) : (s.updInput i f).engines = s.engines := rfl
@[simp] theorem State.updInput_inputs (i : Fin 16) (f : CaptureInput → CaptureInput) : (s.updInput i f).inputs = updV s.inputs i f := rfl
@[simp] theorem State.updInput_portM (i : Fin 16) (f : CaptureInput → CaptureInput) : (s.updInput i f).portM = s.portM := rfl
@[simp] theorem State.updInput_portB (i : Fin 16) (f : CaptureInput → CaptureInput) : (s.updInput i f).portB = s.portB := rfl
@[simp] theorem State.updInput_run (i : Fin 16) (f : CaptureInput → CaptureInput) : (s.updInput i f).run = s.run := rfl
@[simp] theorem State.updInput_pins (i : Fin 16) (f : CaptureInput → CaptureInput) : (s.updInput i f).pins = s.pins := rfl
@[simp] theorem State.updInput_due (i : Fin 16) (f : CaptureInput → CaptureInput) : (s.updInput i f).due = s.due := rfl
@[simp] theorem State.updInput_freeCount (i : Fin 16) (f : CaptureInput → CaptureInput) : (s.updInput i f).freeCount = s.freeCount := rfl
@[simp] theorem State.updInput_place (i : Fin 16) (f : CaptureInput → CaptureInput) : (s.updInput i f).place = s.place := rfl
@[simp] theorem State.updInput_pending (i : Fin 16) (f : CaptureInput → CaptureInput) : (s.updInput i f).pending = s.pending := rfl

@[simp] theorem State.updRun_rigTime (f : RunControl → RunControl) : (s.updRun f).rigTime = s.rigTime := rfl
@[simp] theorem State.updRun_halfDone (f : RunControl → RunControl) : (s.updRun f).halfDone = s.halfDone := rfl
@[simp] theorem State.updRun_angle (f : RunControl → RunControl) : (s.updRun f).angle = s.angle := rfl
@[simp] theorem State.updRun_channels (f : RunControl → RunControl) : (s.updRun f).channels = s.channels := rfl
@[simp] theorem State.updRun_lastEcho (f : RunControl → RunControl) : (s.updRun f).lastEcho = s.lastEcho := rfl
@[simp] theorem State.updRun_relays (f : RunControl → RunControl) : (s.updRun f).relays = s.relays := rfl
@[simp] theorem State.updRun_buses (f : RunControl → RunControl) : (s.updRun f).buses = s.buses := rfl
@[simp] theorem State.updRun_timing (f : RunControl → RunControl) : (s.updRun f).timing = s.timing := rfl
@[simp] theorem State.updRun_battery (f : RunControl → RunControl) : (s.updRun f).battery = s.battery := rfl
@[simp] theorem State.updRun_faults (f : RunControl → RunControl) : (s.updRun f).faults = s.faults := rfl
@[simp] theorem State.updRun_waitList (f : RunControl → RunControl) : (s.updRun f).waitList = s.waitList := rfl
@[simp] theorem State.updRun_joining (f : RunControl → RunControl) : (s.updRun f).joining = s.joining := rfl
@[simp] theorem State.updRun_examineDue (f : RunControl → RunControl) : (s.updRun f).examineDue = s.examineDue := rfl
@[simp] theorem State.updRun_memory (f : RunControl → RunControl) : (s.updRun f).memory = s.memory := rfl
@[simp] theorem State.updRun_segments (f : RunControl → RunControl) : (s.updRun f).segments = s.segments := rfl
@[simp] theorem State.updRun_moving (f : RunControl → RunControl) : (s.updRun f).moving = s.moving := rfl
@[simp] theorem State.updRun_queued (f : RunControl → RunControl) : (s.updRun f).queued = s.queued := rfl
@[simp] theorem State.updRun_engines (f : RunControl → RunControl) : (s.updRun f).engines = s.engines := rfl
@[simp] theorem State.updRun_inputs (f : RunControl → RunControl) : (s.updRun f).inputs = s.inputs := rfl
@[simp] theorem State.updRun_portM (f : RunControl → RunControl) : (s.updRun f).portM = s.portM := rfl
@[simp] theorem State.updRun_portB (f : RunControl → RunControl) : (s.updRun f).portB = s.portB := rfl
@[simp] theorem State.updRun_run (f : RunControl → RunControl) : (s.updRun f).run = f s.run := rfl
@[simp] theorem State.updRun_pins (f : RunControl → RunControl) : (s.updRun f).pins = s.pins := rfl
@[simp] theorem State.updRun_due (f : RunControl → RunControl) : (s.updRun f).due = s.due := rfl
@[simp] theorem State.updRun_freeCount (f : RunControl → RunControl) : (s.updRun f).freeCount = s.freeCount := rfl
@[simp] theorem State.updRun_place (f : RunControl → RunControl) : (s.updRun f).place = s.place := rfl
@[simp] theorem State.updRun_pending (f : RunControl → RunControl) : (s.updRun f).pending = s.pending := rfl

@[simp] theorem State.updAngle_rigTime (f : AngleBase → AngleBase) : (s.updAngle f).rigTime = s.rigTime := rfl
@[simp] theorem State.updAngle_halfDone (f : AngleBase → AngleBase) : (s.updAngle f).halfDone = s.halfDone := rfl
@[simp] theorem State.updAngle_angle (f : AngleBase → AngleBase) : (s.updAngle f).angle = f s.angle := rfl
@[simp] theorem State.updAngle_channels (f : AngleBase → AngleBase) : (s.updAngle f).channels = s.channels := rfl
@[simp] theorem State.updAngle_lastEcho (f : AngleBase → AngleBase) : (s.updAngle f).lastEcho = s.lastEcho := rfl
@[simp] theorem State.updAngle_relays (f : AngleBase → AngleBase) : (s.updAngle f).relays = s.relays := rfl
@[simp] theorem State.updAngle_buses (f : AngleBase → AngleBase) : (s.updAngle f).buses = s.buses := rfl
@[simp] theorem State.updAngle_timing (f : AngleBase → AngleBase) : (s.updAngle f).timing = s.timing := rfl
@[simp] theorem State.updAngle_battery (f : AngleBase → AngleBase) : (s.updAngle f).battery = s.battery := rfl
@[simp] theorem State.updAngle_faults (f : AngleBase → AngleBase) : (s.updAngle f).faults = s.faults := rfl
@[simp] theorem State.updAngle_waitList (f : AngleBase → AngleBase) : (s.updAngle f).waitList = s.waitList := rfl
@[simp] theorem State.updAngle_joining (f : AngleBase → AngleBase) : (s.updAngle f).joining = s.joining := rfl
@[simp] theorem State.updAngle_examineDue (f : AngleBase → AngleBase) : (s.updAngle f).examineDue = s.examineDue := rfl
@[simp] theorem State.updAngle_memory (f : AngleBase → AngleBase) : (s.updAngle f).memory = s.memory := rfl
@[simp] theorem State.updAngle_segments (f : AngleBase → AngleBase) : (s.updAngle f).segments = s.segments := rfl
@[simp] theorem State.updAngle_moving (f : AngleBase → AngleBase) : (s.updAngle f).moving = s.moving := rfl
@[simp] theorem State.updAngle_queued (f : AngleBase → AngleBase) : (s.updAngle f).queued = s.queued := rfl
@[simp] theorem State.updAngle_engines (f : AngleBase → AngleBase) : (s.updAngle f).engines = s.engines := rfl
@[simp] theorem State.updAngle_inputs (f : AngleBase → AngleBase) : (s.updAngle f).inputs = s.inputs := rfl
@[simp] theorem State.updAngle_portM (f : AngleBase → AngleBase) : (s.updAngle f).portM = s.portM := rfl
@[simp] theorem State.updAngle_portB (f : AngleBase → AngleBase) : (s.updAngle f).portB = s.portB := rfl
@[simp] theorem State.updAngle_run (f : AngleBase → AngleBase) : (s.updAngle f).run = s.run := rfl
@[simp] theorem State.updAngle_pins (f : AngleBase → AngleBase) : (s.updAngle f).pins = s.pins := rfl
@[simp] theorem State.updAngle_due (f : AngleBase → AngleBase) : (s.updAngle f).due = s.due := rfl
@[simp] theorem State.updAngle_freeCount (f : AngleBase → AngleBase) : (s.updAngle f).freeCount = s.freeCount := rfl
@[simp] theorem State.updAngle_place (f : AngleBase → AngleBase) : (s.updAngle f).place = s.place := rfl
@[simp] theorem State.updAngle_pending (f : AngleBase → AngleBase) : (s.updAngle f).pending = s.pending := rfl

@[simp] theorem State.addDue_rigTime (l : List Event) : (s.addDue l).rigTime = s.rigTime := rfl
@[simp] theorem State.addDue_halfDone (l : List Event) : (s.addDue l).halfDone = s.halfDone := rfl
@[simp] theorem State.addDue_angle (l : List Event) : (s.addDue l).angle = s.angle := rfl
@[simp] theorem State.addDue_channels (l : List Event) : (s.addDue l).channels = s.channels := rfl
@[simp] theorem State.addDue_lastEcho (l : List Event) : (s.addDue l).lastEcho = s.lastEcho := rfl
@[simp] theorem State.addDue_relays (l : List Event) : (s.addDue l).relays = s.relays := rfl
@[simp] theorem State.addDue_buses (l : List Event) : (s.addDue l).buses = s.buses := rfl
@[simp] theorem State.addDue_timing (l : List Event) : (s.addDue l).timing = s.timing := rfl
@[simp] theorem State.addDue_battery (l : List Event) : (s.addDue l).battery = s.battery := rfl
@[simp] theorem State.addDue_faults (l : List Event) : (s.addDue l).faults = s.faults := rfl
@[simp] theorem State.addDue_waitList (l : List Event) : (s.addDue l).waitList = s.waitList := rfl
@[simp] theorem State.addDue_joining (l : List Event) : (s.addDue l).joining = s.joining := rfl
@[simp] theorem State.addDue_examineDue (l : List Event) : (s.addDue l).examineDue = s.examineDue := rfl
@[simp] theorem State.addDue_memory (l : List Event) : (s.addDue l).memory = s.memory := rfl
@[simp] theorem State.addDue_segments (l : List Event) : (s.addDue l).segments = s.segments := rfl
@[simp] theorem State.addDue_moving (l : List Event) : (s.addDue l).moving = s.moving := rfl
@[simp] theorem State.addDue_queued (l : List Event) : (s.addDue l).queued = s.queued := rfl
@[simp] theorem State.addDue_engines (l : List Event) : (s.addDue l).engines = s.engines := rfl
@[simp] theorem State.addDue_inputs (l : List Event) : (s.addDue l).inputs = s.inputs := rfl
@[simp] theorem State.addDue_portM (l : List Event) : (s.addDue l).portM = s.portM := rfl
@[simp] theorem State.addDue_portB (l : List Event) : (s.addDue l).portB = s.portB := rfl
@[simp] theorem State.addDue_run (l : List Event) : (s.addDue l).run = s.run := rfl
@[simp] theorem State.addDue_pins (l : List Event) : (s.addDue l).pins = s.pins := rfl
@[simp] theorem State.addDue_due (l : List Event) : (s.addDue l).due = s.due ++ l := rfl
@[simp] theorem State.addDue_freeCount (l : List Event) : (s.addDue l).freeCount = s.freeCount := rfl
@[simp] theorem State.addDue_place (l : List Event) : (s.addDue l).place = s.place := rfl
@[simp] theorem State.addDue_pending (l : List Event) : (s.addDue l).pending = s.pending := rfl

@[simp] theorem State.dropDue_rigTime (q : Event → Bool) : (s.dropDue q).rigTime = s.rigTime := rfl
@[simp] theorem State.dropDue_halfDone (q : Event → Bool) : (s.dropDue q).halfDone = s.halfDone := rfl
@[simp] theorem State.dropDue_angle (q : Event → Bool) : (s.dropDue q).angle = s.angle := rfl
@[simp] theorem State.dropDue_channels (q : Event → Bool) : (s.dropDue q).channels = s.channels := rfl
@[simp] theorem State.dropDue_lastEcho (q : Event → Bool) : (s.dropDue q).lastEcho = s.lastEcho := rfl
@[simp] theorem State.dropDue_relays (q : Event → Bool) : (s.dropDue q).relays = s.relays := rfl
@[simp] theorem State.dropDue_buses (q : Event → Bool) : (s.dropDue q).buses = s.buses := rfl
@[simp] theorem State.dropDue_timing (q : Event → Bool) : (s.dropDue q).timing = s.timing := rfl
@[simp] theorem State.dropDue_battery (q : Event → Bool) : (s.dropDue q).battery = s.battery := rfl
@[simp] theorem State.dropDue_faults (q : Event → Bool) : (s.dropDue q).faults = s.faults := rfl
@[simp] theorem State.dropDue_waitList (q : Event → Bool) : (s.dropDue q).waitList = s.waitList := rfl
@[simp] theorem State.dropDue_joining (q : Event → Bool) : (s.dropDue q).joining = s.joining := rfl
@[simp] theorem State.dropDue_examineDue (q : Event → Bool) : (s.dropDue q).examineDue = s.examineDue := rfl
@[simp] theorem State.dropDue_memory (q : Event → Bool) : (s.dropDue q).memory = s.memory := rfl
@[simp] theorem State.dropDue_segments (q : Event → Bool) : (s.dropDue q).segments = s.segments := rfl
@[simp] theorem State.dropDue_moving (q : Event → Bool) : (s.dropDue q).moving = s.moving := rfl
@[simp] theorem State.dropDue_queued (q : Event → Bool) : (s.dropDue q).queued = s.queued := rfl
@[simp] theorem State.dropDue_engines (q : Event → Bool) : (s.dropDue q).engines = s.engines := rfl
@[simp] theorem State.dropDue_inputs (q : Event → Bool) : (s.dropDue q).inputs = s.inputs := rfl
@[simp] theorem State.dropDue_portM (q : Event → Bool) : (s.dropDue q).portM = s.portM := rfl
@[simp] theorem State.dropDue_portB (q : Event → Bool) : (s.dropDue q).portB = s.portB := rfl
@[simp] theorem State.dropDue_run (q : Event → Bool) : (s.dropDue q).run = s.run := rfl
@[simp] theorem State.dropDue_pins (q : Event → Bool) : (s.dropDue q).pins = s.pins := rfl
@[simp] theorem State.dropDue_due (q : Event → Bool) : (s.dropDue q).due = s.due.filter fun e => !q e := rfl
@[simp] theorem State.dropDue_freeCount (q : Event → Bool) : (s.dropDue q).freeCount = s.freeCount := rfl
@[simp] theorem State.dropDue_place (q : Event → Bool) : (s.dropDue q).place = s.place := rfl
@[simp] theorem State.dropDue_pending (q : Event → Bool) : (s.dropDue q).pending = s.pending := rfl

@[simp] theorem State.took_rigTime (e : Event) : (s.took e).rigTime = s.rigTime := rfl
@[simp] theorem State.took_halfDone (e : Event) : (s.took e).halfDone = s.halfDone := rfl
@[simp] theorem State.took_angle (e : Event) : (s.took e).angle = s.angle := rfl
@[simp] theorem State.took_channels (e : Event) : (s.took e).channels = s.channels := rfl
@[simp] theorem State.took_lastEcho (e : Event) : (s.took e).lastEcho = s.lastEcho := rfl
@[simp] theorem State.took_relays (e : Event) : (s.took e).relays = s.relays := rfl
@[simp] theorem State.took_buses (e : Event) : (s.took e).buses = s.buses := rfl
@[simp] theorem State.took_timing (e : Event) : (s.took e).timing = s.timing := rfl
@[simp] theorem State.took_battery (e : Event) : (s.took e).battery = s.battery := rfl
@[simp] theorem State.took_faults (e : Event) : (s.took e).faults = s.faults := rfl
@[simp] theorem State.took_waitList (e : Event) : (s.took e).waitList = s.waitList := rfl
@[simp] theorem State.took_joining (e : Event) : (s.took e).joining = s.joining := rfl
@[simp] theorem State.took_examineDue (e : Event) : (s.took e).examineDue = s.examineDue := rfl
@[simp] theorem State.took_memory (e : Event) : (s.took e).memory = s.memory := rfl
@[simp] theorem State.took_segments (e : Event) : (s.took e).segments = s.segments := rfl
@[simp] theorem State.took_moving (e : Event) : (s.took e).moving = s.moving := rfl
@[simp] theorem State.took_queued (e : Event) : (s.took e).queued = s.queued := rfl
@[simp] theorem State.took_engines (e : Event) : (s.took e).engines = s.engines := rfl
@[simp] theorem State.took_inputs (e : Event) : (s.took e).inputs = s.inputs := rfl
@[simp] theorem State.took_portM (e : Event) : (s.took e).portM = s.portM := rfl
@[simp] theorem State.took_portB (e : Event) : (s.took e).portB = s.portB := rfl
@[simp] theorem State.took_run (e : Event) : (s.took e).run = s.run := rfl
@[simp] theorem State.took_pins (e : Event) : (s.took e).pins = s.pins := rfl
@[simp] theorem State.took_due (e : Event) : (s.took e).due = s.due.erase e := rfl
@[simp] theorem State.took_freeCount (e : Event) : (s.took e).freeCount = s.freeCount := rfl
@[simp] theorem State.took_place (e : Event) : (s.took e).place = s.place := rfl
@[simp] theorem State.took_pending (e : Event) : (s.took e).pending = s.pending := rfl

@[simp] theorem State.useFree_rigTime : (s.useFree).rigTime = s.rigTime := rfl
@[simp] theorem State.useFree_halfDone : (s.useFree).halfDone = s.halfDone := rfl
@[simp] theorem State.useFree_angle : (s.useFree).angle = s.angle := rfl
@[simp] theorem State.useFree_channels : (s.useFree).channels = s.channels := rfl
@[simp] theorem State.useFree_lastEcho : (s.useFree).lastEcho = s.lastEcho := rfl
@[simp] theorem State.useFree_relays : (s.useFree).relays = s.relays := rfl
@[simp] theorem State.useFree_buses : (s.useFree).buses = s.buses := rfl
@[simp] theorem State.useFree_timing : (s.useFree).timing = s.timing := rfl
@[simp] theorem State.useFree_battery : (s.useFree).battery = s.battery := rfl
@[simp] theorem State.useFree_faults : (s.useFree).faults = s.faults := rfl
@[simp] theorem State.useFree_waitList : (s.useFree).waitList = s.waitList := rfl
@[simp] theorem State.useFree_joining : (s.useFree).joining = s.joining := rfl
@[simp] theorem State.useFree_examineDue : (s.useFree).examineDue = s.examineDue := rfl
@[simp] theorem State.useFree_memory : (s.useFree).memory = s.memory := rfl
@[simp] theorem State.useFree_segments : (s.useFree).segments = s.segments := rfl
@[simp] theorem State.useFree_moving : (s.useFree).moving = s.moving := rfl
@[simp] theorem State.useFree_queued : (s.useFree).queued = s.queued := rfl
@[simp] theorem State.useFree_engines : (s.useFree).engines = s.engines := rfl
@[simp] theorem State.useFree_inputs : (s.useFree).inputs = s.inputs := rfl
@[simp] theorem State.useFree_portM : (s.useFree).portM = s.portM := rfl
@[simp] theorem State.useFree_portB : (s.useFree).portB = s.portB := rfl
@[simp] theorem State.useFree_run : (s.useFree).run = s.run := rfl
@[simp] theorem State.useFree_pins : (s.useFree).pins = s.pins := rfl
@[simp] theorem State.useFree_due : (s.useFree).due = s.due := rfl
@[simp] theorem State.useFree_freeCount : (s.useFree).freeCount = s.freeCount + 1 := rfl
@[simp] theorem State.useFree_place : (s.useFree).place = s.place := rfl
@[simp] theorem State.useFree_pending : (s.useFree).pending = s.pending := rfl

@[simp] theorem State.usePlace_rigTime (w : Nat) : (s.usePlace w).rigTime = s.rigTime := rfl
@[simp] theorem State.usePlace_halfDone (w : Nat) : (s.usePlace w).halfDone = s.halfDone := rfl
@[simp] theorem State.usePlace_angle (w : Nat) : (s.usePlace w).angle = s.angle := rfl
@[simp] theorem State.usePlace_channels (w : Nat) : (s.usePlace w).channels = s.channels := rfl
@[simp] theorem State.usePlace_lastEcho (w : Nat) : (s.usePlace w).lastEcho = s.lastEcho := rfl
@[simp] theorem State.usePlace_relays (w : Nat) : (s.usePlace w).relays = s.relays := rfl
@[simp] theorem State.usePlace_buses (w : Nat) : (s.usePlace w).buses = s.buses := rfl
@[simp] theorem State.usePlace_timing (w : Nat) : (s.usePlace w).timing = s.timing := rfl
@[simp] theorem State.usePlace_battery (w : Nat) : (s.usePlace w).battery = s.battery := rfl
@[simp] theorem State.usePlace_faults (w : Nat) : (s.usePlace w).faults = s.faults := rfl
@[simp] theorem State.usePlace_waitList (w : Nat) : (s.usePlace w).waitList = s.waitList := rfl
@[simp] theorem State.usePlace_joining (w : Nat) : (s.usePlace w).joining = s.joining := rfl
@[simp] theorem State.usePlace_examineDue (w : Nat) : (s.usePlace w).examineDue = s.examineDue := rfl
@[simp] theorem State.usePlace_memory (w : Nat) : (s.usePlace w).memory = s.memory := rfl
@[simp] theorem State.usePlace_segments (w : Nat) : (s.usePlace w).segments = s.segments := rfl
@[simp] theorem State.usePlace_moving (w : Nat) : (s.usePlace w).moving = s.moving := rfl
@[simp] theorem State.usePlace_queued (w : Nat) : (s.usePlace w).queued = s.queued := rfl
@[simp] theorem State.usePlace_engines (w : Nat) : (s.usePlace w).engines = s.engines := rfl
@[simp] theorem State.usePlace_inputs (w : Nat) : (s.usePlace w).inputs = s.inputs := rfl
@[simp] theorem State.usePlace_portM (w : Nat) : (s.usePlace w).portM = s.portM := rfl
@[simp] theorem State.usePlace_portB (w : Nat) : (s.usePlace w).portB = s.portB := rfl
@[simp] theorem State.usePlace_run (w : Nat) : (s.usePlace w).run = s.run := rfl
@[simp] theorem State.usePlace_pins (w : Nat) : (s.usePlace w).pins = s.pins := rfl
@[simp] theorem State.usePlace_due (w : Nat) : (s.usePlace w).due = s.due := rfl
@[simp] theorem State.usePlace_freeCount (w : Nat) : (s.usePlace w).freeCount = s.freeCount + 1 := rfl
@[simp] theorem State.usePlace_place (w : Nat) : (s.usePlace w).place = w := rfl
@[simp] theorem State.usePlace_pending (w : Nat) : (s.usePlace w).pending = s.pending := rfl

@[simp] theorem State.withPending_rigTime (l : List Instr) : (s.withPending l).rigTime = s.rigTime := rfl
@[simp] theorem State.withPending_halfDone (l : List Instr) : (s.withPending l).halfDone = s.halfDone := rfl
@[simp] theorem State.withPending_angle (l : List Instr) : (s.withPending l).angle = s.angle := rfl
@[simp] theorem State.withPending_channels (l : List Instr) : (s.withPending l).channels = s.channels := rfl
@[simp] theorem State.withPending_lastEcho (l : List Instr) : (s.withPending l).lastEcho = s.lastEcho := rfl
@[simp] theorem State.withPending_relays (l : List Instr) : (s.withPending l).relays = s.relays := rfl
@[simp] theorem State.withPending_buses (l : List Instr) : (s.withPending l).buses = s.buses := rfl
@[simp] theorem State.withPending_timing (l : List Instr) : (s.withPending l).timing = s.timing := rfl
@[simp] theorem State.withPending_battery (l : List Instr) : (s.withPending l).battery = s.battery := rfl
@[simp] theorem State.withPending_faults (l : List Instr) : (s.withPending l).faults = s.faults := rfl
@[simp] theorem State.withPending_waitList (l : List Instr) : (s.withPending l).waitList = s.waitList := rfl
@[simp] theorem State.withPending_joining (l : List Instr) : (s.withPending l).joining = s.joining := rfl
@[simp] theorem State.withPending_examineDue (l : List Instr) : (s.withPending l).examineDue = s.examineDue := rfl
@[simp] theorem State.withPending_memory (l : List Instr) : (s.withPending l).memory = s.memory := rfl
@[simp] theorem State.withPending_segments (l : List Instr) : (s.withPending l).segments = s.segments := rfl
@[simp] theorem State.withPending_moving (l : List Instr) : (s.withPending l).moving = s.moving := rfl
@[simp] theorem State.withPending_queued (l : List Instr) : (s.withPending l).queued = s.queued := rfl
@[simp] theorem State.withPending_engines (l : List Instr) : (s.withPending l).engines = s.engines := rfl
@[simp] theorem State.withPending_inputs (l : List Instr) : (s.withPending l).inputs = s.inputs := rfl
@[simp] theorem State.withPending_portM (l : List Instr) : (s.withPending l).portM = s.portM := rfl
@[simp] theorem State.withPending_portB (l : List Instr) : (s.withPending l).portB = s.portB := rfl
@[simp] theorem State.withPending_run (l : List Instr) : (s.withPending l).run = s.run := rfl
@[simp] theorem State.withPending_pins (l : List Instr) : (s.withPending l).pins = s.pins := rfl
@[simp] theorem State.withPending_due (l : List Instr) : (s.withPending l).due = s.due := rfl
@[simp] theorem State.withPending_freeCount (l : List Instr) : (s.withPending l).freeCount = s.freeCount := rfl
@[simp] theorem State.withPending_place (l : List Instr) : (s.withPending l).place = s.place := rfl
@[simp] theorem State.withPending_pending (l : List Instr) : (s.withPending l).pending = l := rfl

@[simp] theorem State.setResetLine_rigTime (b : Bool) : (s.setResetLine b).rigTime = s.rigTime := rfl
@[simp] theorem State.setResetLine_halfDone (b : Bool) : (s.setResetLine b).halfDone = s.halfDone := rfl
@[simp] theorem State.setResetLine_angle (b : Bool) : (s.setResetLine b).angle = s.angle := rfl
@[simp] theorem State.setResetLine_channels (b : Bool) : (s.setResetLine b).channels = s.channels := rfl
@[simp] theorem State.setResetLine_lastEcho (b : Bool) : (s.setResetLine b).lastEcho = s.lastEcho := rfl
@[simp] theorem State.setResetLine_relays (b : Bool) : (s.setResetLine b).relays = s.relays := rfl
@[simp] theorem State.setResetLine_buses (b : Bool) : (s.setResetLine b).buses = s.buses := rfl
@[simp] theorem State.setResetLine_timing (b : Bool) : (s.setResetLine b).timing = s.timing := rfl
@[simp] theorem State.setResetLine_battery (b : Bool) : (s.setResetLine b).battery = s.battery := rfl
@[simp] theorem State.setResetLine_faults (b : Bool) : (s.setResetLine b).faults = s.faults := rfl
@[simp] theorem State.setResetLine_waitList (b : Bool) : (s.setResetLine b).waitList = s.waitList := rfl
@[simp] theorem State.setResetLine_joining (b : Bool) : (s.setResetLine b).joining = s.joining := rfl
@[simp] theorem State.setResetLine_examineDue (b : Bool) : (s.setResetLine b).examineDue = s.examineDue := rfl
@[simp] theorem State.setResetLine_memory (b : Bool) : (s.setResetLine b).memory = s.memory := rfl
@[simp] theorem State.setResetLine_segments (b : Bool) : (s.setResetLine b).segments = s.segments := rfl
@[simp] theorem State.setResetLine_moving (b : Bool) : (s.setResetLine b).moving = s.moving := rfl
@[simp] theorem State.setResetLine_queued (b : Bool) : (s.setResetLine b).queued = s.queued := rfl
@[simp] theorem State.setResetLine_engines (b : Bool) : (s.setResetLine b).engines = s.engines := rfl
@[simp] theorem State.setResetLine_inputs (b : Bool) : (s.setResetLine b).inputs = s.inputs := rfl
@[simp] theorem State.setResetLine_portM (b : Bool) : (s.setResetLine b).portM = s.portM := rfl
@[simp] theorem State.setResetLine_portB (b : Bool) : (s.setResetLine b).portB = s.portB := rfl
@[simp] theorem State.setResetLine_run (b : Bool) : (s.setResetLine b).run = s.run := rfl
@[simp] theorem State.setResetLine_pins (b : Bool) : (s.setResetLine b).pins = { s.pins with resetLine := b } := rfl
@[simp] theorem State.setResetLine_due (b : Bool) : (s.setResetLine b).due = s.due := rfl
@[simp] theorem State.setResetLine_freeCount (b : Bool) : (s.setResetLine b).freeCount = s.freeCount := rfl
@[simp] theorem State.setResetLine_place (b : Bool) : (s.setResetLine b).place = s.place := rfl
@[simp] theorem State.setResetLine_pending (b : Bool) : (s.setResetLine b).pending = s.pending := rfl

@[simp] theorem State.updPort_rigTime (p : Port) (f : PortState → PortState) : (s.updPort p f).rigTime = s.rigTime := by
  cases p <;> rfl
@[simp] theorem State.updPort_halfDone (p : Port) (f : PortState → PortState) : (s.updPort p f).halfDone = s.halfDone := by
  cases p <;> rfl
@[simp] theorem State.updPort_angle (p : Port) (f : PortState → PortState) : (s.updPort p f).angle = s.angle := by
  cases p <;> rfl
@[simp] theorem State.updPort_channels (p : Port) (f : PortState → PortState) : (s.updPort p f).channels = s.channels := by
  cases p <;> rfl
@[simp] theorem State.updPort_lastEcho (p : Port) (f : PortState → PortState) : (s.updPort p f).lastEcho = s.lastEcho := by
  cases p <;> rfl
@[simp] theorem State.updPort_relays (p : Port) (f : PortState → PortState) : (s.updPort p f).relays = s.relays := by
  cases p <;> rfl
@[simp] theorem State.updPort_buses (p : Port) (f : PortState → PortState) : (s.updPort p f).buses = s.buses := by
  cases p <;> rfl
@[simp] theorem State.updPort_timing (p : Port) (f : PortState → PortState) : (s.updPort p f).timing = s.timing := by
  cases p <;> rfl
@[simp] theorem State.updPort_battery (p : Port) (f : PortState → PortState) : (s.updPort p f).battery = s.battery := by
  cases p <;> rfl
@[simp] theorem State.updPort_faults (p : Port) (f : PortState → PortState) : (s.updPort p f).faults = s.faults := by
  cases p <;> rfl
@[simp] theorem State.updPort_waitList (p : Port) (f : PortState → PortState) : (s.updPort p f).waitList = s.waitList := by
  cases p <;> rfl
@[simp] theorem State.updPort_joining (p : Port) (f : PortState → PortState) : (s.updPort p f).joining = s.joining := by
  cases p <;> rfl
@[simp] theorem State.updPort_examineDue (p : Port) (f : PortState → PortState) : (s.updPort p f).examineDue = s.examineDue := by
  cases p <;> rfl
@[simp] theorem State.updPort_memory (p : Port) (f : PortState → PortState) : (s.updPort p f).memory = s.memory := by
  cases p <;> rfl
@[simp] theorem State.updPort_segments (p : Port) (f : PortState → PortState) : (s.updPort p f).segments = s.segments := by
  cases p <;> rfl
@[simp] theorem State.updPort_moving (p : Port) (f : PortState → PortState) : (s.updPort p f).moving = s.moving := by
  cases p <;> rfl
@[simp] theorem State.updPort_queued (p : Port) (f : PortState → PortState) : (s.updPort p f).queued = s.queued := by
  cases p <;> rfl
@[simp] theorem State.updPort_engines (p : Port) (f : PortState → PortState) : (s.updPort p f).engines = s.engines := by
  cases p <;> rfl
@[simp] theorem State.updPort_inputs (p : Port) (f : PortState → PortState) : (s.updPort p f).inputs = s.inputs := by
  cases p <;> rfl
@[simp] theorem State.updPort_run (p : Port) (f : PortState → PortState) : (s.updPort p f).run = s.run := by
  cases p <;> rfl
@[simp] theorem State.updPort_pins (p : Port) (f : PortState → PortState) : (s.updPort p f).pins = s.pins := by
  cases p <;> rfl
@[simp] theorem State.updPort_due (p : Port) (f : PortState → PortState) : (s.updPort p f).due = s.due := by
  cases p <;> rfl
@[simp] theorem State.updPort_freeCount (p : Port) (f : PortState → PortState) : (s.updPort p f).freeCount = s.freeCount := by
  cases p <;> rfl
@[simp] theorem State.updPort_place (p : Port) (f : PortState → PortState) : (s.updPort p f).place = s.place := by
  cases p <;> rfl
@[simp] theorem State.updPort_pending (p : Port) (f : PortState → PortState) : (s.updPort p f).pending = s.pending := by
  cases p <;> rfl

@[simp] theorem State.updPort_M_portM (f : PortState → PortState) : (s.updPort .M f).portM = f s.portM := rfl
@[simp] theorem State.updPort_M_portB (f : PortState → PortState) : (s.updPort .M f).portB = s.portB := rfl
@[simp] theorem State.updPort_B_portM (f : PortState → PortState) : (s.updPort .B f).portM = s.portM := rfl
@[simp] theorem State.updPort_B_portB (f : PortState → PortState) : (s.updPort .B f).portB = f s.portB := rfl

/-- A port after an update of a port. -/
theorem State.updPort_port (p q : Port) (f : PortState → PortState) :
    (s.updPort p f).port q = if p = q then f (s.port q) else s.port q := by
  cases p <;> cases q <;> rfl

@[simp] theorem State.updPort_port_self (p : Port) (f : PortState → PortState) :
    (s.updPort p f).port p = f (s.port p) := by cases p <;> rfl

/-! ## Records by index -/

/-- `channel` after `updChannel`. -/
theorem State.updChannel_channel (x y : Fin 24) (f : Channel → Channel) :
    (s.updChannel x f).channel y = if x = y then f (s.channel x) else s.channel y := updV_get _ _ _ _

@[simp] theorem State.updChannel_channel_self (x : Fin 24) (f : Channel → Channel) :
    (s.updChannel x f).channel x = f (s.channel x) := updV_get_self _ _ _

@[simp] theorem State.updChannel_channel_ne {x y : Fin 24} (f : Channel → Channel) (h : x ≠ y) :
    (s.updChannel x f).channel y = s.channel y := updV_get_ne _ _ h

/-- `relaySet` after `updRelaySet`. -/
theorem State.updRelaySet_relaySet (x y : Fin 24) (f : RelaySet → RelaySet) :
    (s.updRelaySet x f).relaySet y = if x = y then f (s.relaySet x) else s.relaySet y := updV_get _ _ _ _

@[simp] theorem State.updRelaySet_relaySet_self (x : Fin 24) (f : RelaySet → RelaySet) :
    (s.updRelaySet x f).relaySet x = f (s.relaySet x) := updV_get_self _ _ _

@[simp] theorem State.updRelaySet_relaySet_ne {x y : Fin 24} (f : RelaySet → RelaySet) (h : x ≠ y) :
    (s.updRelaySet x f).relaySet y = s.relaySet y := updV_get_ne _ _ h

/-- `fault` after `updFault`. -/
theorem State.updFault_fault (x y : Fin 64) (f : FaultRecord → FaultRecord) :
    (s.updFault x f).fault y = if x = y then f (s.fault x) else s.fault y := updV_get _ _ _ _

@[simp] theorem State.updFault_fault_self (x : Fin 64) (f : FaultRecord → FaultRecord) :
    (s.updFault x f).fault x = f (s.fault x) := updV_get_self _ _ _

@[simp] theorem State.updFault_fault_ne {x y : Fin 64} (f : FaultRecord → FaultRecord) (h : x ≠ y) :
    (s.updFault x f).fault y = s.fault y := updV_get_ne _ _ h

/-- `segment` after `updSegment`. -/
theorem State.updSegment_segment (x y : Fin 32) (f : Segment → Segment) :
    (s.updSegment x f).segment y = if x = y then f (s.segment x) else s.segment y := updV_get _ _ _ _

@[simp] theorem State.updSegment_segment_self (x : Fin 32) (f : Segment → Segment) :
    (s.updSegment x f).segment x = f (s.segment x) := updV_get_self _ _ _

@[simp] theorem State.updSegment_segment_ne {x y : Fin 32} (f : Segment → Segment) (h : x ≠ y) :
    (s.updSegment x f).segment y = s.segment y := updV_get_ne _ _ h

/-- `engine` after `updEngine`. -/
theorem State.updEngine_engine (x y : Fin 4) (f : Engine → Engine) :
    (s.updEngine x f).engine y = if x = y then f (s.engine x) else s.engine y := updV_get _ _ _ _

@[simp] theorem State.updEngine_engine_self (x : Fin 4) (f : Engine → Engine) :
    (s.updEngine x f).engine x = f (s.engine x) := updV_get_self _ _ _

@[simp] theorem State.updEngine_engine_ne {x y : Fin 4} (f : Engine → Engine) (h : x ≠ y) :
    (s.updEngine x f).engine y = s.engine y := updV_get_ne _ _ h

/-- `input` after `updInput`. -/
theorem State.updInput_input (x y : Fin 16) (f : CaptureInput → CaptureInput) :
    (s.updInput x f).input y = if x = y then f (s.input x) else s.input y := updV_get _ _ _ _

@[simp] theorem State.updInput_input_self (x : Fin 16) (f : CaptureInput → CaptureInput) :
    (s.updInput x f).input x = f (s.input x) := updV_get_self _ _ _

@[simp] theorem State.updInput_input_ne {x y : Fin 16} (f : CaptureInput → CaptureInput) (h : x ≠ y) :
    (s.updInput x f).input y = s.input y := updV_get_ne _ _ h

/-! ## Records across the updates of other fields -/

@[simp] theorem State.updRelaySet_channel (c : Fin 24) (f : RelaySet → RelaySet) (x : Fin 24) : (s.updRelaySet c f).channel x = s.channel x := rfl
@[simp] theorem State.updFault_channel (k : Fin 64) (f : FaultRecord → FaultRecord) (x : Fin 24) : (s.updFault k f).channel x = s.channel x := rfl
@[simp] theorem State.updSegment_channel (g : Fin 32) (f : Segment → Segment) (x : Fin 24) : (s.updSegment g f).channel x = s.channel x := rfl
@[simp] theorem State.updEngine_channel (n : Fin 4) (f : Engine → Engine) (x : Fin 24) : (s.updEngine n f).channel x = s.channel x := rfl
@[simp] theorem State.updInput_channel (i : Fin 16) (f : CaptureInput → CaptureInput) (x : Fin 24) : (s.updInput i f).channel x = s.channel x := rfl
@[simp] theorem State.updRun_channel (f : RunControl → RunControl) (x : Fin 24) : (s.updRun f).channel x = s.channel x := rfl
@[simp] theorem State.updAngle_channel (f : AngleBase → AngleBase) (x : Fin 24) : (s.updAngle f).channel x = s.channel x := rfl
@[simp] theorem State.addDue_channel (l : List Event) (x : Fin 24) : (s.addDue l).channel x = s.channel x := rfl
@[simp] theorem State.dropDue_channel (q : Event → Bool) (x : Fin 24) : (s.dropDue q).channel x = s.channel x := rfl
@[simp] theorem State.took_channel (e : Event) (x : Fin 24) : (s.took e).channel x = s.channel x := rfl
@[simp] theorem State.useFree_channel (x : Fin 24) : (s.useFree).channel x = s.channel x := rfl
@[simp] theorem State.usePlace_channel (w : Nat) (x : Fin 24) : (s.usePlace w).channel x = s.channel x := rfl
@[simp] theorem State.withPending_channel (l : List Instr) (x : Fin 24) : (s.withPending l).channel x = s.channel x := rfl
@[simp] theorem State.setResetLine_channel (b : Bool) (x : Fin 24) : (s.setResetLine b).channel x = s.channel x := rfl
@[simp] theorem State.updPort_channel (p : Port) (f : PortState → PortState) (x : Fin 24) :
    (s.updPort p f).channel x = s.channel x := by cases p <;> rfl

@[simp] theorem State.updChannel_relaySet (c : Fin 24) (f : Channel → Channel) (x : Fin 24) : (s.updChannel c f).relaySet x = s.relaySet x := rfl
@[simp] theorem State.updFault_relaySet (k : Fin 64) (f : FaultRecord → FaultRecord) (x : Fin 24) : (s.updFault k f).relaySet x = s.relaySet x := rfl
@[simp] theorem State.updSegment_relaySet (g : Fin 32) (f : Segment → Segment) (x : Fin 24) : (s.updSegment g f).relaySet x = s.relaySet x := rfl
@[simp] theorem State.updEngine_relaySet (n : Fin 4) (f : Engine → Engine) (x : Fin 24) : (s.updEngine n f).relaySet x = s.relaySet x := rfl
@[simp] theorem State.updInput_relaySet (i : Fin 16) (f : CaptureInput → CaptureInput) (x : Fin 24) : (s.updInput i f).relaySet x = s.relaySet x := rfl
@[simp] theorem State.updRun_relaySet (f : RunControl → RunControl) (x : Fin 24) : (s.updRun f).relaySet x = s.relaySet x := rfl
@[simp] theorem State.updAngle_relaySet (f : AngleBase → AngleBase) (x : Fin 24) : (s.updAngle f).relaySet x = s.relaySet x := rfl
@[simp] theorem State.addDue_relaySet (l : List Event) (x : Fin 24) : (s.addDue l).relaySet x = s.relaySet x := rfl
@[simp] theorem State.dropDue_relaySet (q : Event → Bool) (x : Fin 24) : (s.dropDue q).relaySet x = s.relaySet x := rfl
@[simp] theorem State.took_relaySet (e : Event) (x : Fin 24) : (s.took e).relaySet x = s.relaySet x := rfl
@[simp] theorem State.useFree_relaySet (x : Fin 24) : (s.useFree).relaySet x = s.relaySet x := rfl
@[simp] theorem State.usePlace_relaySet (w : Nat) (x : Fin 24) : (s.usePlace w).relaySet x = s.relaySet x := rfl
@[simp] theorem State.withPending_relaySet (l : List Instr) (x : Fin 24) : (s.withPending l).relaySet x = s.relaySet x := rfl
@[simp] theorem State.setResetLine_relaySet (b : Bool) (x : Fin 24) : (s.setResetLine b).relaySet x = s.relaySet x := rfl
@[simp] theorem State.updPort_relaySet (p : Port) (f : PortState → PortState) (x : Fin 24) :
    (s.updPort p f).relaySet x = s.relaySet x := by cases p <;> rfl

@[simp] theorem State.updChannel_fault (c : Fin 24) (f : Channel → Channel) (x : Fin 64) : (s.updChannel c f).fault x = s.fault x := rfl
@[simp] theorem State.updRelaySet_fault (c : Fin 24) (f : RelaySet → RelaySet) (x : Fin 64) : (s.updRelaySet c f).fault x = s.fault x := rfl
@[simp] theorem State.updSegment_fault (g : Fin 32) (f : Segment → Segment) (x : Fin 64) : (s.updSegment g f).fault x = s.fault x := rfl
@[simp] theorem State.updEngine_fault (n : Fin 4) (f : Engine → Engine) (x : Fin 64) : (s.updEngine n f).fault x = s.fault x := rfl
@[simp] theorem State.updInput_fault (i : Fin 16) (f : CaptureInput → CaptureInput) (x : Fin 64) : (s.updInput i f).fault x = s.fault x := rfl
@[simp] theorem State.updRun_fault (f : RunControl → RunControl) (x : Fin 64) : (s.updRun f).fault x = s.fault x := rfl
@[simp] theorem State.updAngle_fault (f : AngleBase → AngleBase) (x : Fin 64) : (s.updAngle f).fault x = s.fault x := rfl
@[simp] theorem State.addDue_fault (l : List Event) (x : Fin 64) : (s.addDue l).fault x = s.fault x := rfl
@[simp] theorem State.dropDue_fault (q : Event → Bool) (x : Fin 64) : (s.dropDue q).fault x = s.fault x := rfl
@[simp] theorem State.took_fault (e : Event) (x : Fin 64) : (s.took e).fault x = s.fault x := rfl
@[simp] theorem State.useFree_fault (x : Fin 64) : (s.useFree).fault x = s.fault x := rfl
@[simp] theorem State.usePlace_fault (w : Nat) (x : Fin 64) : (s.usePlace w).fault x = s.fault x := rfl
@[simp] theorem State.withPending_fault (l : List Instr) (x : Fin 64) : (s.withPending l).fault x = s.fault x := rfl
@[simp] theorem State.setResetLine_fault (b : Bool) (x : Fin 64) : (s.setResetLine b).fault x = s.fault x := rfl
@[simp] theorem State.updPort_fault (p : Port) (f : PortState → PortState) (x : Fin 64) :
    (s.updPort p f).fault x = s.fault x := by cases p <;> rfl

@[simp] theorem State.updChannel_segment (c : Fin 24) (f : Channel → Channel) (x : Fin 32) : (s.updChannel c f).segment x = s.segment x := rfl
@[simp] theorem State.updRelaySet_segment (c : Fin 24) (f : RelaySet → RelaySet) (x : Fin 32) : (s.updRelaySet c f).segment x = s.segment x := rfl
@[simp] theorem State.updFault_segment (k : Fin 64) (f : FaultRecord → FaultRecord) (x : Fin 32) : (s.updFault k f).segment x = s.segment x := rfl
@[simp] theorem State.updEngine_segment (n : Fin 4) (f : Engine → Engine) (x : Fin 32) : (s.updEngine n f).segment x = s.segment x := rfl
@[simp] theorem State.updInput_segment (i : Fin 16) (f : CaptureInput → CaptureInput) (x : Fin 32) : (s.updInput i f).segment x = s.segment x := rfl
@[simp] theorem State.updRun_segment (f : RunControl → RunControl) (x : Fin 32) : (s.updRun f).segment x = s.segment x := rfl
@[simp] theorem State.updAngle_segment (f : AngleBase → AngleBase) (x : Fin 32) : (s.updAngle f).segment x = s.segment x := rfl
@[simp] theorem State.addDue_segment (l : List Event) (x : Fin 32) : (s.addDue l).segment x = s.segment x := rfl
@[simp] theorem State.dropDue_segment (q : Event → Bool) (x : Fin 32) : (s.dropDue q).segment x = s.segment x := rfl
@[simp] theorem State.took_segment (e : Event) (x : Fin 32) : (s.took e).segment x = s.segment x := rfl
@[simp] theorem State.useFree_segment (x : Fin 32) : (s.useFree).segment x = s.segment x := rfl
@[simp] theorem State.usePlace_segment (w : Nat) (x : Fin 32) : (s.usePlace w).segment x = s.segment x := rfl
@[simp] theorem State.withPending_segment (l : List Instr) (x : Fin 32) : (s.withPending l).segment x = s.segment x := rfl
@[simp] theorem State.setResetLine_segment (b : Bool) (x : Fin 32) : (s.setResetLine b).segment x = s.segment x := rfl
@[simp] theorem State.updPort_segment (p : Port) (f : PortState → PortState) (x : Fin 32) :
    (s.updPort p f).segment x = s.segment x := by cases p <;> rfl

@[simp] theorem State.updChannel_engine (c : Fin 24) (f : Channel → Channel) (x : Fin 4) : (s.updChannel c f).engine x = s.engine x := rfl
@[simp] theorem State.updRelaySet_engine (c : Fin 24) (f : RelaySet → RelaySet) (x : Fin 4) : (s.updRelaySet c f).engine x = s.engine x := rfl
@[simp] theorem State.updFault_engine (k : Fin 64) (f : FaultRecord → FaultRecord) (x : Fin 4) : (s.updFault k f).engine x = s.engine x := rfl
@[simp] theorem State.updSegment_engine (g : Fin 32) (f : Segment → Segment) (x : Fin 4) : (s.updSegment g f).engine x = s.engine x := rfl
@[simp] theorem State.updInput_engine (i : Fin 16) (f : CaptureInput → CaptureInput) (x : Fin 4) : (s.updInput i f).engine x = s.engine x := rfl
@[simp] theorem State.updRun_engine (f : RunControl → RunControl) (x : Fin 4) : (s.updRun f).engine x = s.engine x := rfl
@[simp] theorem State.updAngle_engine (f : AngleBase → AngleBase) (x : Fin 4) : (s.updAngle f).engine x = s.engine x := rfl
@[simp] theorem State.addDue_engine (l : List Event) (x : Fin 4) : (s.addDue l).engine x = s.engine x := rfl
@[simp] theorem State.dropDue_engine (q : Event → Bool) (x : Fin 4) : (s.dropDue q).engine x = s.engine x := rfl
@[simp] theorem State.took_engine (e : Event) (x : Fin 4) : (s.took e).engine x = s.engine x := rfl
@[simp] theorem State.useFree_engine (x : Fin 4) : (s.useFree).engine x = s.engine x := rfl
@[simp] theorem State.usePlace_engine (w : Nat) (x : Fin 4) : (s.usePlace w).engine x = s.engine x := rfl
@[simp] theorem State.withPending_engine (l : List Instr) (x : Fin 4) : (s.withPending l).engine x = s.engine x := rfl
@[simp] theorem State.setResetLine_engine (b : Bool) (x : Fin 4) : (s.setResetLine b).engine x = s.engine x := rfl
@[simp] theorem State.updPort_engine (p : Port) (f : PortState → PortState) (x : Fin 4) :
    (s.updPort p f).engine x = s.engine x := by cases p <;> rfl

@[simp] theorem State.updChannel_input (c : Fin 24) (f : Channel → Channel) (x : Fin 16) : (s.updChannel c f).input x = s.input x := rfl
@[simp] theorem State.updRelaySet_input (c : Fin 24) (f : RelaySet → RelaySet) (x : Fin 16) : (s.updRelaySet c f).input x = s.input x := rfl
@[simp] theorem State.updFault_input (k : Fin 64) (f : FaultRecord → FaultRecord) (x : Fin 16) : (s.updFault k f).input x = s.input x := rfl
@[simp] theorem State.updSegment_input (g : Fin 32) (f : Segment → Segment) (x : Fin 16) : (s.updSegment g f).input x = s.input x := rfl
@[simp] theorem State.updEngine_input (n : Fin 4) (f : Engine → Engine) (x : Fin 16) : (s.updEngine n f).input x = s.input x := rfl
@[simp] theorem State.updRun_input (f : RunControl → RunControl) (x : Fin 16) : (s.updRun f).input x = s.input x := rfl
@[simp] theorem State.updAngle_input (f : AngleBase → AngleBase) (x : Fin 16) : (s.updAngle f).input x = s.input x := rfl
@[simp] theorem State.addDue_input (l : List Event) (x : Fin 16) : (s.addDue l).input x = s.input x := rfl
@[simp] theorem State.dropDue_input (q : Event → Bool) (x : Fin 16) : (s.dropDue q).input x = s.input x := rfl
@[simp] theorem State.took_input (e : Event) (x : Fin 16) : (s.took e).input x = s.input x := rfl
@[simp] theorem State.useFree_input (x : Fin 16) : (s.useFree).input x = s.input x := rfl
@[simp] theorem State.usePlace_input (w : Nat) (x : Fin 16) : (s.usePlace w).input x = s.input x := rfl
@[simp] theorem State.withPending_input (l : List Instr) (x : Fin 16) : (s.withPending l).input x = s.input x := rfl
@[simp] theorem State.setResetLine_input (b : Bool) (x : Fin 16) : (s.setResetLine b).input x = s.input x := rfl
@[simp] theorem State.updPort_input (p : Port) (f : PortState → PortState) (x : Fin 16) :
    (s.updPort p f).input x = s.input x := by cases p <;> rfl

@[simp] theorem State.updChannel_port (c : Fin 24) (f : Channel → Channel) (x : Port) : (s.updChannel c f).port x = s.port x := by cases x <;> rfl
@[simp] theorem State.updRelaySet_port (c : Fin 24) (f : RelaySet → RelaySet) (x : Port) : (s.updRelaySet c f).port x = s.port x := by cases x <;> rfl
@[simp] theorem State.updFault_port (k : Fin 64) (f : FaultRecord → FaultRecord) (x : Port) : (s.updFault k f).port x = s.port x := by cases x <;> rfl
@[simp] theorem State.updSegment_port (g : Fin 32) (f : Segment → Segment) (x : Port) : (s.updSegment g f).port x = s.port x := by cases x <;> rfl
@[simp] theorem State.updEngine_port (n : Fin 4) (f : Engine → Engine) (x : Port) : (s.updEngine n f).port x = s.port x := by cases x <;> rfl
@[simp] theorem State.updInput_port (i : Fin 16) (f : CaptureInput → CaptureInput) (x : Port) : (s.updInput i f).port x = s.port x := by cases x <;> rfl
@[simp] theorem State.updRun_port (f : RunControl → RunControl) (x : Port) : (s.updRun f).port x = s.port x := by cases x <;> rfl
@[simp] theorem State.updAngle_port (f : AngleBase → AngleBase) (x : Port) : (s.updAngle f).port x = s.port x := by cases x <;> rfl
@[simp] theorem State.addDue_port (l : List Event) (x : Port) : (s.addDue l).port x = s.port x := by cases x <;> rfl
@[simp] theorem State.dropDue_port (q : Event → Bool) (x : Port) : (s.dropDue q).port x = s.port x := by cases x <;> rfl
@[simp] theorem State.took_port (e : Event) (x : Port) : (s.took e).port x = s.port x := by cases x <;> rfl
@[simp] theorem State.useFree_port (x : Port) : (s.useFree).port x = s.port x := by cases x <;> rfl
@[simp] theorem State.usePlace_port (w : Nat) (x : Port) : (s.usePlace w).port x = s.port x := by cases x <;> rfl
@[simp] theorem State.withPending_port (l : List Instr) (x : Port) : (s.withPending l).port x = s.port x := by cases x <;> rfl
@[simp] theorem State.setResetLine_port (b : Bool) (x : Port) : (s.setResetLine b).port x = s.port x := by cases x <;> rfl

end Sys2Proof.Machine
end

