-- ==== Sys2Proof/Laws/Frames.lean ====
section
/-! SUPPORT. What each operation leaves unchanged, one theorem an operation: the fields of the state it does not
touch. `PortState.line` is the part of a port that no block reaches: the link, the queues and the mask. -/

namespace Sys2Proof

/-- The part of a port that belongs to the port alone, with the sticky flags and the capture queue left out. -/
def PortState.line (q : PortState) : PortState := { q with sticky := 0, captures := [], gap := false }

namespace Machine

/-- What every step of a fold keeps, the fold keeps. -/
theorem foldl_keeps {α β σ : Type} (g : σ → β) (f : σ → α → σ) (hf : ∀ s x, g (f s x) = g s) (l : List α) (s : σ) :
    g (l.foldl f s) = g s := by
  induction l generalizing s with
  | nil => rfl
  | cons x l ih => rw [List.foldl_cons, ih, hf]

variable (s : State)

@[simp] theorem State.raise_frame (p : Port) (n : Notice) :
    (s.raise p n).rigTime = s.rigTime ∧ (s.raise p n).halfDone = s.halfDone ∧
      (s.raise p n).angle = s.angle ∧ (s.raise p n).channels = s.channels ∧
      (s.raise p n).lastEcho = s.lastEcho ∧ (s.raise p n).relays = s.relays ∧
      (s.raise p n).buses = s.buses ∧ (s.raise p n).timing = s.timing ∧ (s.raise p n).battery = s.battery ∧
      (s.raise p n).faults = s.faults ∧ (s.raise p n).waitList = s.waitList ∧
      (s.raise p n).joining = s.joining ∧ (s.raise p n).examineDue = s.examineDue ∧
      (s.raise p n).memory = s.memory ∧ (s.raise p n).segments = s.segments ∧
      (s.raise p n).moving = s.moving ∧ (s.raise p n).queued = s.queued ∧
      (s.raise p n).engines = s.engines ∧ (s.raise p n).inputs = s.inputs ∧
      (s.raise p n).portM.line = s.portM.line ∧ (s.raise p n).portB.line = s.portB.line ∧
      (s.raise p n).run = s.run ∧ (s.raise p n).pins = s.pins ∧ (s.raise p n).due = s.due ∧
      (s.raise p n).freeCount = s.freeCount ∧ (s.raise p n).place = s.place ∧
      (s.raise p n).pending = s.pending := by
  cases p <;> simp [State.raise, PortState.raise, PortState.line, State.updPort]

@[simp] theorem State.raiseBoth_frame (n : Notice) :
    (s.raiseBoth n).rigTime = s.rigTime ∧ (s.raiseBoth n).halfDone = s.halfDone ∧
      (s.raiseBoth n).angle = s.angle ∧ (s.raiseBoth n).channels = s.channels ∧
      (s.raiseBoth n).lastEcho = s.lastEcho ∧ (s.raiseBoth n).relays = s.relays ∧
      (s.raiseBoth n).buses = s.buses ∧ (s.raiseBoth n).timing = s.timing ∧
      (s.raiseBoth n).battery = s.battery ∧ (s.raiseBoth n).faults = s.faults ∧
      (s.raiseBoth n).waitList = s.waitList ∧ (s.raiseBoth n).joining = s.joining ∧
      (s.raiseBoth n).examineDue = s.examineDue ∧ (s.raiseBoth n).memory = s.memory ∧
      (s.raiseBoth n).segments = s.segments ∧ (s.raiseBoth n).moving = s.moving ∧
      (s.raiseBoth n).queued = s.queued ∧ (s.raiseBoth n).engines = s.engines ∧
      (s.raiseBoth n).inputs = s.inputs ∧ (s.raiseBoth n).portM.line = s.portM.line ∧
      (s.raiseBoth n).portB.line = s.portB.line ∧ (s.raiseBoth n).run = s.run ∧
      (s.raiseBoth n).pins = s.pins ∧ (s.raiseBoth n).due = s.due ∧
      (s.raiseBoth n).freeCount = s.freeCount ∧ (s.raiseBoth n).place = s.place ∧
      (s.raiseBoth n).pending = s.pending := by
  simp [State.raiseBoth, PortState.raise, PortState.line]

@[simp] theorem State.raiseSet_frame (ps : PortSet) (n : Notice) :
    (s.raiseSet ps n).rigTime = s.rigTime ∧ (s.raiseSet ps n).halfDone = s.halfDone ∧
      (s.raiseSet ps n).angle = s.angle ∧ (s.raiseSet ps n).channels = s.channels ∧
      (s.raiseSet ps n).lastEcho = s.lastEcho ∧ (s.raiseSet ps n).relays = s.relays ∧
      (s.raiseSet ps n).buses = s.buses ∧ (s.raiseSet ps n).timing = s.timing ∧
      (s.raiseSet ps n).battery = s.battery ∧ (s.raiseSet ps n).faults = s.faults ∧
      (s.raiseSet ps n).waitList = s.waitList ∧ (s.raiseSet ps n).joining = s.joining ∧
      (s.raiseSet ps n).examineDue = s.examineDue ∧ (s.raiseSet ps n).memory = s.memory ∧
      (s.raiseSet ps n).segments = s.segments ∧ (s.raiseSet ps n).moving = s.moving ∧
      (s.raiseSet ps n).queued = s.queued ∧ (s.raiseSet ps n).engines = s.engines ∧
      (s.raiseSet ps n).inputs = s.inputs ∧ (s.raiseSet ps n).portM.line = s.portM.line ∧
      (s.raiseSet ps n).portB.line = s.portB.line ∧ (s.raiseSet ps n).run = s.run ∧
      (s.raiseSet ps n).pins = s.pins ∧ (s.raiseSet ps n).due = s.due ∧
      (s.raiseSet ps n).freeCount = s.freeCount ∧ (s.raiseSet ps n).place = s.place ∧
      (s.raiseSet ps n).pending = s.pending := by
  obtain ⟨_ | _, _ | _⟩ := ps <;> simp [State.raiseSet, PortState.raise, PortState.line]

@[simp] theorem State.offer_frame (d : PortSet) (r : CaptureRecord) :
    (s.offer d r).rigTime = s.rigTime ∧ (s.offer d r).halfDone = s.halfDone ∧
      (s.offer d r).angle = s.angle ∧ (s.offer d r).channels = s.channels ∧
      (s.offer d r).lastEcho = s.lastEcho ∧ (s.offer d r).relays = s.relays ∧
      (s.offer d r).buses = s.buses ∧ (s.offer d r).timing = s.timing ∧ (s.offer d r).battery = s.battery ∧
      (s.offer d r).faults = s.faults ∧ (s.offer d r).waitList = s.waitList ∧
      (s.offer d r).joining = s.joining ∧ (s.offer d r).examineDue = s.examineDue ∧
      (s.offer d r).memory = s.memory ∧ (s.offer d r).segments = s.segments ∧
      (s.offer d r).moving = s.moving ∧ (s.offer d r).queued = s.queued ∧
      (s.offer d r).engines = s.engines ∧ (s.offer d r).inputs = s.inputs ∧
      (s.offer d r).portM.line = s.portM.line ∧ (s.offer d r).portB.line = s.portB.line ∧
      (s.offer d r).run = s.run ∧ (s.offer d r).pins = s.pins ∧ (s.offer d r).due = s.due ∧
      (s.offer d r).freeCount = s.freeCount ∧ (s.offer d r).place = s.place ∧
      (s.offer d r).pending = s.pending := by
  obtain ⟨_ | _, _ | _⟩ := d <;>
    (simp [State.offer, PortState.offer, PortState.line, PortState.raise]; try (repeat' split) <;> simp)

@[simp] theorem State.rampBoundary_frame :
    (s.rampBoundary).rigTime = s.rigTime ∧ (s.rampBoundary).halfDone = s.halfDone ∧
      (s.rampBoundary).channels = s.channels ∧ (s.rampBoundary).lastEcho = s.lastEcho ∧
      (s.rampBoundary).relays = s.relays ∧ (s.rampBoundary).buses = s.buses ∧
      (s.rampBoundary).timing = s.timing ∧ (s.rampBoundary).battery = s.battery ∧
      (s.rampBoundary).faults = s.faults ∧ (s.rampBoundary).waitList = s.waitList ∧
      (s.rampBoundary).joining = s.joining ∧ (s.rampBoundary).examineDue = s.examineDue ∧
      (s.rampBoundary).memory = s.memory ∧ (s.rampBoundary).segments = s.segments ∧
      (s.rampBoundary).moving = s.moving ∧ (s.rampBoundary).queued = s.queued ∧
      (s.rampBoundary).engines = s.engines ∧ (s.rampBoundary).inputs = s.inputs ∧
      (s.rampBoundary).portM = s.portM ∧ (s.rampBoundary).portB = s.portB ∧ (s.rampBoundary).run = s.run ∧
      (s.rampBoundary).pins = s.pins ∧ (s.rampBoundary).due = s.due ∧
      (s.rampBoundary).freeCount = s.freeCount ∧ (s.rampBoundary).place = s.place ∧
      (s.rampBoundary).pending = s.pending := by
  simp only [State.rampBoundary]
  (repeat' split) <;> simp

@[simp] theorem State.refreshChannels_frame :
    (s.refreshChannels).rigTime = s.rigTime ∧ (s.refreshChannels).halfDone = s.halfDone ∧
      (s.refreshChannels).angle = s.angle ∧ (s.refreshChannels).lastEcho = s.lastEcho ∧
      (s.refreshChannels).relays = s.relays ∧ (s.refreshChannels).buses = s.buses ∧
      (s.refreshChannels).timing = s.timing ∧ (s.refreshChannels).battery = s.battery ∧
      (s.refreshChannels).faults = s.faults ∧ (s.refreshChannels).waitList = s.waitList ∧
      (s.refreshChannels).joining = s.joining ∧ (s.refreshChannels).examineDue = s.examineDue ∧
      (s.refreshChannels).memory = s.memory ∧ (s.refreshChannels).segments = s.segments ∧
      (s.refreshChannels).moving = s.moving ∧ (s.refreshChannels).queued = s.queued ∧
      (s.refreshChannels).engines = s.engines ∧ (s.refreshChannels).inputs = s.inputs ∧
      (s.refreshChannels).portM = s.portM ∧ (s.refreshChannels).portB = s.portB ∧
      (s.refreshChannels).run = s.run ∧ (s.refreshChannels).pins = s.pins ∧
      (s.refreshChannels).due = s.due ∧ (s.refreshChannels).freeCount = s.freeCount ∧
      (s.refreshChannels).place = s.place ∧ (s.refreshChannels).pending = s.pending := by
  simp [State.refreshChannels]

@[simp] theorem State.evaluatePulses_frame :
    (s.evaluatePulses).rigTime = s.rigTime ∧ (s.evaluatePulses).halfDone = s.halfDone ∧
      (s.evaluatePulses).angle = s.angle ∧ (s.evaluatePulses).lastEcho = s.lastEcho ∧
      (s.evaluatePulses).relays = s.relays ∧ (s.evaluatePulses).buses = s.buses ∧
      (s.evaluatePulses).timing = s.timing ∧ (s.evaluatePulses).battery = s.battery ∧
      (s.evaluatePulses).faults = s.faults ∧ (s.evaluatePulses).waitList = s.waitList ∧
      (s.evaluatePulses).joining = s.joining ∧ (s.evaluatePulses).examineDue = s.examineDue ∧
      (s.evaluatePulses).memory = s.memory ∧ (s.evaluatePulses).segments = s.segments ∧
      (s.evaluatePulses).moving = s.moving ∧ (s.evaluatePulses).queued = s.queued ∧
      (s.evaluatePulses).engines = s.engines ∧ (s.evaluatePulses).inputs = s.inputs ∧
      (s.evaluatePulses).portM = s.portM ∧ (s.evaluatePulses).portB = s.portB ∧
      (s.evaluatePulses).run = s.run ∧ (s.evaluatePulses).pins = s.pins ∧ (s.evaluatePulses).due = s.due ∧
      (s.evaluatePulses).freeCount = s.freeCount ∧ (s.evaluatePulses).place = s.place ∧
      (s.evaluatePulses).pending = s.pending := by
  simp [State.evaluatePulses]

@[simp] theorem State.showFree_frame (c : Fin 24) :
    (s.showFree c).rigTime = s.rigTime ∧ (s.showFree c).halfDone = s.halfDone ∧
      (s.showFree c).angle = s.angle ∧ (s.showFree c).lastEcho = s.lastEcho ∧
      (s.showFree c).relays = s.relays ∧ (s.showFree c).buses = s.buses ∧ (s.showFree c).timing = s.timing ∧
      (s.showFree c).battery = s.battery ∧ (s.showFree c).faults = s.faults ∧
      (s.showFree c).waitList = s.waitList ∧ (s.showFree c).joining = s.joining ∧
      (s.showFree c).examineDue = s.examineDue ∧ (s.showFree c).memory = s.memory ∧
      (s.showFree c).segments = s.segments ∧ (s.showFree c).moving = s.moving ∧
      (s.showFree c).queued = s.queued ∧ (s.showFree c).engines = s.engines ∧
      (s.showFree c).inputs = s.inputs ∧ (s.showFree c).portM = s.portM ∧ (s.showFree c).portB = s.portB ∧
      (s.showFree c).run = s.run ∧ (s.showFree c).pins = s.pins ∧ (s.showFree c).due = s.due ∧
      (s.showFree c).freeCount = s.freeCount ∧ (s.showFree c).place = s.place ∧
      (s.showFree c).pending = s.pending := by
  simp only [State.showFree]
  (repeat' split) <;> simp

@[simp] theorem State.keepOutput_frame (c : Fin 24) :
    (s.keepOutput c).rigTime = s.rigTime ∧ (s.keepOutput c).halfDone = s.halfDone ∧
      (s.keepOutput c).angle = s.angle ∧ (s.keepOutput c).lastEcho = s.lastEcho ∧
      (s.keepOutput c).relays = s.relays ∧ (s.keepOutput c).buses = s.buses ∧
      (s.keepOutput c).timing = s.timing ∧ (s.keepOutput c).battery = s.battery ∧
      (s.keepOutput c).faults = s.faults ∧ (s.keepOutput c).waitList = s.waitList ∧
      (s.keepOutput c).joining = s.joining ∧ (s.keepOutput c).examineDue = s.examineDue ∧
      (s.keepOutput c).memory = s.memory ∧ (s.keepOutput c).segments = s.segments ∧
      (s.keepOutput c).moving = s.moving ∧ (s.keepOutput c).queued = s.queued ∧
      (s.keepOutput c).engines = s.engines ∧ (s.keepOutput c).inputs = s.inputs ∧
      (s.keepOutput c).portM = s.portM ∧ (s.keepOutput c).portB = s.portB ∧ (s.keepOutput c).run = s.run ∧
      (s.keepOutput c).pins = s.pins ∧ (s.keepOutput c).due = s.due ∧
      (s.keepOutput c).freeCount = s.freeCount ∧ (s.keepOutput c).place = s.place ∧
      (s.keepOutput c).pending = s.pending := by
  simp [State.keepOutput]

@[simp] theorem State.keepOutputs_frame :
    (s.keepOutputs).rigTime = s.rigTime ∧ (s.keepOutputs).halfDone = s.halfDone ∧
      (s.keepOutputs).angle = s.angle ∧ (s.keepOutputs).lastEcho = s.lastEcho ∧
      (s.keepOutputs).relays = s.relays ∧ (s.keepOutputs).buses = s.buses ∧
      (s.keepOutputs).timing = s.timing ∧ (s.keepOutputs).battery = s.battery ∧
      (s.keepOutputs).faults = s.faults ∧ (s.keepOutputs).waitList = s.waitList ∧
      (s.keepOutputs).joining = s.joining ∧ (s.keepOutputs).examineDue = s.examineDue ∧
      (s.keepOutputs).memory = s.memory ∧ (s.keepOutputs).segments = s.segments ∧
      (s.keepOutputs).moving = s.moving ∧ (s.keepOutputs).queued = s.queued ∧
      (s.keepOutputs).engines = s.engines ∧ (s.keepOutputs).inputs = s.inputs ∧
      (s.keepOutputs).portM = s.portM ∧ (s.keepOutputs).portB = s.portB ∧ (s.keepOutputs).run = s.run ∧
      (s.keepOutputs).pins = s.pins ∧ (s.keepOutputs).due = s.due ∧
      (s.keepOutputs).freeCount = s.freeCount ∧ (s.keepOutputs).place = s.place ∧
      (s.keepOutputs).pending = s.pending := by
  simp [State.keepOutputs]

@[simp] theorem State.openPeriod_frame (c : Fin 24) (b : Value) :
    (s.openPeriod c b).rigTime = s.rigTime ∧ (s.openPeriod c b).halfDone = s.halfDone ∧
      (s.openPeriod c b).angle = s.angle ∧ (s.openPeriod c b).lastEcho = s.lastEcho ∧
      (s.openPeriod c b).relays = s.relays ∧ (s.openPeriod c b).buses = s.buses ∧
      (s.openPeriod c b).timing = s.timing ∧ (s.openPeriod c b).battery = s.battery ∧
      (s.openPeriod c b).faults = s.faults ∧ (s.openPeriod c b).waitList = s.waitList ∧
      (s.openPeriod c b).joining = s.joining ∧ (s.openPeriod c b).examineDue = s.examineDue ∧
      (s.openPeriod c b).memory = s.memory ∧ (s.openPeriod c b).segments = s.segments ∧
      (s.openPeriod c b).moving = s.moving ∧ (s.openPeriod c b).queued = s.queued ∧
      (s.openPeriod c b).engines = s.engines ∧ (s.openPeriod c b).inputs = s.inputs ∧
      (s.openPeriod c b).portM = s.portM ∧ (s.openPeriod c b).portB = s.portB ∧
      (s.openPeriod c b).run = s.run ∧ (s.openPeriod c b).pins = s.pins ∧ (s.openPeriod c b).due = s.due ∧
      (s.openPeriod c b).freeCount = s.freeCount ∧ (s.openPeriod c b).place = s.place ∧
      (s.openPeriod c b).pending = s.pending := by
  simp [State.openPeriod]

@[simp] theorem State.stopGenerator_frame (c : Fin 24) :
    (s.stopGenerator c).rigTime = s.rigTime ∧ (s.stopGenerator c).halfDone = s.halfDone ∧
      (s.stopGenerator c).angle = s.angle ∧ (s.stopGenerator c).lastEcho = s.lastEcho ∧
      (s.stopGenerator c).relays = s.relays ∧ (s.stopGenerator c).buses = s.buses ∧
      (s.stopGenerator c).timing = s.timing ∧ (s.stopGenerator c).battery = s.battery ∧
      (s.stopGenerator c).faults = s.faults ∧ (s.stopGenerator c).waitList = s.waitList ∧
      (s.stopGenerator c).joining = s.joining ∧ (s.stopGenerator c).examineDue = s.examineDue ∧
      (s.stopGenerator c).memory = s.memory ∧ (s.stopGenerator c).segments = s.segments ∧
      (s.stopGenerator c).moving = s.moving ∧ (s.stopGenerator c).queued = s.queued ∧
      (s.stopGenerator c).engines = s.engines ∧ (s.stopGenerator c).inputs = s.inputs ∧
      (s.stopGenerator c).portM = s.portM ∧ (s.stopGenerator c).portB = s.portB ∧
      (s.stopGenerator c).run = s.run ∧ (s.stopGenerator c).pins = s.pins ∧
      (s.stopGenerator c).due = s.due ∧ (s.stopGenerator c).freeCount = s.freeCount ∧
      (s.stopGenerator c).place = s.place ∧ (s.stopGenerator c).pending = s.pending := by
  simp [State.stopGenerator]

@[simp] theorem State.haltGenerators_frame :
    (s.haltGenerators).rigTime = s.rigTime ∧ (s.haltGenerators).halfDone = s.halfDone ∧
      (s.haltGenerators).angle = s.angle ∧ (s.haltGenerators).lastEcho = s.lastEcho ∧
      (s.haltGenerators).relays = s.relays ∧ (s.haltGenerators).buses = s.buses ∧
      (s.haltGenerators).timing = s.timing ∧ (s.haltGenerators).battery = s.battery ∧
      (s.haltGenerators).faults = s.faults ∧ (s.haltGenerators).waitList = s.waitList ∧
      (s.haltGenerators).joining = s.joining ∧ (s.haltGenerators).examineDue = s.examineDue ∧
      (s.haltGenerators).memory = s.memory ∧ (s.haltGenerators).segments = s.segments ∧
      (s.haltGenerators).moving = s.moving ∧ (s.haltGenerators).queued = s.queued ∧
      (s.haltGenerators).engines = s.engines ∧ (s.haltGenerators).inputs = s.inputs ∧
      (s.haltGenerators).portM = s.portM ∧ (s.haltGenerators).portB = s.portB ∧
      (s.haltGenerators).run = s.run ∧ (s.haltGenerators).pins = s.pins ∧ (s.haltGenerators).due = s.due ∧
      (s.haltGenerators).freeCount = s.freeCount ∧ (s.haltGenerators).place = s.place ∧
      (s.haltGenerators).pending = s.pending := by
  simp only [State.haltGenerators]
  refine ⟨(foldl_keeps (fun u : State => u.rigTime) State.stopGenerator (fun u x => by simp) _ _).trans (by simp),
    (foldl_keeps (fun u : State => u.halfDone) State.stopGenerator (fun u x => by simp) _ _).trans (by simp),
    (foldl_keeps (fun u : State => u.angle) State.stopGenerator (fun u x => by simp) _ _).trans (by simp),
    (foldl_keeps (fun u : State => u.lastEcho) State.stopGenerator (fun u x => by simp) _ _).trans (by simp),
    (foldl_keeps (fun u : State => u.relays) State.stopGenerator (fun u x => by simp) _ _).trans (by simp),
    (foldl_keeps (fun u : State => u.buses) State.stopGenerator (fun u x => by simp) _ _).trans (by simp),
    (foldl_keeps (fun u : State => u.timing) State.stopGenerator (fun u x => by simp) _ _).trans (by simp),
    (foldl_keeps (fun u : State => u.battery) State.stopGenerator (fun u x => by simp) _ _).trans (by simp),
    (foldl_keeps (fun u : State => u.faults) State.stopGenerator (fun u x => by simp) _ _).trans (by simp),
    (foldl_keeps (fun u : State => u.waitList) State.stopGenerator (fun u x => by simp) _ _).trans (by simp),
    (foldl_keeps (fun u : State => u.joining) State.stopGenerator (fun u x => by simp) _ _).trans (by simp),
    (foldl_keeps (fun u : State => u.examineDue) State.stopGenerator (fun u x => by simp) _ _).trans (by simp),
    (foldl_keeps (fun u : State => u.memory) State.stopGenerator (fun u x => by simp) _ _).trans (by simp),
    (foldl_keeps (fun u : State => u.segments) State.stopGenerator (fun u x => by simp) _ _).trans (by simp),
    (foldl_keeps (fun u : State => u.moving) State.stopGenerator (fun u x => by simp) _ _).trans (by simp),
    (foldl_keeps (fun u : State => u.queued) State.stopGenerator (fun u x => by simp) _ _).trans (by simp),
    (foldl_keeps (fun u : State => u.engines) State.stopGenerator (fun u x => by simp) _ _).trans (by simp),
    (foldl_keeps (fun u : State => u.inputs) State.stopGenerator (fun u x => by simp) _ _).trans (by simp),
    (foldl_keeps (fun u : State => u.portM) State.stopGenerator (fun u x => by simp) _ _).trans (by simp),
    (foldl_keeps (fun u : State => u.portB) State.stopGenerator (fun u x => by simp) _ _).trans (by simp),
    (foldl_keeps (fun u : State => u.run) State.stopGenerator (fun u x => by simp) _ _).trans (by simp),
    (foldl_keeps (fun u : State => u.pins) State.stopGenerator (fun u x => by simp) _ _).trans (by simp),
    (foldl_keeps (fun u : State => u.due) State.stopGenerator (fun u x => by simp) _ _).trans (by simp),
    (foldl_keeps (fun u : State => u.freeCount) State.stopGenerator (fun u x => by simp) _ _).trans (by simp),
    (foldl_keeps (fun u : State => u.place) State.stopGenerator (fun u x => by simp) _ _).trans (by simp),
    (foldl_keeps (fun u : State => u.pending) State.stopGenerator (fun u x => by simp) _ _).trans (by simp)⟩

@[simp] theorem State.startGenerator_frame (w : Nat) (c : Fin 24) :
    (s.startGenerator w c).rigTime = s.rigTime ∧ (s.startGenerator w c).halfDone = s.halfDone ∧
      (s.startGenerator w c).angle = s.angle ∧ (s.startGenerator w c).lastEcho = s.lastEcho ∧
      (s.startGenerator w c).relays = s.relays ∧ (s.startGenerator w c).buses = s.buses ∧
      (s.startGenerator w c).timing = s.timing ∧ (s.startGenerator w c).battery = s.battery ∧
      (s.startGenerator w c).faults = s.faults ∧ (s.startGenerator w c).waitList = s.waitList ∧
      (s.startGenerator w c).joining = s.joining ∧ (s.startGenerator w c).examineDue = s.examineDue ∧
      (s.startGenerator w c).memory = s.memory ∧ (s.startGenerator w c).segments = s.segments ∧
      (s.startGenerator w c).moving = s.moving ∧ (s.startGenerator w c).queued = s.queued ∧
      (s.startGenerator w c).engines = s.engines ∧ (s.startGenerator w c).inputs = s.inputs ∧
      (s.startGenerator w c).portM = s.portM ∧ (s.startGenerator w c).portB = s.portB ∧
      (s.startGenerator w c).run = s.run ∧ (s.startGenerator w c).pins = s.pins ∧
      (s.startGenerator w c).due = s.due ∧ (s.startGenerator w c).freeCount = s.freeCount ∧
      (s.startGenerator w c).place = s.place ∧ (s.startGenerator w c).pending = s.pending := by
  simp only [State.startGenerator]
  (repeat' split) <;> simp

@[simp] theorem State.startRequested_frame (w : Nat) (c : Fin 24) :
    (s.startRequested w c).rigTime = s.rigTime ∧ (s.startRequested w c).halfDone = s.halfDone ∧
      (s.startRequested w c).angle = s.angle ∧ (s.startRequested w c).lastEcho = s.lastEcho ∧
      (s.startRequested w c).relays = s.relays ∧ (s.startRequested w c).buses = s.buses ∧
      (s.startRequested w c).timing = s.timing ∧ (s.startRequested w c).battery = s.battery ∧
      (s.startRequested w c).faults = s.faults ∧ (s.startRequested w c).waitList = s.waitList ∧
      (s.startRequested w c).joining = s.joining ∧ (s.startRequested w c).examineDue = s.examineDue ∧
      (s.startRequested w c).memory = s.memory ∧ (s.startRequested w c).segments = s.segments ∧
      (s.startRequested w c).moving = s.moving ∧ (s.startRequested w c).queued = s.queued ∧
      (s.startRequested w c).engines = s.engines ∧ (s.startRequested w c).inputs = s.inputs ∧
      (s.startRequested w c).portM = s.portM ∧ (s.startRequested w c).portB = s.portB ∧
      (s.startRequested w c).run = s.run ∧ (s.startRequested w c).pins = s.pins ∧
      (s.startRequested w c).due = s.due ∧ (s.startRequested w c).pending = s.pending := by
  simp only [State.startRequested]
  (repeat' split) <;> simp

@[simp] theorem State.startGenerators_frame :
    (s.startGenerators).rigTime = s.rigTime ∧ (s.startGenerators).halfDone = s.halfDone ∧
      (s.startGenerators).angle = s.angle ∧ (s.startGenerators).lastEcho = s.lastEcho ∧
      (s.startGenerators).relays = s.relays ∧ (s.startGenerators).buses = s.buses ∧
      (s.startGenerators).timing = s.timing ∧ (s.startGenerators).battery = s.battery ∧
      (s.startGenerators).faults = s.faults ∧ (s.startGenerators).waitList = s.waitList ∧
      (s.startGenerators).joining = s.joining ∧ (s.startGenerators).examineDue = s.examineDue ∧
      (s.startGenerators).memory = s.memory ∧ (s.startGenerators).segments = s.segments ∧
      (s.startGenerators).moving = s.moving ∧ (s.startGenerators).queued = s.queued ∧
      (s.startGenerators).engines = s.engines ∧ (s.startGenerators).inputs = s.inputs ∧
      (s.startGenerators).portM = s.portM ∧ (s.startGenerators).portB = s.portB ∧
      (s.startGenerators).run = s.run ∧ (s.startGenerators).pins = s.pins ∧
      (s.startGenerators).due = s.due ∧ (s.startGenerators).pending = s.pending := by
  simp only [State.startGenerators]
  refine ⟨(foldl_keeps (fun u : State => u.rigTime) (State.startRequested s.startPlace) (fun u x => by simp) _ _).trans (by simp),
    (foldl_keeps (fun u : State => u.halfDone) (State.startRequested s.startPlace) (fun u x => by simp) _ _).trans (by simp),
    (foldl_keeps (fun u : State => u.angle) (State.startRequested s.startPlace) (fun u x => by simp) _ _).trans (by simp),
    (foldl_keeps (fun u : State => u.lastEcho) (State.startRequested s.startPlace) (fun u x => by simp) _ _).trans (by simp),
    (foldl_keeps (fun u : State => u.relays) (State.startRequested s.startPlace) (fun u x => by simp) _ _).trans (by simp),
    (foldl_keeps (fun u : State => u.buses) (State.startRequested s.startPlace) (fun u x => by simp) _ _).trans (by simp),
    (foldl_keeps (fun u : State => u.timing) (State.startRequested s.startPlace) (fun u x => by simp) _ _).trans (by simp),
    (foldl_keeps (fun u : State => u.battery) (State.startRequested s.startPlace) (fun u x => by simp) _ _).trans (by simp),
    (foldl_keeps (fun u : State => u.faults) (State.startRequested s.startPlace) (fun u x => by simp) _ _).trans (by simp),
    (foldl_keeps (fun u : State => u.waitList) (State.startRequested s.startPlace) (fun u x => by simp) _ _).trans (by simp),
    (foldl_keeps (fun u : State => u.joining) (State.startRequested s.startPlace) (fun u x => by simp) _ _).trans (by simp),
    (foldl_keeps (fun u : State => u.examineDue) (State.startRequested s.startPlace) (fun u x => by simp) _ _).trans (by simp),
    (foldl_keeps (fun u : State => u.memory) (State.startRequested s.startPlace) (fun u x => by simp) _ _).trans (by simp),
    (foldl_keeps (fun u : State => u.segments) (State.startRequested s.startPlace) (fun u x => by simp) _ _).trans (by simp),
    (foldl_keeps (fun u : State => u.moving) (State.startRequested s.startPlace) (fun u x => by simp) _ _).trans (by simp),
    (foldl_keeps (fun u : State => u.queued) (State.startRequested s.startPlace) (fun u x => by simp) _ _).trans (by simp),
    (foldl_keeps (fun u : State => u.engines) (State.startRequested s.startPlace) (fun u x => by simp) _ _).trans (by simp),
    (foldl_keeps (fun u : State => u.inputs) (State.startRequested s.startPlace) (fun u x => by simp) _ _).trans (by simp),
    (foldl_keeps (fun u : State => u.portM) (State.startRequested s.startPlace) (fun u x => by simp) _ _).trans (by simp),
    (foldl_keeps (fun u : State => u.portB) (State.startRequested s.startPlace) (fun u x => by simp) _ _).trans (by simp),
    (foldl_keeps (fun u : State => u.run) (State.startRequested s.startPlace) (fun u x => by simp) _ _).trans (by simp),
    (foldl_keeps (fun u : State => u.pins) (State.startRequested s.startPlace) (fun u x => by simp) _ _).trans (by simp),
    (foldl_keeps (fun u : State => u.due) (State.startRequested s.startPlace) (fun u x => by simp) _ _).trans (by simp),
    (foldl_keeps (fun u : State => u.pending) (State.startRequested s.startPlace) (fun u x => by simp) _ _).trans (by simp)⟩

@[simp] theorem State.basePairChanged_frame (w : Nat) (c : Fin 24) :
    (s.basePairChanged w c).rigTime = s.rigTime ∧ (s.basePairChanged w c).halfDone = s.halfDone ∧
      (s.basePairChanged w c).angle = s.angle ∧ (s.basePairChanged w c).lastEcho = s.lastEcho ∧
      (s.basePairChanged w c).relays = s.relays ∧ (s.basePairChanged w c).buses = s.buses ∧
      (s.basePairChanged w c).timing = s.timing ∧ (s.basePairChanged w c).battery = s.battery ∧
      (s.basePairChanged w c).faults = s.faults ∧ (s.basePairChanged w c).waitList = s.waitList ∧
      (s.basePairChanged w c).joining = s.joining ∧ (s.basePairChanged w c).examineDue = s.examineDue ∧
      (s.basePairChanged w c).memory = s.memory ∧ (s.basePairChanged w c).segments = s.segments ∧
      (s.basePairChanged w c).moving = s.moving ∧ (s.basePairChanged w c).queued = s.queued ∧
      (s.basePairChanged w c).engines = s.engines ∧ (s.basePairChanged w c).inputs = s.inputs ∧
      (s.basePairChanged w c).portM = s.portM ∧ (s.basePairChanged w c).portB = s.portB ∧
      (s.basePairChanged w c).run = s.run ∧ (s.basePairChanged w c).pins = s.pins ∧
      (s.basePairChanged w c).due = s.due ∧ (s.basePairChanged w c).pending = s.pending := by
  simp only [State.basePairChanged]
  (repeat' split) <;> simp

@[simp] theorem State.countGenerators_frame :
    (s.countGenerators).rigTime = s.rigTime ∧ (s.countGenerators).halfDone = s.halfDone ∧
      (s.countGenerators).angle = s.angle ∧ (s.countGenerators).lastEcho = s.lastEcho ∧
      (s.countGenerators).relays = s.relays ∧ (s.countGenerators).buses = s.buses ∧
      (s.countGenerators).timing = s.timing ∧ (s.countGenerators).battery = s.battery ∧
      (s.countGenerators).faults = s.faults ∧ (s.countGenerators).waitList = s.waitList ∧
      (s.countGenerators).joining = s.joining ∧ (s.countGenerators).examineDue = s.examineDue ∧
      (s.countGenerators).memory = s.memory ∧ (s.countGenerators).segments = s.segments ∧
      (s.countGenerators).moving = s.moving ∧ (s.countGenerators).queued = s.queued ∧
      (s.countGenerators).engines = s.engines ∧ (s.countGenerators).inputs = s.inputs ∧
      (s.countGenerators).portM = s.portM ∧ (s.countGenerators).portB = s.portB ∧
      (s.countGenerators).run = s.run ∧ (s.countGenerators).pins = s.pins ∧
      (s.countGenerators).freeCount = s.freeCount ∧ (s.countGenerators).pending = s.pending := by
  simp [State.countGenerators]

@[simp] theorem State.takePeriodStart_frame (c : Fin 24) :
    (s.takePeriodStart c).rigTime = s.rigTime ∧ (s.takePeriodStart c).halfDone = s.halfDone ∧
      (s.takePeriodStart c).angle = s.angle ∧ (s.takePeriodStart c).lastEcho = s.lastEcho ∧
      (s.takePeriodStart c).relays = s.relays ∧ (s.takePeriodStart c).buses = s.buses ∧
      (s.takePeriodStart c).timing = s.timing ∧ (s.takePeriodStart c).battery = s.battery ∧
      (s.takePeriodStart c).faults = s.faults ∧ (s.takePeriodStart c).waitList = s.waitList ∧
      (s.takePeriodStart c).joining = s.joining ∧ (s.takePeriodStart c).examineDue = s.examineDue ∧
      (s.takePeriodStart c).memory = s.memory ∧ (s.takePeriodStart c).segments = s.segments ∧
      (s.takePeriodStart c).moving = s.moving ∧ (s.takePeriodStart c).queued = s.queued ∧
      (s.takePeriodStart c).engines = s.engines ∧ (s.takePeriodStart c).inputs = s.inputs ∧
      (s.takePeriodStart c).portM = s.portM ∧ (s.takePeriodStart c).portB = s.portB ∧
      (s.takePeriodStart c).run = s.run ∧ (s.takePeriodStart c).pins = s.pins ∧
      (s.takePeriodStart c).due = s.due ∧ (s.takePeriodStart c).freeCount = s.freeCount ∧
      (s.takePeriodStart c).place = s.place ∧ (s.takePeriodStart c).pending = s.pending := by
  simp only [State.takePeriodStart]
  (repeat' split) <;> simp

@[simp] theorem State.takeHighEnd_frame (c : Fin 24) :
    (s.takeHighEnd c).rigTime = s.rigTime ∧ (s.takeHighEnd c).halfDone = s.halfDone ∧
      (s.takeHighEnd c).angle = s.angle ∧ (s.takeHighEnd c).lastEcho = s.lastEcho ∧
      (s.takeHighEnd c).relays = s.relays ∧ (s.takeHighEnd c).buses = s.buses ∧
      (s.takeHighEnd c).timing = s.timing ∧ (s.takeHighEnd c).battery = s.battery ∧
      (s.takeHighEnd c).faults = s.faults ∧ (s.takeHighEnd c).waitList = s.waitList ∧
      (s.takeHighEnd c).joining = s.joining ∧ (s.takeHighEnd c).examineDue = s.examineDue ∧
      (s.takeHighEnd c).memory = s.memory ∧ (s.takeHighEnd c).segments = s.segments ∧
      (s.takeHighEnd c).moving = s.moving ∧ (s.takeHighEnd c).queued = s.queued ∧
      (s.takeHighEnd c).engines = s.engines ∧ (s.takeHighEnd c).inputs = s.inputs ∧
      (s.takeHighEnd c).portM = s.portM ∧ (s.takeHighEnd c).portB = s.portB ∧
      (s.takeHighEnd c).run = s.run ∧ (s.takeHighEnd c).pins = s.pins ∧ (s.takeHighEnd c).due = s.due ∧
      (s.takeHighEnd c).freeCount = s.freeCount ∧ (s.takeHighEnd c).place = s.place ∧
      (s.takeHighEnd c).pending = s.pending := by
  simp only [State.takeHighEnd]
  (repeat' split) <;> simp

@[simp] theorem State.writeLive_frame (c : Fin 24) (v : Value) :
    (s.writeLive c v).rigTime = s.rigTime ∧ (s.writeLive c v).halfDone = s.halfDone ∧
      (s.writeLive c v).angle = s.angle ∧ (s.writeLive c v).relays = s.relays ∧
      (s.writeLive c v).buses = s.buses ∧ (s.writeLive c v).timing = s.timing ∧
      (s.writeLive c v).battery = s.battery ∧ (s.writeLive c v).faults = s.faults ∧
      (s.writeLive c v).waitList = s.waitList ∧ (s.writeLive c v).joining = s.joining ∧
      (s.writeLive c v).examineDue = s.examineDue ∧ (s.writeLive c v).memory = s.memory ∧
      (s.writeLive c v).segments = s.segments ∧ (s.writeLive c v).moving = s.moving ∧
      (s.writeLive c v).queued = s.queued ∧ (s.writeLive c v).engines = s.engines ∧
      (s.writeLive c v).inputs = s.inputs ∧ (s.writeLive c v).portM = s.portM ∧
      (s.writeLive c v).portB = s.portB ∧ (s.writeLive c v).run = s.run ∧ (s.writeLive c v).pins = s.pins ∧
      (s.writeLive c v).due = s.due ∧ (s.writeLive c v).freeCount = s.freeCount ∧
      (s.writeLive c v).place = s.place ∧ (s.writeLive c v).pending = s.pending := by
  simp [State.writeLive]

@[simp] theorem State.pairWritten_frame (w : Nat) (c : Fin 24) :
    (s.pairWritten w c).rigTime = s.rigTime ∧ (s.pairWritten w c).halfDone = s.halfDone ∧
      (s.pairWritten w c).angle = s.angle ∧ (s.pairWritten w c).lastEcho = s.lastEcho ∧
      (s.pairWritten w c).relays = s.relays ∧ (s.pairWritten w c).buses = s.buses ∧
      (s.pairWritten w c).timing = s.timing ∧ (s.pairWritten w c).battery = s.battery ∧
      (s.pairWritten w c).faults = s.faults ∧ (s.pairWritten w c).waitList = s.waitList ∧
      (s.pairWritten w c).joining = s.joining ∧ (s.pairWritten w c).examineDue = s.examineDue ∧
      (s.pairWritten w c).memory = s.memory ∧ (s.pairWritten w c).segments = s.segments ∧
      (s.pairWritten w c).moving = s.moving ∧ (s.pairWritten w c).queued = s.queued ∧
      (s.pairWritten w c).engines = s.engines ∧ (s.pairWritten w c).inputs = s.inputs ∧
      (s.pairWritten w c).portM = s.portM ∧ (s.pairWritten w c).portB = s.portB ∧
      (s.pairWritten w c).run = s.run ∧ (s.pairWritten w c).pins = s.pins ∧
      (s.pairWritten w c).due = s.due ∧ (s.pairWritten w c).pending = s.pending := by
  simp only [State.pairWritten]
  (repeat' split) <;> simp

@[simp] theorem State.pairsWritten_frame (q : Fin 24 → Bool) :
    (s.pairsWritten q).rigTime = s.rigTime ∧ (s.pairsWritten q).halfDone = s.halfDone ∧
      (s.pairsWritten q).angle = s.angle ∧ (s.pairsWritten q).lastEcho = s.lastEcho ∧
      (s.pairsWritten q).relays = s.relays ∧ (s.pairsWritten q).buses = s.buses ∧
      (s.pairsWritten q).timing = s.timing ∧ (s.pairsWritten q).battery = s.battery ∧
      (s.pairsWritten q).faults = s.faults ∧ (s.pairsWritten q).waitList = s.waitList ∧
      (s.pairsWritten q).joining = s.joining ∧ (s.pairsWritten q).examineDue = s.examineDue ∧
      (s.pairsWritten q).memory = s.memory ∧ (s.pairsWritten q).segments = s.segments ∧
      (s.pairsWritten q).moving = s.moving ∧ (s.pairsWritten q).queued = s.queued ∧
      (s.pairsWritten q).engines = s.engines ∧ (s.pairsWritten q).inputs = s.inputs ∧
      (s.pairsWritten q).portM = s.portM ∧ (s.pairsWritten q).portB = s.portB ∧
      (s.pairsWritten q).run = s.run ∧ (s.pairsWritten q).pins = s.pins ∧ (s.pairsWritten q).due = s.due ∧
      (s.pairsWritten q).pending = s.pending := by
  simp only [State.pairsWritten]
  refine ⟨(foldl_keeps (fun u : State => u.rigTime) (State.pairWritten s.startPlace) (fun u x => by simp) _ _).trans (by simp),
    (foldl_keeps (fun u : State => u.halfDone) (State.pairWritten s.startPlace) (fun u x => by simp) _ _).trans (by simp),
    (foldl_keeps (fun u : State => u.angle) (State.pairWritten s.startPlace) (fun u x => by simp) _ _).trans (by simp),
    (foldl_keeps (fun u : State => u.lastEcho) (State.pairWritten s.startPlace) (fun u x => by simp) _ _).trans (by simp),
    (foldl_keeps (fun u : State => u.relays) (State.pairWritten s.startPlace) (fun u x => by simp) _ _).trans (by simp),
    (foldl_keeps (fun u : State => u.buses) (State.pairWritten s.startPlace) (fun u x => by simp) _ _).trans (by simp),
    (foldl_keeps (fun u : State => u.timing) (State.pairWritten s.startPlace) (fun u x => by simp) _ _).trans (by simp),
    (foldl_keeps (fun u : State => u.battery) (State.pairWritten s.startPlace) (fun u x => by simp) _ _).trans (by simp),
    (foldl_keeps (fun u : State => u.faults) (State.pairWritten s.startPlace) (fun u x => by simp) _ _).trans (by simp),
    (foldl_keeps (fun u : State => u.waitList) (State.pairWritten s.startPlace) (fun u x => by simp) _ _).trans (by simp),
    (foldl_keeps (fun u : State => u.joining) (State.pairWritten s.startPlace) (fun u x => by simp) _ _).trans (by simp),
    (foldl_keeps (fun u : State => u.examineDue) (State.pairWritten s.startPlace) (fun u x => by simp) _ _).trans (by simp),
    (foldl_keeps (fun u : State => u.memory) (State.pairWritten s.startPlace) (fun u x => by simp) _ _).trans (by simp),
    (foldl_keeps (fun u : State => u.segments) (State.pairWritten s.startPlace) (fun u x => by simp) _ _).trans (by simp),
    (foldl_keeps (fun u : State => u.moving) (State.pairWritten s.startPlace) (fun u x => by simp) _ _).trans (by simp),
    (foldl_keeps (fun u : State => u.queued) (State.pairWritten s.startPlace) (fun u x => by simp) _ _).trans (by simp),
    (foldl_keeps (fun u : State => u.engines) (State.pairWritten s.startPlace) (fun u x => by simp) _ _).trans (by simp),
    (foldl_keeps (fun u : State => u.inputs) (State.pairWritten s.startPlace) (fun u x => by simp) _ _).trans (by simp),
    (foldl_keeps (fun u : State => u.portM) (State.pairWritten s.startPlace) (fun u x => by simp) _ _).trans (by simp),
    (foldl_keeps (fun u : State => u.portB) (State.pairWritten s.startPlace) (fun u x => by simp) _ _).trans (by simp),
    (foldl_keeps (fun u : State => u.run) (State.pairWritten s.startPlace) (fun u x => by simp) _ _).trans (by simp),
    (foldl_keeps (fun u : State => u.pins) (State.pairWritten s.startPlace) (fun u x => by simp) _ _).trans (by simp),
    (foldl_keeps (fun u : State => u.due) (State.pairWritten s.startPlace) (fun u x => by simp) _ _).trans (by simp),
    (foldl_keeps (fun u : State => u.pending) (State.pairWritten s.startPlace) (fun u x => by simp) _ _).trans (by simp)⟩

@[simp] theorem State.stage_frame (c : Fin 24) (v : Value) :
    (s.stage c v).rigTime = s.rigTime ∧ (s.stage c v).halfDone = s.halfDone ∧
      (s.stage c v).angle = s.angle ∧ (s.stage c v).lastEcho = s.lastEcho ∧
      (s.stage c v).relays = s.relays ∧ (s.stage c v).buses = s.buses ∧ (s.stage c v).timing = s.timing ∧
      (s.stage c v).battery = s.battery ∧ (s.stage c v).faults = s.faults ∧
      (s.stage c v).waitList = s.waitList ∧ (s.stage c v).joining = s.joining ∧
      (s.stage c v).examineDue = s.examineDue ∧ (s.stage c v).memory = s.memory ∧
      (s.stage c v).segments = s.segments ∧ (s.stage c v).moving = s.moving ∧
      (s.stage c v).queued = s.queued ∧ (s.stage c v).engines = s.engines ∧
      (s.stage c v).inputs = s.inputs ∧ (s.stage c v).portM = s.portM ∧ (s.stage c v).portB = s.portB ∧
      (s.stage c v).run = s.run ∧ (s.stage c v).pins = s.pins ∧ (s.stage c v).due = s.due ∧
      (s.stage c v).freeCount = s.freeCount ∧ (s.stage c v).place = s.place ∧
      (s.stage c v).pending = s.pending := by
  simp [State.stage]

@[simp] theorem State.copySlot_frame (c : Fin 24) :
    (s.copySlot c).rigTime = s.rigTime ∧ (s.copySlot c).halfDone = s.halfDone ∧
      (s.copySlot c).angle = s.angle ∧ (s.copySlot c).relays = s.relays ∧ (s.copySlot c).buses = s.buses ∧
      (s.copySlot c).timing = s.timing ∧ (s.copySlot c).battery = s.battery ∧
      (s.copySlot c).faults = s.faults ∧ (s.copySlot c).waitList = s.waitList ∧
      (s.copySlot c).joining = s.joining ∧ (s.copySlot c).examineDue = s.examineDue ∧
      (s.copySlot c).memory = s.memory ∧ (s.copySlot c).segments = s.segments ∧
      (s.copySlot c).moving = s.moving ∧ (s.copySlot c).queued = s.queued ∧
      (s.copySlot c).engines = s.engines ∧ (s.copySlot c).inputs = s.inputs ∧
      (s.copySlot c).portM = s.portM ∧ (s.copySlot c).portB = s.portB ∧ (s.copySlot c).run = s.run ∧
      (s.copySlot c).pins = s.pins ∧ (s.copySlot c).due = s.due ∧ (s.copySlot c).freeCount = s.freeCount ∧
      (s.copySlot c).place = s.place ∧ (s.copySlot c).pending = s.pending := by
  simp only [State.copySlot]
  (repeat' split) <;> simp

@[simp] theorem State.copySlots_frame :
    (s.copySlots).rigTime = s.rigTime ∧ (s.copySlots).halfDone = s.halfDone ∧
      (s.copySlots).angle = s.angle ∧ (s.copySlots).relays = s.relays ∧ (s.copySlots).buses = s.buses ∧
      (s.copySlots).timing = s.timing ∧ (s.copySlots).battery = s.battery ∧
      (s.copySlots).faults = s.faults ∧ (s.copySlots).waitList = s.waitList ∧
      (s.copySlots).joining = s.joining ∧ (s.copySlots).examineDue = s.examineDue ∧
      (s.copySlots).memory = s.memory ∧ (s.copySlots).segments = s.segments ∧
      (s.copySlots).moving = s.moving ∧ (s.copySlots).queued = s.queued ∧
      (s.copySlots).engines = s.engines ∧ (s.copySlots).inputs = s.inputs ∧ (s.copySlots).portM = s.portM ∧
      (s.copySlots).portB = s.portB ∧ (s.copySlots).run = s.run ∧ (s.copySlots).pins = s.pins ∧
      (s.copySlots).due = s.due ∧ (s.copySlots).pending = s.pending := by
  simp only [State.copySlots, State.pairsWritten_frame]
  refine ⟨(foldl_keeps (fun u : State => u.rigTime) State.copySlot (fun u x => by simp) _ _).trans (by simp),
    (foldl_keeps (fun u : State => u.halfDone) State.copySlot (fun u x => by simp) _ _).trans (by simp),
    (foldl_keeps (fun u : State => u.angle) State.copySlot (fun u x => by simp) _ _).trans (by simp),
    (foldl_keeps (fun u : State => u.relays) State.copySlot (fun u x => by simp) _ _).trans (by simp),
    (foldl_keeps (fun u : State => u.buses) State.copySlot (fun u x => by simp) _ _).trans (by simp),
    (foldl_keeps (fun u : State => u.timing) State.copySlot (fun u x => by simp) _ _).trans (by simp),
    (foldl_keeps (fun u : State => u.battery) State.copySlot (fun u x => by simp) _ _).trans (by simp),
    (foldl_keeps (fun u : State => u.faults) State.copySlot (fun u x => by simp) _ _).trans (by simp),
    (foldl_keeps (fun u : State => u.waitList) State.copySlot (fun u x => by simp) _ _).trans (by simp),
    (foldl_keeps (fun u : State => u.joining) State.copySlot (fun u x => by simp) _ _).trans (by simp),
    (foldl_keeps (fun u : State => u.examineDue) State.copySlot (fun u x => by simp) _ _).trans (by simp),
    (foldl_keeps (fun u : State => u.memory) State.copySlot (fun u x => by simp) _ _).trans (by simp),
    (foldl_keeps (fun u : State => u.segments) State.copySlot (fun u x => by simp) _ _).trans (by simp),
    (foldl_keeps (fun u : State => u.moving) State.copySlot (fun u x => by simp) _ _).trans (by simp),
    (foldl_keeps (fun u : State => u.queued) State.copySlot (fun u x => by simp) _ _).trans (by simp),
    (foldl_keeps (fun u : State => u.engines) State.copySlot (fun u x => by simp) _ _).trans (by simp),
    (foldl_keeps (fun u : State => u.inputs) State.copySlot (fun u x => by simp) _ _).trans (by simp),
    (foldl_keeps (fun u : State => u.portM) State.copySlot (fun u x => by simp) _ _).trans (by simp),
    (foldl_keeps (fun u : State => u.portB) State.copySlot (fun u x => by simp) _ _).trans (by simp),
    (foldl_keeps (fun u : State => u.run) State.copySlot (fun u x => by simp) _ _).trans (by simp),
    (foldl_keeps (fun u : State => u.pins) State.copySlot (fun u x => by simp) _ _).trans (by simp),
    (foldl_keeps (fun u : State => u.due) State.copySlot (fun u x => by simp) _ _).trans (by simp),
    (foldl_keeps (fun u : State => u.pending) State.copySlot (fun u x => by simp) _ _).trans (by simp)⟩

@[simp] theorem State.mapDrivers_frame (f : Driver → Driver) :
    (s.mapDrivers f).rigTime = s.rigTime ∧ (s.mapDrivers f).halfDone = s.halfDone ∧
      (s.mapDrivers f).angle = s.angle ∧ (s.mapDrivers f).lastEcho = s.lastEcho ∧
      (s.mapDrivers f).relays = s.relays ∧ (s.mapDrivers f).buses = s.buses ∧
      (s.mapDrivers f).timing = s.timing ∧ (s.mapDrivers f).battery = s.battery ∧
      (s.mapDrivers f).faults = s.faults ∧ (s.mapDrivers f).waitList = s.waitList ∧
      (s.mapDrivers f).joining = s.joining ∧ (s.mapDrivers f).examineDue = s.examineDue ∧
      (s.mapDrivers f).memory = s.memory ∧ (s.mapDrivers f).segments = s.segments ∧
      (s.mapDrivers f).moving = s.moving ∧ (s.mapDrivers f).queued = s.queued ∧
      (s.mapDrivers f).engines = s.engines ∧ (s.mapDrivers f).inputs = s.inputs ∧
      (s.mapDrivers f).portM = s.portM ∧ (s.mapDrivers f).portB = s.portB ∧ (s.mapDrivers f).run = s.run ∧
      (s.mapDrivers f).pins = s.pins ∧ (s.mapDrivers f).due = s.due ∧
      (s.mapDrivers f).freeCount = s.freeCount ∧ (s.mapDrivers f).place = s.place ∧
      (s.mapDrivers f).pending = s.pending := by
  simp [State.mapDrivers]

@[simp] theorem State.sampleLimits_frame :
    (s.sampleLimits).rigTime = s.rigTime ∧ (s.sampleLimits).halfDone = s.halfDone ∧
      (s.sampleLimits).angle = s.angle ∧ (s.sampleLimits).lastEcho = s.lastEcho ∧
      (s.sampleLimits).relays = s.relays ∧ (s.sampleLimits).buses = s.buses ∧
      (s.sampleLimits).timing = s.timing ∧ (s.sampleLimits).battery = s.battery ∧
      (s.sampleLimits).faults = s.faults ∧ (s.sampleLimits).waitList = s.waitList ∧
      (s.sampleLimits).joining = s.joining ∧ (s.sampleLimits).examineDue = s.examineDue ∧
      (s.sampleLimits).memory = s.memory ∧ (s.sampleLimits).segments = s.segments ∧
      (s.sampleLimits).moving = s.moving ∧ (s.sampleLimits).queued = s.queued ∧
      (s.sampleLimits).engines = s.engines ∧ (s.sampleLimits).inputs = s.inputs ∧
      (s.sampleLimits).portM = s.portM ∧ (s.sampleLimits).portB = s.portB ∧ (s.sampleLimits).run = s.run ∧
      (s.sampleLimits).pins = s.pins ∧ (s.sampleLimits).freeCount = s.freeCount ∧
      (s.sampleLimits).place = s.place ∧ (s.sampleLimits).pending = s.pending := by
  simp [State.sampleLimits]

@[simp] theorem State.takeDriverTrip_frame (c : Fin 24) :
    (s.takeDriverTrip c).rigTime = s.rigTime ∧ (s.takeDriverTrip c).halfDone = s.halfDone ∧
      (s.takeDriverTrip c).angle = s.angle ∧ (s.takeDriverTrip c).lastEcho = s.lastEcho ∧
      (s.takeDriverTrip c).relays = s.relays ∧ (s.takeDriverTrip c).buses = s.buses ∧
      (s.takeDriverTrip c).timing = s.timing ∧ (s.takeDriverTrip c).battery = s.battery ∧
      (s.takeDriverTrip c).faults = s.faults ∧ (s.takeDriverTrip c).waitList = s.waitList ∧
      (s.takeDriverTrip c).joining = s.joining ∧ (s.takeDriverTrip c).examineDue = s.examineDue ∧
      (s.takeDriverTrip c).memory = s.memory ∧ (s.takeDriverTrip c).segments = s.segments ∧
      (s.takeDriverTrip c).moving = s.moving ∧ (s.takeDriverTrip c).queued = s.queued ∧
      (s.takeDriverTrip c).engines = s.engines ∧ (s.takeDriverTrip c).inputs = s.inputs ∧
      (s.takeDriverTrip c).portM.line = s.portM.line ∧ (s.takeDriverTrip c).portB.line = s.portB.line ∧
      (s.takeDriverTrip c).run = s.run ∧ (s.takeDriverTrip c).pins = s.pins ∧
      (s.takeDriverTrip c).due = s.due ∧ (s.takeDriverTrip c).freeCount = s.freeCount ∧
      (s.takeDriverTrip c).place = s.place ∧ (s.takeDriverTrip c).pending = s.pending := by
  simp only [State.takeDriverTrip]
  (repeat' split) <;> simp

@[simp] theorem State.restoreDrivers_frame :
    (s.restoreDrivers).rigTime = s.rigTime ∧ (s.restoreDrivers).halfDone = s.halfDone ∧
      (s.restoreDrivers).angle = s.angle ∧ (s.restoreDrivers).lastEcho = s.lastEcho ∧
      (s.restoreDrivers).relays = s.relays ∧ (s.restoreDrivers).buses = s.buses ∧
      (s.restoreDrivers).timing = s.timing ∧ (s.restoreDrivers).battery = s.battery ∧
      (s.restoreDrivers).faults = s.faults ∧ (s.restoreDrivers).waitList = s.waitList ∧
      (s.restoreDrivers).joining = s.joining ∧ (s.restoreDrivers).examineDue = s.examineDue ∧
      (s.restoreDrivers).memory = s.memory ∧ (s.restoreDrivers).segments = s.segments ∧
      (s.restoreDrivers).moving = s.moving ∧ (s.restoreDrivers).queued = s.queued ∧
      (s.restoreDrivers).engines = s.engines ∧ (s.restoreDrivers).inputs = s.inputs ∧
      (s.restoreDrivers).portM = s.portM ∧ (s.restoreDrivers).portB = s.portB ∧
      (s.restoreDrivers).run = s.run ∧ (s.restoreDrivers).pins = s.pins ∧ (s.restoreDrivers).due = s.due ∧
      (s.restoreDrivers).freeCount = s.freeCount ∧ (s.restoreDrivers).place = s.place ∧
      (s.restoreDrivers).pending = s.pending := by
  simp [State.restoreDrivers]

@[simp] theorem State.computeAnalog_frame :
    (s.computeAnalog).rigTime = s.rigTime ∧ (s.computeAnalog).halfDone = s.halfDone ∧
      (s.computeAnalog).angle = s.angle ∧ (s.computeAnalog).channels = s.channels ∧
      (s.computeAnalog).lastEcho = s.lastEcho ∧ (s.computeAnalog).relays = s.relays ∧
      (s.computeAnalog).buses = s.buses ∧ (s.computeAnalog).timing = s.timing ∧
      (s.computeAnalog).battery = s.battery ∧ (s.computeAnalog).faults = s.faults ∧
      (s.computeAnalog).waitList = s.waitList ∧ (s.computeAnalog).joining = s.joining ∧
      (s.computeAnalog).examineDue = s.examineDue ∧ (s.computeAnalog).memory = s.memory ∧
      (s.computeAnalog).segments = s.segments ∧ (s.computeAnalog).moving = s.moving ∧
      (s.computeAnalog).queued = s.queued ∧ (s.computeAnalog).inputs = s.inputs ∧
      (s.computeAnalog).portM = s.portM ∧ (s.computeAnalog).portB = s.portB ∧
      (s.computeAnalog).run = s.run ∧ (s.computeAnalog).pins = s.pins ∧ (s.computeAnalog).due = s.due ∧
      (s.computeAnalog).freeCount = s.freeCount ∧ (s.computeAnalog).place = s.place ∧
      (s.computeAnalog).pending = s.pending := by
  simp [State.computeAnalog]

@[simp] theorem State.computeSpeed_frame :
    (s.computeSpeed).rigTime = s.rigTime ∧ (s.computeSpeed).halfDone = s.halfDone ∧
      (s.computeSpeed).channels = s.channels ∧ (s.computeSpeed).lastEcho = s.lastEcho ∧
      (s.computeSpeed).relays = s.relays ∧ (s.computeSpeed).buses = s.buses ∧
      (s.computeSpeed).timing = s.timing ∧ (s.computeSpeed).battery = s.battery ∧
      (s.computeSpeed).faults = s.faults ∧ (s.computeSpeed).waitList = s.waitList ∧
      (s.computeSpeed).joining = s.joining ∧ (s.computeSpeed).examineDue = s.examineDue ∧
      (s.computeSpeed).memory = s.memory ∧ (s.computeSpeed).segments = s.segments ∧
      (s.computeSpeed).moving = s.moving ∧ (s.computeSpeed).queued = s.queued ∧
      (s.computeSpeed).inputs = s.inputs ∧ (s.computeSpeed).portM = s.portM ∧
      (s.computeSpeed).portB = s.portB ∧ (s.computeSpeed).run = s.run ∧ (s.computeSpeed).pins = s.pins ∧
      (s.computeSpeed).due = s.due ∧ (s.computeSpeed).freeCount = s.freeCount ∧
      (s.computeSpeed).place = s.place ∧ (s.computeSpeed).pending = s.pending := by
  simp only [State.computeSpeed]
  (repeat' split) <;> simp

@[simp] theorem State.dropRef_frame (g : Fin 32) :
    (s.dropRef g).rigTime = s.rigTime ∧ (s.dropRef g).halfDone = s.halfDone ∧
      (s.dropRef g).angle = s.angle ∧ (s.dropRef g).channels = s.channels ∧
      (s.dropRef g).lastEcho = s.lastEcho ∧ (s.dropRef g).relays = s.relays ∧
      (s.dropRef g).buses = s.buses ∧ (s.dropRef g).timing = s.timing ∧ (s.dropRef g).battery = s.battery ∧
      (s.dropRef g).faults = s.faults ∧ (s.dropRef g).waitList = s.waitList ∧
      (s.dropRef g).joining = s.joining ∧ (s.dropRef g).examineDue = s.examineDue ∧
      (s.dropRef g).memory = s.memory ∧ (s.dropRef g).moving = s.moving ∧ (s.dropRef g).queued = s.queued ∧
      (s.dropRef g).engines = s.engines ∧ (s.dropRef g).inputs = s.inputs ∧ (s.dropRef g).portM = s.portM ∧
      (s.dropRef g).portB = s.portB ∧ (s.dropRef g).run = s.run ∧ (s.dropRef g).pins = s.pins ∧
      (s.dropRef g).due = s.due ∧ (s.dropRef g).freeCount = s.freeCount ∧ (s.dropRef g).place = s.place ∧
      (s.dropRef g).pending = s.pending := by
  simp [State.dropRef]

@[simp] theorem State.promote_frame (n : Fin 4) :
    (s.promote n).rigTime = s.rigTime ∧ (s.promote n).halfDone = s.halfDone ∧
      (s.promote n).angle = s.angle ∧ (s.promote n).channels = s.channels ∧
      (s.promote n).lastEcho = s.lastEcho ∧ (s.promote n).relays = s.relays ∧
      (s.promote n).buses = s.buses ∧ (s.promote n).timing = s.timing ∧ (s.promote n).battery = s.battery ∧
      (s.promote n).faults = s.faults ∧ (s.promote n).waitList = s.waitList ∧
      (s.promote n).joining = s.joining ∧ (s.promote n).examineDue = s.examineDue ∧
      (s.promote n).memory = s.memory ∧ (s.promote n).segments = s.segments ∧
      (s.promote n).moving = s.moving ∧ (s.promote n).queued = s.queued ∧ (s.promote n).inputs = s.inputs ∧
      (s.promote n).portM = s.portM ∧ (s.promote n).portB = s.portB ∧ (s.promote n).run = s.run ∧
      (s.promote n).pins = s.pins ∧ (s.promote n).freeCount = s.freeCount ∧ (s.promote n).place = s.place ∧
      (s.promote n).pending = s.pending := by
  simp only [State.promote]
  (repeat' split) <;> simp

@[simp] theorem State.endDescriptor_frame (n : Fin 4) (w : Bool) :
    (s.endDescriptor n w).rigTime = s.rigTime ∧ (s.endDescriptor n w).halfDone = s.halfDone ∧
      (s.endDescriptor n w).angle = s.angle ∧ (s.endDescriptor n w).channels = s.channels ∧
      (s.endDescriptor n w).lastEcho = s.lastEcho ∧ (s.endDescriptor n w).relays = s.relays ∧
      (s.endDescriptor n w).buses = s.buses ∧ (s.endDescriptor n w).timing = s.timing ∧
      (s.endDescriptor n w).battery = s.battery ∧ (s.endDescriptor n w).faults = s.faults ∧
      (s.endDescriptor n w).waitList = s.waitList ∧ (s.endDescriptor n w).joining = s.joining ∧
      (s.endDescriptor n w).examineDue = s.examineDue ∧ (s.endDescriptor n w).memory = s.memory ∧
      (s.endDescriptor n w).moving = s.moving ∧ (s.endDescriptor n w).queued = s.queued ∧
      (s.endDescriptor n w).inputs = s.inputs ∧ (s.endDescriptor n w).portM.line = s.portM.line ∧
      (s.endDescriptor n w).portB.line = s.portB.line ∧ (s.endDescriptor n w).run = s.run ∧
      (s.endDescriptor n w).pins = s.pins ∧ (s.endDescriptor n w).freeCount = s.freeCount ∧
      (s.endDescriptor n w).place = s.place ∧ (s.endDescriptor n w).pending = s.pending := by
  simp only [State.endDescriptor]
  (repeat' split) <;> simp

@[simp] theorem State.movePosition_frame (n : Fin 4) (d : Nat) (w : Bool) :
    (s.movePosition n d w).rigTime = s.rigTime ∧ (s.movePosition n d w).halfDone = s.halfDone ∧
      (s.movePosition n d w).angle = s.angle ∧ (s.movePosition n d w).channels = s.channels ∧
      (s.movePosition n d w).lastEcho = s.lastEcho ∧ (s.movePosition n d w).relays = s.relays ∧
      (s.movePosition n d w).buses = s.buses ∧ (s.movePosition n d w).timing = s.timing ∧
      (s.movePosition n d w).battery = s.battery ∧ (s.movePosition n d w).faults = s.faults ∧
      (s.movePosition n d w).waitList = s.waitList ∧ (s.movePosition n d w).joining = s.joining ∧
      (s.movePosition n d w).examineDue = s.examineDue ∧ (s.movePosition n d w).memory = s.memory ∧
      (s.movePosition n d w).moving = s.moving ∧ (s.movePosition n d w).queued = s.queued ∧
      (s.movePosition n d w).inputs = s.inputs ∧ (s.movePosition n d w).portM.line = s.portM.line ∧
      (s.movePosition n d w).portB.line = s.portB.line ∧ (s.movePosition n d w).run = s.run ∧
      (s.movePosition n d w).pins = s.pins ∧ (s.movePosition n d w).freeCount = s.freeCount ∧
      (s.movePosition n d w).place = s.place ∧ (s.movePosition n d w).pending = s.pending := by
  simp only [State.movePosition]
  (repeat' split) <;> simp

@[simp] theorem State.tickEngine_frame (b : BitVec 32) (w : Bool) (n : Fin 4) :
    (State.tickEngine b w s n).rigTime = s.rigTime ∧ (State.tickEngine b w s n).halfDone = s.halfDone ∧
      (State.tickEngine b w s n).angle = s.angle ∧ (State.tickEngine b w s n).channels = s.channels ∧
      (State.tickEngine b w s n).lastEcho = s.lastEcho ∧ (State.tickEngine b w s n).relays = s.relays ∧
      (State.tickEngine b w s n).buses = s.buses ∧ (State.tickEngine b w s n).timing = s.timing ∧
      (State.tickEngine b w s n).battery = s.battery ∧ (State.tickEngine b w s n).faults = s.faults ∧
      (State.tickEngine b w s n).waitList = s.waitList ∧ (State.tickEngine b w s n).joining = s.joining ∧
      (State.tickEngine b w s n).examineDue = s.examineDue ∧ (State.tickEngine b w s n).memory = s.memory ∧
      (State.tickEngine b w s n).moving = s.moving ∧ (State.tickEngine b w s n).queued = s.queued ∧
      (State.tickEngine b w s n).inputs = s.inputs ∧ (State.tickEngine b w s n).portM.line = s.portM.line ∧
      (State.tickEngine b w s n).portB.line = s.portB.line ∧ (State.tickEngine b w s n).run = s.run ∧
      (State.tickEngine b w s n).pins = s.pins ∧ (State.tickEngine b w s n).freeCount = s.freeCount ∧
      (State.tickEngine b w s n).place = s.place ∧ (State.tickEngine b w s n).pending = s.pending := by
  simp only [State.tickEngine]
  (repeat' split) <;> simp

@[simp] theorem State.tickEngines_frame (b : BitVec 32) (w : Bool) :
    (s.tickEngines b w).rigTime = s.rigTime ∧ (s.tickEngines b w).halfDone = s.halfDone ∧
      (s.tickEngines b w).angle = s.angle ∧ (s.tickEngines b w).channels = s.channels ∧
      (s.tickEngines b w).lastEcho = s.lastEcho ∧ (s.tickEngines b w).relays = s.relays ∧
      (s.tickEngines b w).buses = s.buses ∧ (s.tickEngines b w).timing = s.timing ∧
      (s.tickEngines b w).battery = s.battery ∧ (s.tickEngines b w).faults = s.faults ∧
      (s.tickEngines b w).waitList = s.waitList ∧ (s.tickEngines b w).joining = s.joining ∧
      (s.tickEngines b w).examineDue = s.examineDue ∧ (s.tickEngines b w).memory = s.memory ∧
      (s.tickEngines b w).moving = s.moving ∧ (s.tickEngines b w).queued = s.queued ∧
      (s.tickEngines b w).inputs = s.inputs ∧ (s.tickEngines b w).portM.line = s.portM.line ∧
      (s.tickEngines b w).portB.line = s.portB.line ∧ (s.tickEngines b w).run = s.run ∧
      (s.tickEngines b w).pins = s.pins ∧ (s.tickEngines b w).freeCount = s.freeCount ∧
      (s.tickEngines b w).place = s.place ∧ (s.tickEngines b w).pending = s.pending := by
  simp only [State.tickEngines]
  split
  · refine ⟨(foldl_keeps (fun u : State => u.rigTime) (State.tickEngine b w) (fun u x => by simp) _ _).trans (by simp),
      (foldl_keeps (fun u : State => u.halfDone) (State.tickEngine b w) (fun u x => by simp) _ _).trans (by simp),
      (foldl_keeps (fun u : State => u.angle) (State.tickEngine b w) (fun u x => by simp) _ _).trans (by simp),
      (foldl_keeps (fun u : State => u.channels) (State.tickEngine b w) (fun u x => by simp) _ _).trans (by simp),
      (foldl_keeps (fun u : State => u.lastEcho) (State.tickEngine b w) (fun u x => by simp) _ _).trans (by simp),
      (foldl_keeps (fun u : State => u.relays) (State.tickEngine b w) (fun u x => by simp) _ _).trans (by simp),
      (foldl_keeps (fun u : State => u.buses) (State.tickEngine b w) (fun u x => by simp) _ _).trans (by simp),
      (foldl_keeps (fun u : State => u.timing) (State.tickEngine b w) (fun u x => by simp) _ _).trans (by simp),
      (foldl_keeps (fun u : State => u.battery) (State.tickEngine b w) (fun u x => by simp) _ _).trans (by simp),
      (foldl_keeps (fun u : State => u.faults) (State.tickEngine b w) (fun u x => by simp) _ _).trans (by simp),
      (foldl_keeps (fun u : State => u.waitList) (State.tickEngine b w) (fun u x => by simp) _ _).trans (by simp),
      (foldl_keeps (fun u : State => u.joining) (State.tickEngine b w) (fun u x => by simp) _ _).trans (by simp),
      (foldl_keeps (fun u : State => u.examineDue) (State.tickEngine b w) (fun u x => by simp) _ _).trans (by simp),
      (foldl_keeps (fun u : State => u.memory) (State.tickEngine b w) (fun u x => by simp) _ _).trans (by simp),
      (foldl_keeps (fun u : State => u.moving) (State.tickEngine b w) (fun u x => by simp) _ _).trans (by simp),
      (foldl_keeps (fun u : State => u.queued) (State.tickEngine b w) (fun u x => by simp) _ _).trans (by simp),
      (foldl_keeps (fun u : State => u.inputs) (State.tickEngine b w) (fun u x => by simp) _ _).trans (by simp),
      (foldl_keeps (fun u : State => u.portM.line) (State.tickEngine b w) (fun u x => by simp) _ _).trans (by simp),
      (foldl_keeps (fun u : State => u.portB.line) (State.tickEngine b w) (fun u x => by simp) _ _).trans (by simp),
      (foldl_keeps (fun u : State => u.run) (State.tickEngine b w) (fun u x => by simp) _ _).trans (by simp),
      (foldl_keeps (fun u : State => u.pins) (State.tickEngine b w) (fun u x => by simp) _ _).trans (by simp),
      (foldl_keeps (fun u : State => u.freeCount) (State.tickEngine b w) (fun u x => by simp) _ _).trans (by simp),
      (foldl_keeps (fun u : State => u.place) (State.tickEngine b w) (fun u x => by simp) _ _).trans (by simp),
      (foldl_keeps (fun u : State => u.pending) (State.tickEngine b w) (fun u x => by simp) _ _).trans (by simp)⟩
  · simp

@[simp] theorem State.takeReplayAdvance_frame (n : Fin 4) :
    (s.takeReplayAdvance n).rigTime = s.rigTime ∧ (s.takeReplayAdvance n).halfDone = s.halfDone ∧
      (s.takeReplayAdvance n).angle = s.angle ∧ (s.takeReplayAdvance n).channels = s.channels ∧
      (s.takeReplayAdvance n).lastEcho = s.lastEcho ∧ (s.takeReplayAdvance n).relays = s.relays ∧
      (s.takeReplayAdvance n).buses = s.buses ∧ (s.takeReplayAdvance n).timing = s.timing ∧
      (s.takeReplayAdvance n).battery = s.battery ∧ (s.takeReplayAdvance n).faults = s.faults ∧
      (s.takeReplayAdvance n).waitList = s.waitList ∧ (s.takeReplayAdvance n).joining = s.joining ∧
      (s.takeReplayAdvance n).examineDue = s.examineDue ∧ (s.takeReplayAdvance n).memory = s.memory ∧
      (s.takeReplayAdvance n).moving = s.moving ∧ (s.takeReplayAdvance n).queued = s.queued ∧
      (s.takeReplayAdvance n).inputs = s.inputs ∧ (s.takeReplayAdvance n).portM.line = s.portM.line ∧
      (s.takeReplayAdvance n).portB.line = s.portB.line ∧ (s.takeReplayAdvance n).run = s.run ∧
      (s.takeReplayAdvance n).pins = s.pins ∧ (s.takeReplayAdvance n).freeCount = s.freeCount ∧
      (s.takeReplayAdvance n).place = s.place ∧ (s.takeReplayAdvance n).pending = s.pending := by
  simp only [State.takeReplayAdvance]
  (repeat' split) <;> simp

@[simp] theorem State.pauseEngines_frame :
    (s.pauseEngines).rigTime = s.rigTime ∧ (s.pauseEngines).halfDone = s.halfDone ∧
      (s.pauseEngines).angle = s.angle ∧ (s.pauseEngines).channels = s.channels ∧
      (s.pauseEngines).lastEcho = s.lastEcho ∧ (s.pauseEngines).relays = s.relays ∧
      (s.pauseEngines).buses = s.buses ∧ (s.pauseEngines).timing = s.timing ∧
      (s.pauseEngines).battery = s.battery ∧ (s.pauseEngines).faults = s.faults ∧
      (s.pauseEngines).waitList = s.waitList ∧ (s.pauseEngines).joining = s.joining ∧
      (s.pauseEngines).examineDue = s.examineDue ∧ (s.pauseEngines).memory = s.memory ∧
      (s.pauseEngines).segments = s.segments ∧ (s.pauseEngines).moving = s.moving ∧
      (s.pauseEngines).queued = s.queued ∧ (s.pauseEngines).inputs = s.inputs ∧
      (s.pauseEngines).portM = s.portM ∧ (s.pauseEngines).portB = s.portB ∧ (s.pauseEngines).run = s.run ∧
      (s.pauseEngines).pins = s.pins ∧ (s.pauseEngines).due = s.due ∧
      (s.pauseEngines).freeCount = s.freeCount ∧ (s.pauseEngines).place = s.place ∧
      (s.pauseEngines).pending = s.pending := by
  simp [State.pauseEngines]

@[simp] theorem State.idleEngines_frame :
    (s.idleEngines).rigTime = s.rigTime ∧ (s.idleEngines).halfDone = s.halfDone ∧
      (s.idleEngines).angle = s.angle ∧ (s.idleEngines).channels = s.channels ∧
      (s.idleEngines).lastEcho = s.lastEcho ∧ (s.idleEngines).relays = s.relays ∧
      (s.idleEngines).buses = s.buses ∧ (s.idleEngines).timing = s.timing ∧
      (s.idleEngines).battery = s.battery ∧ (s.idleEngines).faults = s.faults ∧
      (s.idleEngines).waitList = s.waitList ∧ (s.idleEngines).joining = s.joining ∧
      (s.idleEngines).examineDue = s.examineDue ∧ (s.idleEngines).memory = s.memory ∧
      (s.idleEngines).segments = s.segments ∧ (s.idleEngines).moving = s.moving ∧
      (s.idleEngines).queued = s.queued ∧ (s.idleEngines).inputs = s.inputs ∧
      (s.idleEngines).portM = s.portM ∧ (s.idleEngines).portB = s.portB ∧ (s.idleEngines).run = s.run ∧
      (s.idleEngines).pins = s.pins ∧ (s.idleEngines).due = s.due ∧
      (s.idleEngines).freeCount = s.freeCount ∧ (s.idleEngines).place = s.place ∧
      (s.idleEngines).pending = s.pending := by
  simp [State.idleEngines]

@[simp] theorem State.startEngine_frame (n : Fin 4) :
    (s.startEngine n).rigTime = s.rigTime ∧ (s.startEngine n).halfDone = s.halfDone ∧
      (s.startEngine n).angle = s.angle ∧ (s.startEngine n).channels = s.channels ∧
      (s.startEngine n).lastEcho = s.lastEcho ∧ (s.startEngine n).relays = s.relays ∧
      (s.startEngine n).buses = s.buses ∧ (s.startEngine n).timing = s.timing ∧
      (s.startEngine n).battery = s.battery ∧ (s.startEngine n).faults = s.faults ∧
      (s.startEngine n).waitList = s.waitList ∧ (s.startEngine n).joining = s.joining ∧
      (s.startEngine n).examineDue = s.examineDue ∧ (s.startEngine n).memory = s.memory ∧
      (s.startEngine n).segments = s.segments ∧ (s.startEngine n).moving = s.moving ∧
      (s.startEngine n).queued = s.queued ∧ (s.startEngine n).inputs = s.inputs ∧
      (s.startEngine n).portM = s.portM ∧ (s.startEngine n).portB = s.portB ∧
      (s.startEngine n).run = s.run ∧ (s.startEngine n).pins = s.pins ∧
      (s.startEngine n).freeCount = s.freeCount ∧ (s.startEngine n).place = s.place ∧
      (s.startEngine n).pending = s.pending := by
  simp only [State.startEngine]
  (repeat' split) <;> simp

@[simp] theorem State.startEngines_frame :
    (s.startEngines).rigTime = s.rigTime ∧ (s.startEngines).halfDone = s.halfDone ∧
      (s.startEngines).angle = s.angle ∧ (s.startEngines).channels = s.channels ∧
      (s.startEngines).lastEcho = s.lastEcho ∧ (s.startEngines).relays = s.relays ∧
      (s.startEngines).buses = s.buses ∧ (s.startEngines).timing = s.timing ∧
      (s.startEngines).battery = s.battery ∧ (s.startEngines).faults = s.faults ∧
      (s.startEngines).waitList = s.waitList ∧ (s.startEngines).joining = s.joining ∧
      (s.startEngines).examineDue = s.examineDue ∧ (s.startEngines).memory = s.memory ∧
      (s.startEngines).segments = s.segments ∧ (s.startEngines).moving = s.moving ∧
      (s.startEngines).queued = s.queued ∧ (s.startEngines).inputs = s.inputs ∧
      (s.startEngines).portM = s.portM ∧ (s.startEngines).portB = s.portB ∧ (s.startEngines).run = s.run ∧
      (s.startEngines).pins = s.pins ∧ (s.startEngines).freeCount = s.freeCount ∧
      (s.startEngines).place = s.place ∧ (s.startEngines).pending = s.pending := by
  simp only [State.startEngines]
  refine ⟨(foldl_keeps (fun u : State => u.rigTime) State.startEngine (fun u x => by simp) _ _).trans (by simp),
    (foldl_keeps (fun u : State => u.halfDone) State.startEngine (fun u x => by simp) _ _).trans (by simp),
    (foldl_keeps (fun u : State => u.angle) State.startEngine (fun u x => by simp) _ _).trans (by simp),
    (foldl_keeps (fun u : State => u.channels) State.startEngine (fun u x => by simp) _ _).trans (by simp),
    (foldl_keeps (fun u : State => u.lastEcho) State.startEngine (fun u x => by simp) _ _).trans (by simp),
    (foldl_keeps (fun u : State => u.relays) State.startEngine (fun u x => by simp) _ _).trans (by simp),
    (foldl_keeps (fun u : State => u.buses) State.startEngine (fun u x => by simp) _ _).trans (by simp),
    (foldl_keeps (fun u : State => u.timing) State.startEngine (fun u x => by simp) _ _).trans (by simp),
    (foldl_keeps (fun u : State => u.battery) State.startEngine (fun u x => by simp) _ _).trans (by simp),
    (foldl_keeps (fun u : State => u.faults) State.startEngine (fun u x => by simp) _ _).trans (by simp),
    (foldl_keeps (fun u : State => u.waitList) State.startEngine (fun u x => by simp) _ _).trans (by simp),
    (foldl_keeps (fun u : State => u.joining) State.startEngine (fun u x => by simp) _ _).trans (by simp),
    (foldl_keeps (fun u : State => u.examineDue) State.startEngine (fun u x => by simp) _ _).trans (by simp),
    (foldl_keeps (fun u : State => u.memory) State.startEngine (fun u x => by simp) _ _).trans (by simp),
    (foldl_keeps (fun u : State => u.segments) State.startEngine (fun u x => by simp) _ _).trans (by simp),
    (foldl_keeps (fun u : State => u.moving) State.startEngine (fun u x => by simp) _ _).trans (by simp),
    (foldl_keeps (fun u : State => u.queued) State.startEngine (fun u x => by simp) _ _).trans (by simp),
    (foldl_keeps (fun u : State => u.inputs) State.startEngine (fun u x => by simp) _ _).trans (by simp),
    (foldl_keeps (fun u : State => u.portM) State.startEngine (fun u x => by simp) _ _).trans (by simp),
    (foldl_keeps (fun u : State => u.portB) State.startEngine (fun u x => by simp) _ _).trans (by simp),
    (foldl_keeps (fun u : State => u.run) State.startEngine (fun u x => by simp) _ _).trans (by simp),
    (foldl_keeps (fun u : State => u.pins) State.startEngine (fun u x => by simp) _ _).trans (by simp),
    (foldl_keeps (fun u : State => u.freeCount) State.startEngine (fun u x => by simp) _ _).trans (by simp),
    (foldl_keeps (fun u : State => u.place) State.startEngine (fun u x => by simp) _ _).trans (by simp),
    (foldl_keeps (fun u : State => u.pending) State.startEngine (fun u x => by simp) _ _).trans (by simp)⟩

@[simp] theorem State.enterDone_frame (k : Fin 64) :
    (s.enterDone k).rigTime = s.rigTime ∧ (s.enterDone k).halfDone = s.halfDone ∧
      (s.enterDone k).angle = s.angle ∧ (s.enterDone k).channels = s.channels ∧
      (s.enterDone k).lastEcho = s.lastEcho ∧ (s.enterDone k).relays = s.relays ∧
      (s.enterDone k).buses = s.buses ∧ (s.enterDone k).timing = s.timing ∧
      (s.enterDone k).battery = s.battery ∧ (s.enterDone k).waitList = s.waitList ∧
      (s.enterDone k).joining = s.joining ∧ (s.enterDone k).examineDue = s.examineDue ∧
      (s.enterDone k).memory = s.memory ∧ (s.enterDone k).segments = s.segments ∧
      (s.enterDone k).moving = s.moving ∧ (s.enterDone k).queued = s.queued ∧
      (s.enterDone k).engines = s.engines ∧ (s.enterDone k).inputs = s.inputs ∧
      (s.enterDone k).portM.line = s.portM.line ∧ (s.enterDone k).portB.line = s.portB.line ∧
      (s.enterDone k).run = s.run ∧ (s.enterDone k).pins = s.pins ∧ (s.enterDone k).due = s.due ∧
      (s.enterDone k).freeCount = s.freeCount ∧ (s.enterDone k).place = s.place ∧
      (s.enterDone k).pending = s.pending := by
  simp [State.enterDone]

@[simp] theorem State.enterFailed_frame (k : Fin 64) (w : FailReason) :
    (s.enterFailed k w).rigTime = s.rigTime ∧ (s.enterFailed k w).halfDone = s.halfDone ∧
      (s.enterFailed k w).angle = s.angle ∧ (s.enterFailed k w).channels = s.channels ∧
      (s.enterFailed k w).lastEcho = s.lastEcho ∧ (s.enterFailed k w).relays = s.relays ∧
      (s.enterFailed k w).buses = s.buses ∧ (s.enterFailed k w).timing = s.timing ∧
      (s.enterFailed k w).battery = s.battery ∧ (s.enterFailed k w).waitList = s.waitList ∧
      (s.enterFailed k w).joining = s.joining ∧ (s.enterFailed k w).examineDue = s.examineDue ∧
      (s.enterFailed k w).memory = s.memory ∧ (s.enterFailed k w).segments = s.segments ∧
      (s.enterFailed k w).moving = s.moving ∧ (s.enterFailed k w).queued = s.queued ∧
      (s.enterFailed k w).engines = s.engines ∧ (s.enterFailed k w).inputs = s.inputs ∧
      (s.enterFailed k w).portM.line = s.portM.line ∧ (s.enterFailed k w).portB.line = s.portB.line ∧
      (s.enterFailed k w).run = s.run ∧ (s.enterFailed k w).pins = s.pins ∧
      (s.enterFailed k w).due = s.due ∧ (s.enterFailed k w).freeCount = s.freeCount ∧
      (s.enterFailed k w).place = s.place ∧ (s.enterFailed k w).pending = s.pending := by
  simp [State.enterFailed]

@[simp] theorem State.enterActive_frame (k : Fin 64) :
    (s.enterActive k).rigTime = s.rigTime ∧ (s.enterActive k).halfDone = s.halfDone ∧
      (s.enterActive k).angle = s.angle ∧ (s.enterActive k).lastEcho = s.lastEcho ∧
      (s.enterActive k).relays = s.relays ∧ (s.enterActive k).buses = s.buses ∧
      (s.enterActive k).timing = s.timing ∧ (s.enterActive k).battery = s.battery ∧
      (s.enterActive k).waitList = s.waitList ∧ (s.enterActive k).joining = s.joining ∧
      (s.enterActive k).examineDue = s.examineDue ∧ (s.enterActive k).memory = s.memory ∧
      (s.enterActive k).segments = s.segments ∧ (s.enterActive k).moving = s.moving ∧
      (s.enterActive k).queued = s.queued ∧ (s.enterActive k).engines = s.engines ∧
      (s.enterActive k).inputs = s.inputs ∧ (s.enterActive k).portM.line = s.portM.line ∧
      (s.enterActive k).portB.line = s.portB.line ∧ (s.enterActive k).run = s.run ∧
      (s.enterActive k).pins = s.pins ∧ (s.enterActive k).due = s.due ∧
      (s.enterActive k).freeCount = s.freeCount ∧ (s.enterActive k).place = s.place ∧
      (s.enterActive k).pending = s.pending := by
  simp only [State.enterActive]
  (repeat' split) <;> simp

@[simp] theorem State.fireFuel_frame (n : Nat) (k : Fin 64) :
    (fireFuel n s k).rigTime = s.rigTime ∧ (fireFuel n s k).halfDone = s.halfDone ∧
      (fireFuel n s k).angle = s.angle ∧ (fireFuel n s k).lastEcho = s.lastEcho ∧
      (fireFuel n s k).relays = s.relays ∧ (fireFuel n s k).buses = s.buses ∧
      (fireFuel n s k).timing = s.timing ∧ (fireFuel n s k).battery = s.battery ∧
      (fireFuel n s k).waitList = s.waitList ∧ (fireFuel n s k).memory = s.memory ∧
      (fireFuel n s k).segments = s.segments ∧ (fireFuel n s k).moving = s.moving ∧
      (fireFuel n s k).queued = s.queued ∧ (fireFuel n s k).engines = s.engines ∧
      (fireFuel n s k).inputs = s.inputs ∧ (fireFuel n s k).portM.line = s.portM.line ∧
      (fireFuel n s k).portB.line = s.portB.line ∧ (fireFuel n s k).run = s.run ∧
      (fireFuel n s k).pins = s.pins ∧ (fireFuel n s k).due = s.due ∧
      (fireFuel n s k).freeCount = s.freeCount ∧ (fireFuel n s k).place = s.place ∧
      (fireFuel n s k).pending = s.pending := by
  induction n generalizing s k with
  | zero => simp [fireFuel]
  | succ n ih =>
    simp only [fireFuel]
    split
    · split
      · refine ⟨(foldl_keeps (fun u : State => u.rigTime) (fireFuel n) (fun u x => by simp [ih u x]) _ _).trans (by simp),
          (foldl_keeps (fun u : State => u.halfDone) (fireFuel n) (fun u x => by simp [ih u x]) _ _).trans (by simp),
          (foldl_keeps (fun u : State => u.angle) (fireFuel n) (fun u x => by simp [ih u x]) _ _).trans (by simp),
          (foldl_keeps (fun u : State => u.lastEcho) (fireFuel n) (fun u x => by simp [ih u x]) _ _).trans (by simp),
          (foldl_keeps (fun u : State => u.relays) (fireFuel n) (fun u x => by simp [ih u x]) _ _).trans (by simp),
          (foldl_keeps (fun u : State => u.buses) (fireFuel n) (fun u x => by simp [ih u x]) _ _).trans (by simp),
          (foldl_keeps (fun u : State => u.timing) (fireFuel n) (fun u x => by simp [ih u x]) _ _).trans (by simp),
          (foldl_keeps (fun u : State => u.battery) (fireFuel n) (fun u x => by simp [ih u x]) _ _).trans (by simp),
          (foldl_keeps (fun u : State => u.waitList) (fireFuel n) (fun u x => by simp [ih u x]) _ _).trans (by simp),
          (foldl_keeps (fun u : State => u.memory) (fireFuel n) (fun u x => by simp [ih u x]) _ _).trans (by simp),
          (foldl_keeps (fun u : State => u.segments) (fireFuel n) (fun u x => by simp [ih u x]) _ _).trans (by simp),
          (foldl_keeps (fun u : State => u.moving) (fireFuel n) (fun u x => by simp [ih u x]) _ _).trans (by simp),
          (foldl_keeps (fun u : State => u.queued) (fireFuel n) (fun u x => by simp [ih u x]) _ _).trans (by simp),
          (foldl_keeps (fun u : State => u.engines) (fireFuel n) (fun u x => by simp [ih u x]) _ _).trans (by simp),
          (foldl_keeps (fun u : State => u.inputs) (fireFuel n) (fun u x => by simp [ih u x]) _ _).trans (by simp),
          (foldl_keeps (fun u : State => u.portM.line) (fireFuel n) (fun u x => by simp [ih u x]) _ _).trans (by simp),
          (foldl_keeps (fun u : State => u.portB.line) (fireFuel n) (fun u x => by simp [ih u x]) _ _).trans (by simp),
          (foldl_keeps (fun u : State => u.run) (fireFuel n) (fun u x => by simp [ih u x]) _ _).trans (by simp),
          (foldl_keeps (fun u : State => u.pins) (fireFuel n) (fun u x => by simp [ih u x]) _ _).trans (by simp),
          (foldl_keeps (fun u : State => u.due) (fireFuel n) (fun u x => by simp [ih u x]) _ _).trans (by simp),
          (foldl_keeps (fun u : State => u.freeCount) (fireFuel n) (fun u x => by simp [ih u x]) _ _).trans (by simp),
          (foldl_keeps (fun u : State => u.place) (fireFuel n) (fun u x => by simp [ih u x]) _ _).trans (by simp),
          (foldl_keeps (fun u : State => u.pending) (fireFuel n) (fun u x => by simp [ih u x]) _ _).trans (by simp)⟩
      · split <;> simp
    · simp

@[simp] theorem State.fire_frame (k : Fin 64) :
    (s.fire k).rigTime = s.rigTime ∧ (s.fire k).halfDone = s.halfDone ∧ (s.fire k).angle = s.angle ∧
      (s.fire k).lastEcho = s.lastEcho ∧ (s.fire k).relays = s.relays ∧ (s.fire k).buses = s.buses ∧
      (s.fire k).timing = s.timing ∧ (s.fire k).battery = s.battery ∧ (s.fire k).waitList = s.waitList ∧
      (s.fire k).memory = s.memory ∧ (s.fire k).segments = s.segments ∧ (s.fire k).moving = s.moving ∧
      (s.fire k).queued = s.queued ∧ (s.fire k).engines = s.engines ∧ (s.fire k).inputs = s.inputs ∧
      (s.fire k).portM.line = s.portM.line ∧ (s.fire k).portB.line = s.portB.line ∧ (s.fire k).run = s.run ∧
      (s.fire k).pins = s.pins ∧ (s.fire k).due = s.due ∧ (s.fire k).freeCount = s.freeCount ∧
      (s.fire k).place = s.place ∧ (s.fire k).pending = s.pending := by
  simp [State.fire]

@[simp] theorem State.produce_frame (k : Fin 64) (e : FaultEvent) :
    (s.produce k e).rigTime = s.rigTime ∧ (s.produce k e).halfDone = s.halfDone ∧
      (s.produce k e).angle = s.angle ∧ (s.produce k e).lastEcho = s.lastEcho ∧
      (s.produce k e).relays = s.relays ∧ (s.produce k e).buses = s.buses ∧
      (s.produce k e).timing = s.timing ∧ (s.produce k e).battery = s.battery ∧
      (s.produce k e).waitList = s.waitList ∧ (s.produce k e).memory = s.memory ∧
      (s.produce k e).segments = s.segments ∧ (s.produce k e).moving = s.moving ∧
      (s.produce k e).queued = s.queued ∧ (s.produce k e).engines = s.engines ∧
      (s.produce k e).inputs = s.inputs ∧ (s.produce k e).portM.line = s.portM.line ∧
      (s.produce k e).portB.line = s.portB.line ∧ (s.produce k e).run = s.run ∧
      (s.produce k e).pins = s.pins ∧ (s.produce k e).due = s.due ∧
      (s.produce k e).freeCount = s.freeCount ∧ (s.produce k e).place = s.place ∧
      (s.produce k e).pending = s.pending := by
  simp only [State.produce]
  refine ⟨(foldl_keeps (fun u : State => u.rigTime) State.fire (fun u x => by simp) _ _).trans (by simp),
    (foldl_keeps (fun u : State => u.halfDone) State.fire (fun u x => by simp) _ _).trans (by simp),
    (foldl_keeps (fun u : State => u.angle) State.fire (fun u x => by simp) _ _).trans (by simp),
    (foldl_keeps (fun u : State => u.lastEcho) State.fire (fun u x => by simp) _ _).trans (by simp),
    (foldl_keeps (fun u : State => u.relays) State.fire (fun u x => by simp) _ _).trans (by simp),
    (foldl_keeps (fun u : State => u.buses) State.fire (fun u x => by simp) _ _).trans (by simp),
    (foldl_keeps (fun u : State => u.timing) State.fire (fun u x => by simp) _ _).trans (by simp),
    (foldl_keeps (fun u : State => u.battery) State.fire (fun u x => by simp) _ _).trans (by simp),
    (foldl_keeps (fun u : State => u.waitList) State.fire (fun u x => by simp) _ _).trans (by simp),
    (foldl_keeps (fun u : State => u.memory) State.fire (fun u x => by simp) _ _).trans (by simp),
    (foldl_keeps (fun u : State => u.segments) State.fire (fun u x => by simp) _ _).trans (by simp),
    (foldl_keeps (fun u : State => u.moving) State.fire (fun u x => by simp) _ _).trans (by simp),
    (foldl_keeps (fun u : State => u.queued) State.fire (fun u x => by simp) _ _).trans (by simp),
    (foldl_keeps (fun u : State => u.engines) State.fire (fun u x => by simp) _ _).trans (by simp),
    (foldl_keeps (fun u : State => u.inputs) State.fire (fun u x => by simp) _ _).trans (by simp),
    (foldl_keeps (fun u : State => u.portM.line) State.fire (fun u x => by simp) _ _).trans (by simp),
    (foldl_keeps (fun u : State => u.portB.line) State.fire (fun u x => by simp) _ _).trans (by simp),
    (foldl_keeps (fun u : State => u.run) State.fire (fun u x => by simp) _ _).trans (by simp),
    (foldl_keeps (fun u : State => u.pins) State.fire (fun u x => by simp) _ _).trans (by simp),
    (foldl_keeps (fun u : State => u.due) State.fire (fun u x => by simp) _ _).trans (by simp),
    (foldl_keeps (fun u : State => u.freeCount) State.fire (fun u x => by simp) _ _).trans (by simp),
    (foldl_keeps (fun u : State => u.place) State.fire (fun u x => by simp) _ _).trans (by simp),
    (foldl_keeps (fun u : State => u.pending) State.fire (fun u x => by simp) _ _).trans (by simp)⟩

@[simp] theorem State.endActivation_frame (k : Fin 64) :
    (s.endActivation k).rigTime = s.rigTime ∧ (s.endActivation k).halfDone = s.halfDone ∧
      (s.endActivation k).angle = s.angle ∧ (s.endActivation k).lastEcho = s.lastEcho ∧
      (s.endActivation k).relays = s.relays ∧ (s.endActivation k).buses = s.buses ∧
      (s.endActivation k).timing = s.timing ∧ (s.endActivation k).battery = s.battery ∧
      (s.endActivation k).waitList = s.waitList ∧ (s.endActivation k).memory = s.memory ∧
      (s.endActivation k).segments = s.segments ∧ (s.endActivation k).moving = s.moving ∧
      (s.endActivation k).queued = s.queued ∧ (s.endActivation k).engines = s.engines ∧
      (s.endActivation k).inputs = s.inputs ∧ (s.endActivation k).portM.line = s.portM.line ∧
      (s.endActivation k).portB.line = s.portB.line ∧ (s.endActivation k).run = s.run ∧
      (s.endActivation k).pins = s.pins ∧ (s.endActivation k).due = s.due ∧
      (s.endActivation k).freeCount = s.freeCount ∧ (s.endActivation k).place = s.place ∧
      (s.endActivation k).pending = s.pending := by
  simp only [State.endActivation]
  (repeat' split) <;> simp

@[simp] theorem State.tickFaults_frame (d : Nat) (w : Bool) :
    (s.tickFaults d w).rigTime = s.rigTime ∧ (s.tickFaults d w).halfDone = s.halfDone ∧
      (s.tickFaults d w).angle = s.angle ∧ (s.tickFaults d w).channels = s.channels ∧
      (s.tickFaults d w).lastEcho = s.lastEcho ∧ (s.tickFaults d w).relays = s.relays ∧
      (s.tickFaults d w).buses = s.buses ∧ (s.tickFaults d w).timing = s.timing ∧
      (s.tickFaults d w).battery = s.battery ∧ (s.tickFaults d w).waitList = s.waitList ∧
      (s.tickFaults d w).joining = s.joining ∧ (s.tickFaults d w).examineDue = s.examineDue ∧
      (s.tickFaults d w).memory = s.memory ∧ (s.tickFaults d w).segments = s.segments ∧
      (s.tickFaults d w).moving = s.moving ∧ (s.tickFaults d w).queued = s.queued ∧
      (s.tickFaults d w).engines = s.engines ∧ (s.tickFaults d w).inputs = s.inputs ∧
      (s.tickFaults d w).portM = s.portM ∧ (s.tickFaults d w).portB = s.portB ∧
      (s.tickFaults d w).run = s.run ∧ (s.tickFaults d w).pins = s.pins ∧
      (s.tickFaults d w).freeCount = s.freeCount ∧ (s.tickFaults d w).place = s.place ∧
      (s.tickFaults d w).pending = s.pending := by
  simp [State.tickFaults]

@[simp] theorem State.noteAtTime_frame :
    (s.noteAtTime).rigTime = s.rigTime ∧ (s.noteAtTime).halfDone = s.halfDone ∧
      (s.noteAtTime).angle = s.angle ∧ (s.noteAtTime).channels = s.channels ∧
      (s.noteAtTime).lastEcho = s.lastEcho ∧ (s.noteAtTime).relays = s.relays ∧
      (s.noteAtTime).buses = s.buses ∧ (s.noteAtTime).timing = s.timing ∧
      (s.noteAtTime).battery = s.battery ∧ (s.noteAtTime).faults = s.faults ∧
      (s.noteAtTime).waitList = s.waitList ∧ (s.noteAtTime).joining = s.joining ∧
      (s.noteAtTime).examineDue = s.examineDue ∧ (s.noteAtTime).memory = s.memory ∧
      (s.noteAtTime).segments = s.segments ∧ (s.noteAtTime).moving = s.moving ∧
      (s.noteAtTime).queued = s.queued ∧ (s.noteAtTime).engines = s.engines ∧
      (s.noteAtTime).inputs = s.inputs ∧ (s.noteAtTime).portM = s.portM ∧ (s.noteAtTime).portB = s.portB ∧
      (s.noteAtTime).run = s.run ∧ (s.noteAtTime).pins = s.pins ∧ (s.noteAtTime).freeCount = s.freeCount ∧
      (s.noteAtTime).place = s.place ∧ (s.noteAtTime).pending = s.pending := by
  simp only [State.noteAtTime]
  (repeat' split) <;> simp

@[simp] theorem State.takeAtTime_frame (k : Fin 64) :
    (s.takeAtTime k).rigTime = s.rigTime ∧ (s.takeAtTime k).halfDone = s.halfDone ∧
      (s.takeAtTime k).angle = s.angle ∧ (s.takeAtTime k).lastEcho = s.lastEcho ∧
      (s.takeAtTime k).relays = s.relays ∧ (s.takeAtTime k).buses = s.buses ∧
      (s.takeAtTime k).timing = s.timing ∧ (s.takeAtTime k).battery = s.battery ∧
      (s.takeAtTime k).waitList = s.waitList ∧ (s.takeAtTime k).memory = s.memory ∧
      (s.takeAtTime k).segments = s.segments ∧ (s.takeAtTime k).moving = s.moving ∧
      (s.takeAtTime k).queued = s.queued ∧ (s.takeAtTime k).engines = s.engines ∧
      (s.takeAtTime k).inputs = s.inputs ∧ (s.takeAtTime k).portM.line = s.portM.line ∧
      (s.takeAtTime k).portB.line = s.portB.line ∧ (s.takeAtTime k).run = s.run ∧
      (s.takeAtTime k).pins = s.pins ∧ (s.takeAtTime k).due = s.due ∧
      (s.takeAtTime k).freeCount = s.freeCount ∧ (s.takeAtTime k).place = s.place ∧
      (s.takeAtTime k).pending = s.pending := by
  simp only [State.takeAtTime]
  (repeat' split) <;> simp

@[simp] theorem State.fireAtAngle_frame (b d : Nat) (c c' : Half) :
    (s.fireAtAngle b d c c').rigTime = s.rigTime ∧ (s.fireAtAngle b d c c').halfDone = s.halfDone ∧
      (s.fireAtAngle b d c c').angle = s.angle ∧ (s.fireAtAngle b d c c').lastEcho = s.lastEcho ∧
      (s.fireAtAngle b d c c').relays = s.relays ∧ (s.fireAtAngle b d c c').buses = s.buses ∧
      (s.fireAtAngle b d c c').timing = s.timing ∧ (s.fireAtAngle b d c c').battery = s.battery ∧
      (s.fireAtAngle b d c c').waitList = s.waitList ∧ (s.fireAtAngle b d c c').memory = s.memory ∧
      (s.fireAtAngle b d c c').segments = s.segments ∧ (s.fireAtAngle b d c c').moving = s.moving ∧
      (s.fireAtAngle b d c c').queued = s.queued ∧ (s.fireAtAngle b d c c').engines = s.engines ∧
      (s.fireAtAngle b d c c').inputs = s.inputs ∧ (s.fireAtAngle b d c c').portM.line = s.portM.line ∧
      (s.fireAtAngle b d c c').portB.line = s.portB.line ∧ (s.fireAtAngle b d c c').run = s.run ∧
      (s.fireAtAngle b d c c').pins = s.pins ∧ (s.fireAtAngle b d c c').due = s.due ∧
      (s.fireAtAngle b d c c').freeCount = s.freeCount ∧ (s.fireAtAngle b d c c').place = s.place ∧
      (s.fireAtAngle b d c c').pending = s.pending := by
  simp only [State.fireAtAngle]
  split
  · refine ⟨(foldl_keeps (fun u : State => u.rigTime) (State.fire) (fun u x => by simp) _ _).trans (by simp),
      (foldl_keeps (fun u : State => u.halfDone) (State.fire) (fun u x => by simp) _ _).trans (by simp),
      (foldl_keeps (fun u : State => u.angle) (State.fire) (fun u x => by simp) _ _).trans (by simp),
      (foldl_keeps (fun u : State => u.lastEcho) (State.fire) (fun u x => by simp) _ _).trans (by simp),
      (foldl_keeps (fun u : State => u.relays) (State.fire) (fun u x => by simp) _ _).trans (by simp),
      (foldl_keeps (fun u : State => u.buses) (State.fire) (fun u x => by simp) _ _).trans (by simp),
      (foldl_keeps (fun u : State => u.timing) (State.fire) (fun u x => by simp) _ _).trans (by simp),
      (foldl_keeps (fun u : State => u.battery) (State.fire) (fun u x => by simp) _ _).trans (by simp),
      (foldl_keeps (fun u : State => u.waitList) (State.fire) (fun u x => by simp) _ _).trans (by simp),
      (foldl_keeps (fun u : State => u.memory) (State.fire) (fun u x => by simp) _ _).trans (by simp),
      (foldl_keeps (fun u : State => u.segments) (State.fire) (fun u x => by simp) _ _).trans (by simp),
      (foldl_keeps (fun u : State => u.moving) (State.fire) (fun u x => by simp) _ _).trans (by simp),
      (foldl_keeps (fun u : State => u.queued) (State.fire) (fun u x => by simp) _ _).trans (by simp),
      (foldl_keeps (fun u : State => u.engines) (State.fire) (fun u x => by simp) _ _).trans (by simp),
      (foldl_keeps (fun u : State => u.inputs) (State.fire) (fun u x => by simp) _ _).trans (by simp),
      (foldl_keeps (fun u : State => u.portM.line) (State.fire) (fun u x => by simp) _ _).trans (by simp),
      (foldl_keeps (fun u : State => u.portB.line) (State.fire) (fun u x => by simp) _ _).trans (by simp),
      (foldl_keeps (fun u : State => u.run) (State.fire) (fun u x => by simp) _ _).trans (by simp),
      (foldl_keeps (fun u : State => u.pins) (State.fire) (fun u x => by simp) _ _).trans (by simp),
      (foldl_keeps (fun u : State => u.due) (State.fire) (fun u x => by simp) _ _).trans (by simp),
      (foldl_keeps (fun u : State => u.freeCount) (State.fire) (fun u x => by simp) _ _).trans (by simp),
      (foldl_keeps (fun u : State => u.place) (State.fire) (fun u x => by simp) _ _).trans (by simp),
      (foldl_keeps (fun u : State => u.pending) (State.fire) (fun u x => by simp) _ _).trans (by simp)⟩
  · simp

@[simp] theorem State.countEdge_frame (i : Fin 16) (r : Bool) :
    (s.countEdge i r).rigTime = s.rigTime ∧ (s.countEdge i r).halfDone = s.halfDone ∧
      (s.countEdge i r).angle = s.angle ∧ (s.countEdge i r).channels = s.channels ∧
      (s.countEdge i r).lastEcho = s.lastEcho ∧ (s.countEdge i r).relays = s.relays ∧
      (s.countEdge i r).buses = s.buses ∧ (s.countEdge i r).timing = s.timing ∧
      (s.countEdge i r).battery = s.battery ∧ (s.countEdge i r).waitList = s.waitList ∧
      (s.countEdge i r).joining = s.joining ∧ (s.countEdge i r).examineDue = s.examineDue ∧
      (s.countEdge i r).memory = s.memory ∧ (s.countEdge i r).segments = s.segments ∧
      (s.countEdge i r).moving = s.moving ∧ (s.countEdge i r).queued = s.queued ∧
      (s.countEdge i r).engines = s.engines ∧ (s.countEdge i r).inputs = s.inputs ∧
      (s.countEdge i r).portM = s.portM ∧ (s.countEdge i r).portB = s.portB ∧
      (s.countEdge i r).run = s.run ∧ (s.countEdge i r).pins = s.pins ∧
      (s.countEdge i r).freeCount = s.freeCount ∧ (s.countEdge i r).place = s.place ∧
      (s.countEdge i r).pending = s.pending := by
  simp [State.countEdge]

@[simp] theorem State.takeOnCapture_frame (k : Fin 64) :
    (s.takeOnCapture k).rigTime = s.rigTime ∧ (s.takeOnCapture k).halfDone = s.halfDone ∧
      (s.takeOnCapture k).angle = s.angle ∧ (s.takeOnCapture k).lastEcho = s.lastEcho ∧
      (s.takeOnCapture k).relays = s.relays ∧ (s.takeOnCapture k).buses = s.buses ∧
      (s.takeOnCapture k).timing = s.timing ∧ (s.takeOnCapture k).battery = s.battery ∧
      (s.takeOnCapture k).waitList = s.waitList ∧ (s.takeOnCapture k).memory = s.memory ∧
      (s.takeOnCapture k).segments = s.segments ∧ (s.takeOnCapture k).moving = s.moving ∧
      (s.takeOnCapture k).queued = s.queued ∧ (s.takeOnCapture k).engines = s.engines ∧
      (s.takeOnCapture k).inputs = s.inputs ∧ (s.takeOnCapture k).portM.line = s.portM.line ∧
      (s.takeOnCapture k).portB.line = s.portB.line ∧ (s.takeOnCapture k).run = s.run ∧
      (s.takeOnCapture k).pins = s.pins ∧ (s.takeOnCapture k).due = s.due ∧
      (s.takeOnCapture k).freeCount = s.freeCount ∧ (s.takeOnCapture k).place = s.place ∧
      (s.takeOnCapture k).pending = s.pending := by
  simp only [State.takeOnCapture]
  (repeat' split) <;> simp

@[simp] theorem State.wish_frame (w : Wish) :
    (s.wish w).rigTime = s.rigTime ∧ (s.wish w).halfDone = s.halfDone ∧ (s.wish w).angle = s.angle ∧
      (s.wish w).channels = s.channels ∧ (s.wish w).lastEcho = s.lastEcho ∧ (s.wish w).buses = s.buses ∧
      (s.wish w).timing = s.timing ∧ (s.wish w).battery = s.battery ∧ (s.wish w).faults = s.faults ∧
      (s.wish w).waitList = s.waitList ∧ (s.wish w).joining = s.joining ∧
      (s.wish w).examineDue = s.examineDue ∧ (s.wish w).memory = s.memory ∧
      (s.wish w).segments = s.segments ∧ (s.wish w).moving = s.moving ∧ (s.wish w).queued = s.queued ∧
      (s.wish w).engines = s.engines ∧ (s.wish w).inputs = s.inputs ∧ (s.wish w).portM = s.portM ∧
      (s.wish w).portB = s.portB ∧ (s.wish w).run = s.run ∧ (s.wish w).pins = s.pins ∧
      (s.wish w).due = s.due ∧ (s.wish w).freeCount = s.freeCount ∧ (s.wish w).place = s.place ∧
      (s.wish w).pending = s.pending := by
  simp [State.wish]

@[simp] theorem State.runStep_frame (l : List Wish) :
    (s.runStep l).rigTime = s.rigTime ∧ (s.runStep l).halfDone = s.halfDone ∧
      (s.runStep l).angle = s.angle ∧ (s.runStep l).channels = s.channels ∧
      (s.runStep l).lastEcho = s.lastEcho ∧ (s.runStep l).buses = s.buses ∧
      (s.runStep l).timing = s.timing ∧ (s.runStep l).battery = s.battery ∧
      (s.runStep l).faults = s.faults ∧ (s.runStep l).waitList = s.waitList ∧
      (s.runStep l).joining = s.joining ∧ (s.runStep l).examineDue = s.examineDue ∧
      (s.runStep l).memory = s.memory ∧ (s.runStep l).segments = s.segments ∧
      (s.runStep l).moving = s.moving ∧ (s.runStep l).queued = s.queued ∧
      (s.runStep l).engines = s.engines ∧ (s.runStep l).inputs = s.inputs ∧ (s.runStep l).portM = s.portM ∧
      (s.runStep l).portB = s.portB ∧ (s.runStep l).run = s.run ∧ (s.runStep l).pins = s.pins ∧
      (s.runStep l).due = s.due ∧ (s.runStep l).freeCount = s.freeCount ∧ (s.runStep l).place = s.place ∧
      (s.runStep l).pending = s.pending := by
  simp only [State.runStep]
  refine ⟨(foldl_keeps (fun u : State => u.rigTime) State.wish (fun u x => by simp) _ _).trans (by simp),
    (foldl_keeps (fun u : State => u.halfDone) State.wish (fun u x => by simp) _ _).trans (by simp),
    (foldl_keeps (fun u : State => u.angle) State.wish (fun u x => by simp) _ _).trans (by simp),
    (foldl_keeps (fun u : State => u.channels) State.wish (fun u x => by simp) _ _).trans (by simp),
    (foldl_keeps (fun u : State => u.lastEcho) State.wish (fun u x => by simp) _ _).trans (by simp),
    (foldl_keeps (fun u : State => u.buses) State.wish (fun u x => by simp) _ _).trans (by simp),
    (foldl_keeps (fun u : State => u.timing) State.wish (fun u x => by simp) _ _).trans (by simp),
    (foldl_keeps (fun u : State => u.battery) State.wish (fun u x => by simp) _ _).trans (by simp),
    (foldl_keeps (fun u : State => u.faults) State.wish (fun u x => by simp) _ _).trans (by simp),
    (foldl_keeps (fun u : State => u.waitList) State.wish (fun u x => by simp) _ _).trans (by simp),
    (foldl_keeps (fun u : State => u.joining) State.wish (fun u x => by simp) _ _).trans (by simp),
    (foldl_keeps (fun u : State => u.examineDue) State.wish (fun u x => by simp) _ _).trans (by simp),
    (foldl_keeps (fun u : State => u.memory) State.wish (fun u x => by simp) _ _).trans (by simp),
    (foldl_keeps (fun u : State => u.segments) State.wish (fun u x => by simp) _ _).trans (by simp),
    (foldl_keeps (fun u : State => u.moving) State.wish (fun u x => by simp) _ _).trans (by simp),
    (foldl_keeps (fun u : State => u.queued) State.wish (fun u x => by simp) _ _).trans (by simp),
    (foldl_keeps (fun u : State => u.engines) State.wish (fun u x => by simp) _ _).trans (by simp),
    (foldl_keeps (fun u : State => u.inputs) State.wish (fun u x => by simp) _ _).trans (by simp),
    (foldl_keeps (fun u : State => u.portM) State.wish (fun u x => by simp) _ _).trans (by simp),
    (foldl_keeps (fun u : State => u.portB) State.wish (fun u x => by simp) _ _).trans (by simp),
    (foldl_keeps (fun u : State => u.run) State.wish (fun u x => by simp) _ _).trans (by simp),
    (foldl_keeps (fun u : State => u.pins) State.wish (fun u x => by simp) _ _).trans (by simp),
    (foldl_keeps (fun u : State => u.due) State.wish (fun u x => by simp) _ _).trans (by simp),
    (foldl_keeps (fun u : State => u.freeCount) State.wish (fun u x => by simp) _ _).trans (by simp),
    (foldl_keeps (fun u : State => u.place) State.wish (fun u x => by simp) _ _).trans (by simp),
    (foldl_keeps (fun u : State => u.pending) State.wish (fun u x => by simp) _ _).trans (by simp)⟩

@[simp] theorem State.runSteps_frame (i : Nat) (l : List (List Wish)) :
    ((runSteps s i l).1).rigTime = s.rigTime ∧ ((runSteps s i l).1).halfDone = s.halfDone ∧
      ((runSteps s i l).1).angle = s.angle ∧ ((runSteps s i l).1).channels = s.channels ∧
      ((runSteps s i l).1).lastEcho = s.lastEcho ∧ ((runSteps s i l).1).buses = s.buses ∧
      ((runSteps s i l).1).timing = s.timing ∧ ((runSteps s i l).1).battery = s.battery ∧
      ((runSteps s i l).1).faults = s.faults ∧ ((runSteps s i l).1).waitList = s.waitList ∧
      ((runSteps s i l).1).joining = s.joining ∧ ((runSteps s i l).1).examineDue = s.examineDue ∧
      ((runSteps s i l).1).memory = s.memory ∧ ((runSteps s i l).1).segments = s.segments ∧
      ((runSteps s i l).1).moving = s.moving ∧ ((runSteps s i l).1).queued = s.queued ∧
      ((runSteps s i l).1).engines = s.engines ∧ ((runSteps s i l).1).inputs = s.inputs ∧
      ((runSteps s i l).1).portM = s.portM ∧ ((runSteps s i l).1).portB = s.portB ∧
      ((runSteps s i l).1).run = s.run ∧ ((runSteps s i l).1).pins = s.pins ∧
      ((runSteps s i l).1).due = s.due ∧ ((runSteps s i l).1).freeCount = s.freeCount ∧
      ((runSteps s i l).1).place = s.place ∧ ((runSteps s i l).1).pending = s.pending := by
  induction l generalizing s i with
  | nil => simp [runSteps]
  | cons x l ih =>
    simp only [runSteps]
    split <;> simp [ih]

@[simp] theorem State.releaseHolders_frame (k : Fin 64) :
    (s.releaseHolders k).rigTime = s.rigTime ∧ (s.releaseHolders k).halfDone = s.halfDone ∧
      (s.releaseHolders k).angle = s.angle ∧ (s.releaseHolders k).channels = s.channels ∧
      (s.releaseHolders k).lastEcho = s.lastEcho ∧ (s.releaseHolders k).timing = s.timing ∧
      (s.releaseHolders k).battery = s.battery ∧ (s.releaseHolders k).faults = s.faults ∧
      (s.releaseHolders k).waitList = s.waitList ∧ (s.releaseHolders k).joining = s.joining ∧
      (s.releaseHolders k).memory = s.memory ∧ (s.releaseHolders k).segments = s.segments ∧
      (s.releaseHolders k).moving = s.moving ∧ (s.releaseHolders k).queued = s.queued ∧
      (s.releaseHolders k).engines = s.engines ∧ (s.releaseHolders k).inputs = s.inputs ∧
      (s.releaseHolders k).portM = s.portM ∧ (s.releaseHolders k).portB = s.portB ∧
      (s.releaseHolders k).run = s.run ∧ (s.releaseHolders k).pins = s.pins ∧
      (s.releaseHolders k).due = s.due ∧ (s.releaseHolders k).freeCount = s.freeCount ∧
      (s.releaseHolders k).place = s.place ∧ (s.releaseHolders k).pending = s.pending := by
  simp [State.releaseHolders]

@[simp] theorem State.stopComplete_frame (k : Fin 64) :
    (s.stopComplete k).rigTime = s.rigTime ∧ (s.stopComplete k).halfDone = s.halfDone ∧
      (s.stopComplete k).angle = s.angle ∧ (s.stopComplete k).lastEcho = s.lastEcho ∧
      (s.stopComplete k).timing = s.timing ∧ (s.stopComplete k).battery = s.battery ∧
      (s.stopComplete k).waitList = s.waitList ∧ (s.stopComplete k).memory = s.memory ∧
      (s.stopComplete k).segments = s.segments ∧ (s.stopComplete k).moving = s.moving ∧
      (s.stopComplete k).queued = s.queued ∧ (s.stopComplete k).engines = s.engines ∧
      (s.stopComplete k).inputs = s.inputs ∧ (s.stopComplete k).portM.line = s.portM.line ∧
      (s.stopComplete k).portB.line = s.portB.line ∧ (s.stopComplete k).run = s.run ∧
      (s.stopComplete k).pins = s.pins ∧ (s.stopComplete k).due = s.due ∧
      (s.stopComplete k).freeCount = s.freeCount ∧ (s.stopComplete k).place = s.place ∧
      (s.stopComplete k).pending = s.pending := by
  simp [State.stopComplete]

@[simp] theorem State.goOn_stop_frame (k : Fin 64) (b : Bool) (i : Nat) :
    (s.goOn k b i State.stopComplete).rigTime = s.rigTime ∧
      (s.goOn k b i State.stopComplete).halfDone = s.halfDone ∧
      (s.goOn k b i State.stopComplete).angle = s.angle ∧
      (s.goOn k b i State.stopComplete).lastEcho = s.lastEcho ∧
      (s.goOn k b i State.stopComplete).timing = s.timing ∧
      (s.goOn k b i State.stopComplete).battery = s.battery ∧
      (s.goOn k b i State.stopComplete).waitList = s.waitList ∧
      (s.goOn k b i State.stopComplete).memory = s.memory ∧
      (s.goOn k b i State.stopComplete).segments = s.segments ∧
      (s.goOn k b i State.stopComplete).moving = s.moving ∧
      (s.goOn k b i State.stopComplete).queued = s.queued ∧
      (s.goOn k b i State.stopComplete).engines = s.engines ∧
      (s.goOn k b i State.stopComplete).inputs = s.inputs ∧
      (s.goOn k b i State.stopComplete).portM.line = s.portM.line ∧
      (s.goOn k b i State.stopComplete).portB.line = s.portB.line ∧
      (s.goOn k b i State.stopComplete).run = s.run ∧ (s.goOn k b i State.stopComplete).pins = s.pins ∧
      (s.goOn k b i State.stopComplete).due = s.due ∧
      (s.goOn k b i State.stopComplete).freeCount = s.freeCount ∧
      (s.goOn k b i State.stopComplete).place = s.place ∧
      (s.goOn k b i State.stopComplete).pending = s.pending := by
  simp only [State.goOn]; (repeat' split) <;> simp

@[simp] theorem State.beginStop_frame (k : Fin 64) :
    (s.beginStop k).rigTime = s.rigTime ∧ (s.beginStop k).halfDone = s.halfDone ∧
      (s.beginStop k).angle = s.angle ∧ (s.beginStop k).lastEcho = s.lastEcho ∧
      (s.beginStop k).timing = s.timing ∧ (s.beginStop k).battery = s.battery ∧
      (s.beginStop k).waitList = s.waitList ∧ (s.beginStop k).memory = s.memory ∧
      (s.beginStop k).segments = s.segments ∧ (s.beginStop k).moving = s.moving ∧
      (s.beginStop k).queued = s.queued ∧ (s.beginStop k).engines = s.engines ∧
      (s.beginStop k).inputs = s.inputs ∧ (s.beginStop k).portM.line = s.portM.line ∧
      (s.beginStop k).portB.line = s.portB.line ∧ (s.beginStop k).run = s.run ∧
      (s.beginStop k).pins = s.pins ∧ (s.beginStop k).due = s.due ∧
      (s.beginStop k).freeCount = s.freeCount ∧ (s.beginStop k).place = s.place ∧
      (s.beginStop k).pending = s.pending := by
  simp [State.beginStop]

@[simp] theorem State.startComplete_frame (k : Fin 64) :
    (s.startComplete k).rigTime = s.rigTime ∧ (s.startComplete k).halfDone = s.halfDone ∧
      (s.startComplete k).angle = s.angle ∧ (s.startComplete k).lastEcho = s.lastEcho ∧
      (s.startComplete k).timing = s.timing ∧ (s.startComplete k).battery = s.battery ∧
      (s.startComplete k).waitList = s.waitList ∧ (s.startComplete k).memory = s.memory ∧
      (s.startComplete k).segments = s.segments ∧ (s.startComplete k).moving = s.moving ∧
      (s.startComplete k).queued = s.queued ∧ (s.startComplete k).engines = s.engines ∧
      (s.startComplete k).inputs = s.inputs ∧ (s.startComplete k).portM.line = s.portM.line ∧
      (s.startComplete k).portB.line = s.portB.line ∧ (s.startComplete k).run = s.run ∧
      (s.startComplete k).pins = s.pins ∧ (s.startComplete k).due = s.due ∧
      (s.startComplete k).freeCount = s.freeCount ∧ (s.startComplete k).place = s.place ∧
      (s.startComplete k).pending = s.pending := by
  simp only [State.startComplete]
  (repeat' split) <;> simp

@[simp] theorem State.goOn_start_frame (k : Fin 64) (b : Bool) (i : Nat) :
    (s.goOn k b i State.startComplete).rigTime = s.rigTime ∧
      (s.goOn k b i State.startComplete).halfDone = s.halfDone ∧
      (s.goOn k b i State.startComplete).angle = s.angle ∧
      (s.goOn k b i State.startComplete).lastEcho = s.lastEcho ∧
      (s.goOn k b i State.startComplete).timing = s.timing ∧
      (s.goOn k b i State.startComplete).battery = s.battery ∧
      (s.goOn k b i State.startComplete).waitList = s.waitList ∧
      (s.goOn k b i State.startComplete).memory = s.memory ∧
      (s.goOn k b i State.startComplete).segments = s.segments ∧
      (s.goOn k b i State.startComplete).moving = s.moving ∧
      (s.goOn k b i State.startComplete).queued = s.queued ∧
      (s.goOn k b i State.startComplete).engines = s.engines ∧
      (s.goOn k b i State.startComplete).inputs = s.inputs ∧
      (s.goOn k b i State.startComplete).portM.line = s.portM.line ∧
      (s.goOn k b i State.startComplete).portB.line = s.portB.line ∧
      (s.goOn k b i State.startComplete).run = s.run ∧ (s.goOn k b i State.startComplete).pins = s.pins ∧
      (s.goOn k b i State.startComplete).due = s.due ∧
      (s.goOn k b i State.startComplete).freeCount = s.freeCount ∧
      (s.goOn k b i State.startComplete).place = s.place ∧
      (s.goOn k b i State.startComplete).pending = s.pending := by
  simp only [State.goOn]; (repeat' split) <;> simp

@[simp] theorem State.beginStart_frame (k : Fin 64) :
    (s.beginStart k).rigTime = s.rigTime ∧ (s.beginStart k).halfDone = s.halfDone ∧
      (s.beginStart k).angle = s.angle ∧ (s.beginStart k).lastEcho = s.lastEcho ∧
      (s.beginStart k).timing = s.timing ∧ (s.beginStart k).battery = s.battery ∧
      (s.beginStart k).waitList = s.waitList ∧ (s.beginStart k).memory = s.memory ∧
      (s.beginStart k).segments = s.segments ∧ (s.beginStart k).moving = s.moving ∧
      (s.beginStart k).queued = s.queued ∧ (s.beginStart k).engines = s.engines ∧
      (s.beginStart k).inputs = s.inputs ∧ (s.beginStart k).portM.line = s.portM.line ∧
      (s.beginStart k).portB.line = s.portB.line ∧ (s.beginStart k).run = s.run ∧
      (s.beginStart k).pins = s.pins ∧ (s.beginStart k).due = s.due ∧
      (s.beginStart k).freeCount = s.freeCount ∧ (s.beginStart k).place = s.place ∧
      (s.beginStart k).pending = s.pending := by
  simp [State.beginStart]

@[simp] theorem State.normEnded_frame (c : Fin 24) :
    (s.normEnded c).rigTime = s.rigTime ∧ (s.normEnded c).halfDone = s.halfDone ∧
      (s.normEnded c).angle = s.angle ∧ (s.normEnded c).channels = s.channels ∧
      (s.normEnded c).lastEcho = s.lastEcho ∧ (s.normEnded c).timing = s.timing ∧
      (s.normEnded c).battery = s.battery ∧ (s.normEnded c).faults = s.faults ∧
      (s.normEnded c).waitList = s.waitList ∧ (s.normEnded c).joining = s.joining ∧
      (s.normEnded c).memory = s.memory ∧ (s.normEnded c).segments = s.segments ∧
      (s.normEnded c).moving = s.moving ∧ (s.normEnded c).queued = s.queued ∧
      (s.normEnded c).engines = s.engines ∧ (s.normEnded c).inputs = s.inputs ∧
      (s.normEnded c).portM = s.portM ∧ (s.normEnded c).portB = s.portB ∧ (s.normEnded c).run = s.run ∧
      (s.normEnded c).pins = s.pins ∧ (s.normEnded c).due = s.due ∧
      (s.normEnded c).freeCount = s.freeCount ∧ (s.normEnded c).place = s.place ∧
      (s.normEnded c).pending = s.pending := by
  simp only [State.normEnded]
  (repeat' split) <;> simp

@[simp] theorem State.normSucceeds_frame (c : Fin 24) :
    (s.normSucceeds c).rigTime = s.rigTime ∧ (s.normSucceeds c).halfDone = s.halfDone ∧
      (s.normSucceeds c).angle = s.angle ∧ (s.normSucceeds c).channels = s.channels ∧
      (s.normSucceeds c).lastEcho = s.lastEcho ∧ (s.normSucceeds c).timing = s.timing ∧
      (s.normSucceeds c).battery = s.battery ∧ (s.normSucceeds c).faults = s.faults ∧
      (s.normSucceeds c).waitList = s.waitList ∧ (s.normSucceeds c).joining = s.joining ∧
      (s.normSucceeds c).memory = s.memory ∧ (s.normSucceeds c).segments = s.segments ∧
      (s.normSucceeds c).moving = s.moving ∧ (s.normSucceeds c).queued = s.queued ∧
      (s.normSucceeds c).engines = s.engines ∧ (s.normSucceeds c).inputs = s.inputs ∧
      (s.normSucceeds c).portM = s.portM ∧ (s.normSucceeds c).portB = s.portB ∧
      (s.normSucceeds c).run = s.run ∧ (s.normSucceeds c).pins = s.pins ∧ (s.normSucceeds c).due = s.due ∧
      (s.normSucceeds c).freeCount = s.freeCount ∧ (s.normSucceeds c).place = s.place ∧
      (s.normSucceeds c).pending = s.pending := by
  simp [State.normSucceeds]

@[simp] theorem State.normFails_frame (c : Fin 24) :
    (s.normFails c).rigTime = s.rigTime ∧ (s.normFails c).halfDone = s.halfDone ∧
      (s.normFails c).angle = s.angle ∧ (s.normFails c).lastEcho = s.lastEcho ∧
      (s.normFails c).timing = s.timing ∧ (s.normFails c).battery = s.battery ∧
      (s.normFails c).faults = s.faults ∧ (s.normFails c).waitList = s.waitList ∧
      (s.normFails c).joining = s.joining ∧ (s.normFails c).memory = s.memory ∧
      (s.normFails c).segments = s.segments ∧ (s.normFails c).moving = s.moving ∧
      (s.normFails c).queued = s.queued ∧ (s.normFails c).engines = s.engines ∧
      (s.normFails c).inputs = s.inputs ∧ (s.normFails c).portM.line = s.portM.line ∧
      (s.normFails c).portB.line = s.portB.line ∧ (s.normFails c).run = s.run ∧
      (s.normFails c).pins = s.pins ∧ (s.normFails c).due = s.due ∧
      (s.normFails c).freeCount = s.freeCount ∧ (s.normFails c).place = s.place ∧
      (s.normFails c).pending = s.pending := by
  simp [State.normFails]

@[simp] theorem State.normFrom_frame (c : Fin 24) (i : Nat) :
    (s.normFrom c i).rigTime = s.rigTime ∧ (s.normFrom c i).halfDone = s.halfDone ∧
      (s.normFrom c i).angle = s.angle ∧ (s.normFrom c i).channels = s.channels ∧
      (s.normFrom c i).lastEcho = s.lastEcho ∧ (s.normFrom c i).timing = s.timing ∧
      (s.normFrom c i).battery = s.battery ∧ (s.normFrom c i).faults = s.faults ∧
      (s.normFrom c i).waitList = s.waitList ∧ (s.normFrom c i).joining = s.joining ∧
      (s.normFrom c i).memory = s.memory ∧ (s.normFrom c i).segments = s.segments ∧
      (s.normFrom c i).moving = s.moving ∧ (s.normFrom c i).queued = s.queued ∧
      (s.normFrom c i).engines = s.engines ∧ (s.normFrom c i).inputs = s.inputs ∧
      (s.normFrom c i).portM = s.portM ∧ (s.normFrom c i).portB = s.portB ∧ (s.normFrom c i).run = s.run ∧
      (s.normFrom c i).pins = s.pins ∧ (s.normFrom c i).due = s.due ∧
      (s.normFrom c i).freeCount = s.freeCount ∧ (s.normFrom c i).place = s.place ∧
      (s.normFrom c i).pending = s.pending := by
  simp only [State.normFrom]
  (repeat' split) <;> simp

@[simp] theorem State.markNormalising_frame (l : List (Fin 24)) :
    (s.markNormalising l).rigTime = s.rigTime ∧ (s.markNormalising l).halfDone = s.halfDone ∧
      (s.markNormalising l).angle = s.angle ∧ (s.markNormalising l).channels = s.channels ∧
      (s.markNormalising l).lastEcho = s.lastEcho ∧ (s.markNormalising l).buses = s.buses ∧
      (s.markNormalising l).timing = s.timing ∧ (s.markNormalising l).battery = s.battery ∧
      (s.markNormalising l).faults = s.faults ∧ (s.markNormalising l).waitList = s.waitList ∧
      (s.markNormalising l).joining = s.joining ∧ (s.markNormalising l).examineDue = s.examineDue ∧
      (s.markNormalising l).memory = s.memory ∧ (s.markNormalising l).segments = s.segments ∧
      (s.markNormalising l).moving = s.moving ∧ (s.markNormalising l).queued = s.queued ∧
      (s.markNormalising l).engines = s.engines ∧ (s.markNormalising l).inputs = s.inputs ∧
      (s.markNormalising l).portM = s.portM ∧ (s.markNormalising l).portB = s.portB ∧
      (s.markNormalising l).run = s.run ∧ (s.markNormalising l).pins = s.pins ∧
      (s.markNormalising l).due = s.due ∧ (s.markNormalising l).freeCount = s.freeCount ∧
      (s.markNormalising l).place = s.place ∧ (s.markNormalising l).pending = s.pending := by
  simp only [State.markNormalising]
  refine ⟨(foldl_keeps (fun u : State => u.rigTime) _ (fun u x => by simp) _ _).trans (by simp),
    (foldl_keeps (fun u : State => u.halfDone) _ (fun u x => by simp) _ _).trans (by simp),
    (foldl_keeps (fun u : State => u.angle) _ (fun u x => by simp) _ _).trans (by simp),
    (foldl_keeps (fun u : State => u.channels) _ (fun u x => by simp) _ _).trans (by simp),
    (foldl_keeps (fun u : State => u.lastEcho) _ (fun u x => by simp) _ _).trans (by simp),
    (foldl_keeps (fun u : State => u.buses) _ (fun u x => by simp) _ _).trans (by simp),
    (foldl_keeps (fun u : State => u.timing) _ (fun u x => by simp) _ _).trans (by simp),
    (foldl_keeps (fun u : State => u.battery) _ (fun u x => by simp) _ _).trans (by simp),
    (foldl_keeps (fun u : State => u.faults) _ (fun u x => by simp) _ _).trans (by simp),
    (foldl_keeps (fun u : State => u.waitList) _ (fun u x => by simp) _ _).trans (by simp),
    (foldl_keeps (fun u : State => u.joining) _ (fun u x => by simp) _ _).trans (by simp),
    (foldl_keeps (fun u : State => u.examineDue) _ (fun u x => by simp) _ _).trans (by simp),
    (foldl_keeps (fun u : State => u.memory) _ (fun u x => by simp) _ _).trans (by simp),
    (foldl_keeps (fun u : State => u.segments) _ (fun u x => by simp) _ _).trans (by simp),
    (foldl_keeps (fun u : State => u.moving) _ (fun u x => by simp) _ _).trans (by simp),
    (foldl_keeps (fun u : State => u.queued) _ (fun u x => by simp) _ _).trans (by simp),
    (foldl_keeps (fun u : State => u.engines) _ (fun u x => by simp) _ _).trans (by simp),
    (foldl_keeps (fun u : State => u.inputs) _ (fun u x => by simp) _ _).trans (by simp),
    (foldl_keeps (fun u : State => u.portM) _ (fun u x => by simp) _ _).trans (by simp),
    (foldl_keeps (fun u : State => u.portB) _ (fun u x => by simp) _ _).trans (by simp),
    (foldl_keeps (fun u : State => u.run) _ (fun u x => by simp) _ _).trans (by simp),
    (foldl_keeps (fun u : State => u.pins) _ (fun u x => by simp) _ _).trans (by simp),
    (foldl_keeps (fun u : State => u.due) _ (fun u x => by simp) _ _).trans (by simp),
    (foldl_keeps (fun u : State => u.freeCount) _ (fun u x => by simp) _ _).trans (by simp),
    (foldl_keeps (fun u : State => u.place) _ (fun u x => by simp) _ _).trans (by simp),
    (foldl_keeps (fun u : State => u.pending) _ (fun u x => by simp) _ _).trans (by simp)⟩

@[simp] theorem State.beginNorms_frame (l : List (Fin 24)) :
    (s.beginNorms l).rigTime = s.rigTime ∧ (s.beginNorms l).halfDone = s.halfDone ∧
      (s.beginNorms l).angle = s.angle ∧ (s.beginNorms l).channels = s.channels ∧
      (s.beginNorms l).lastEcho = s.lastEcho ∧ (s.beginNorms l).timing = s.timing ∧
      (s.beginNorms l).battery = s.battery ∧ (s.beginNorms l).faults = s.faults ∧
      (s.beginNorms l).waitList = s.waitList ∧ (s.beginNorms l).joining = s.joining ∧
      (s.beginNorms l).memory = s.memory ∧ (s.beginNorms l).segments = s.segments ∧
      (s.beginNorms l).moving = s.moving ∧ (s.beginNorms l).queued = s.queued ∧
      (s.beginNorms l).engines = s.engines ∧ (s.beginNorms l).inputs = s.inputs ∧
      (s.beginNorms l).portM = s.portM ∧ (s.beginNorms l).portB = s.portB ∧ (s.beginNorms l).run = s.run ∧
      (s.beginNorms l).pins = s.pins ∧ (s.beginNorms l).due = s.due ∧
      (s.beginNorms l).freeCount = s.freeCount ∧ (s.beginNorms l).place = s.place ∧
      (s.beginNorms l).pending = s.pending := by
  simp only [State.beginNorms]
  refine ⟨(foldl_keeps (fun u : State => u.rigTime) _ (fun u x => by simp) _ _).trans (by simp),
    (foldl_keeps (fun u : State => u.halfDone) _ (fun u x => by simp) _ _).trans (by simp),
    (foldl_keeps (fun u : State => u.angle) _ (fun u x => by simp) _ _).trans (by simp),
    (foldl_keeps (fun u : State => u.channels) _ (fun u x => by simp) _ _).trans (by simp),
    (foldl_keeps (fun u : State => u.lastEcho) _ (fun u x => by simp) _ _).trans (by simp),
    (foldl_keeps (fun u : State => u.timing) _ (fun u x => by simp) _ _).trans (by simp),
    (foldl_keeps (fun u : State => u.battery) _ (fun u x => by simp) _ _).trans (by simp),
    (foldl_keeps (fun u : State => u.faults) _ (fun u x => by simp) _ _).trans (by simp),
    (foldl_keeps (fun u : State => u.waitList) _ (fun u x => by simp) _ _).trans (by simp),
    (foldl_keeps (fun u : State => u.joining) _ (fun u x => by simp) _ _).trans (by simp),
    (foldl_keeps (fun u : State => u.memory) _ (fun u x => by simp) _ _).trans (by simp),
    (foldl_keeps (fun u : State => u.segments) _ (fun u x => by simp) _ _).trans (by simp),
    (foldl_keeps (fun u : State => u.moving) _ (fun u x => by simp) _ _).trans (by simp),
    (foldl_keeps (fun u : State => u.queued) _ (fun u x => by simp) _ _).trans (by simp),
    (foldl_keeps (fun u : State => u.engines) _ (fun u x => by simp) _ _).trans (by simp),
    (foldl_keeps (fun u : State => u.inputs) _ (fun u x => by simp) _ _).trans (by simp),
    (foldl_keeps (fun u : State => u.portM) _ (fun u x => by simp) _ _).trans (by simp),
    (foldl_keeps (fun u : State => u.portB) _ (fun u x => by simp) _ _).trans (by simp),
    (foldl_keeps (fun u : State => u.run) _ (fun u x => by simp) _ _).trans (by simp),
    (foldl_keeps (fun u : State => u.pins) _ (fun u x => by simp) _ _).trans (by simp),
    (foldl_keeps (fun u : State => u.due) _ (fun u x => by simp) _ _).trans (by simp),
    (foldl_keeps (fun u : State => u.freeCount) _ (fun u x => by simp) _ _).trans (by simp),
    (foldl_keeps (fun u : State => u.place) _ (fun u x => by simp) _ _).trans (by simp),
    (foldl_keeps (fun u : State => u.pending) _ (fun u x => by simp) _ _).trans (by simp)⟩

@[simp] theorem State.sequenceFailed_frame (k : Fin 64) :
    (s.sequenceFailed k).rigTime = s.rigTime ∧ (s.sequenceFailed k).halfDone = s.halfDone ∧
      (s.sequenceFailed k).angle = s.angle ∧ (s.sequenceFailed k).lastEcho = s.lastEcho ∧
      (s.sequenceFailed k).timing = s.timing ∧ (s.sequenceFailed k).battery = s.battery ∧
      (s.sequenceFailed k).waitList = s.waitList ∧ (s.sequenceFailed k).memory = s.memory ∧
      (s.sequenceFailed k).segments = s.segments ∧ (s.sequenceFailed k).moving = s.moving ∧
      (s.sequenceFailed k).queued = s.queued ∧ (s.sequenceFailed k).engines = s.engines ∧
      (s.sequenceFailed k).inputs = s.inputs ∧ (s.sequenceFailed k).portM.line = s.portM.line ∧
      (s.sequenceFailed k).portB.line = s.portB.line ∧ (s.sequenceFailed k).run = s.run ∧
      (s.sequenceFailed k).pins = s.pins ∧ (s.sequenceFailed k).due = s.due ∧
      (s.sequenceFailed k).freeCount = s.freeCount ∧ (s.sequenceFailed k).place = s.place ∧
      (s.sequenceFailed k).pending = s.pending := by
  simp [State.sequenceFailed]

@[simp] theorem State.recover_frame :
    (s.recover).rigTime = s.rigTime ∧ (s.recover).halfDone = s.halfDone ∧ (s.recover).angle = s.angle ∧
      (s.recover).channels = s.channels ∧ (s.recover).lastEcho = s.lastEcho ∧
      (s.recover).timing = s.timing ∧ (s.recover).battery = s.battery ∧ (s.recover).faults = s.faults ∧
      (s.recover).waitList = s.waitList ∧ (s.recover).joining = s.joining ∧ (s.recover).memory = s.memory ∧
      (s.recover).segments = s.segments ∧ (s.recover).moving = s.moving ∧ (s.recover).queued = s.queued ∧
      (s.recover).engines = s.engines ∧ (s.recover).inputs = s.inputs ∧ (s.recover).portM = s.portM ∧
      (s.recover).portB = s.portB ∧ (s.recover).run = s.run ∧ (s.recover).pins = s.pins ∧
      (s.recover).due = s.due ∧ (s.recover).freeCount = s.freeCount ∧ (s.recover).place = s.place ∧
      (s.recover).pending = s.pending := by
  simp [State.recover]

@[simp] theorem State.normAdvance_frame (c : Fin 24) (n : NormStep) :
    (s.normAdvance c n).rigTime = s.rigTime ∧ (s.normAdvance c n).halfDone = s.halfDone ∧
      (s.normAdvance c n).angle = s.angle ∧ (s.normAdvance c n).lastEcho = s.lastEcho ∧
      (s.normAdvance c n).timing = s.timing ∧ (s.normAdvance c n).battery = s.battery ∧
      (s.normAdvance c n).faults = s.faults ∧ (s.normAdvance c n).waitList = s.waitList ∧
      (s.normAdvance c n).joining = s.joining ∧ (s.normAdvance c n).memory = s.memory ∧
      (s.normAdvance c n).segments = s.segments ∧ (s.normAdvance c n).moving = s.moving ∧
      (s.normAdvance c n).queued = s.queued ∧ (s.normAdvance c n).engines = s.engines ∧
      (s.normAdvance c n).inputs = s.inputs ∧ (s.normAdvance c n).portM.line = s.portM.line ∧
      (s.normAdvance c n).portB.line = s.portB.line ∧ (s.normAdvance c n).run = s.run ∧
      (s.normAdvance c n).pins = s.pins ∧ (s.normAdvance c n).due = s.due ∧
      (s.normAdvance c n).freeCount = s.freeCount ∧ (s.normAdvance c n).place = s.place ∧
      (s.normAdvance c n).pending = s.pending := by
  simp only [State.normAdvance]
  (repeat' split) <;> simp

@[simp] theorem State.seqAdvance_frame (k : Fin 64) (q : Sequence) :
    (s.seqAdvance k q).rigTime = s.rigTime ∧ (s.seqAdvance k q).halfDone = s.halfDone ∧
      (s.seqAdvance k q).angle = s.angle ∧ (s.seqAdvance k q).lastEcho = s.lastEcho ∧
      (s.seqAdvance k q).timing = s.timing ∧ (s.seqAdvance k q).battery = s.battery ∧
      (s.seqAdvance k q).waitList = s.waitList ∧ (s.seqAdvance k q).memory = s.memory ∧
      (s.seqAdvance k q).segments = s.segments ∧ (s.seqAdvance k q).moving = s.moving ∧
      (s.seqAdvance k q).queued = s.queued ∧ (s.seqAdvance k q).engines = s.engines ∧
      (s.seqAdvance k q).inputs = s.inputs ∧ (s.seqAdvance k q).portM.line = s.portM.line ∧
      (s.seqAdvance k q).portB.line = s.portB.line ∧ (s.seqAdvance k q).run = s.run ∧
      (s.seqAdvance k q).pins = s.pins ∧ (s.seqAdvance k q).due = s.due ∧
      (s.seqAdvance k q).freeCount = s.freeCount ∧ (s.seqAdvance k q).place = s.place ∧
      (s.seqAdvance k q).pending = s.pending := by
  simp only [State.seqAdvance]
  (repeat' split) <;> simp

@[simp] theorem State.movementEnded_frame (c : Fin 24) :
    (s.movementEnded c).rigTime = s.rigTime ∧ (s.movementEnded c).halfDone = s.halfDone ∧
      (s.movementEnded c).angle = s.angle ∧ (s.movementEnded c).lastEcho = s.lastEcho ∧
      (s.movementEnded c).timing = s.timing ∧ (s.movementEnded c).battery = s.battery ∧
      (s.movementEnded c).waitList = s.waitList ∧ (s.movementEnded c).memory = s.memory ∧
      (s.movementEnded c).segments = s.segments ∧ (s.movementEnded c).moving = s.moving ∧
      (s.movementEnded c).queued = s.queued ∧ (s.movementEnded c).engines = s.engines ∧
      (s.movementEnded c).inputs = s.inputs ∧ (s.movementEnded c).portM.line = s.portM.line ∧
      (s.movementEnded c).portB.line = s.portB.line ∧ (s.movementEnded c).run = s.run ∧
      (s.movementEnded c).pins = s.pins ∧ (s.movementEnded c).due = s.due ∧
      (s.movementEnded c).freeCount = s.freeCount ∧ (s.movementEnded c).place = s.place ∧
      (s.movementEnded c).pending = s.pending := by
  simp only [State.movementEnded]
  (repeat' split) <;> simp

@[simp] theorem State.takeMoveComplete_frame (c : Fin 24) (r : RelayName) :
    (s.takeMoveComplete c r).rigTime = s.rigTime ∧ (s.takeMoveComplete c r).halfDone = s.halfDone ∧
      (s.takeMoveComplete c r).angle = s.angle ∧ (s.takeMoveComplete c r).lastEcho = s.lastEcho ∧
      (s.takeMoveComplete c r).timing = s.timing ∧ (s.takeMoveComplete c r).battery = s.battery ∧
      (s.takeMoveComplete c r).waitList = s.waitList ∧ (s.takeMoveComplete c r).memory = s.memory ∧
      (s.takeMoveComplete c r).segments = s.segments ∧ (s.takeMoveComplete c r).moving = s.moving ∧
      (s.takeMoveComplete c r).queued = s.queued ∧ (s.takeMoveComplete c r).engines = s.engines ∧
      (s.takeMoveComplete c r).inputs = s.inputs ∧ (s.takeMoveComplete c r).portM.line = s.portM.line ∧
      (s.takeMoveComplete c r).portB.line = s.portB.line ∧ (s.takeMoveComplete c r).run = s.run ∧
      (s.takeMoveComplete c r).pins = s.pins ∧ (s.takeMoveComplete c r).due = s.due ∧
      (s.takeMoveComplete c r).freeCount = s.freeCount ∧ (s.takeMoveComplete c r).place = s.place ∧
      (s.takeMoveComplete c r).pending = s.pending := by
  simp only [State.takeMoveComplete]
  (repeat' split) <;> simp

@[simp] theorem State.takeMoveFail_frame (c : Fin 24) (r : RelayName) :
    (s.takeMoveFail c r).rigTime = s.rigTime ∧ (s.takeMoveFail c r).halfDone = s.halfDone ∧
      (s.takeMoveFail c r).angle = s.angle ∧ (s.takeMoveFail c r).lastEcho = s.lastEcho ∧
      (s.takeMoveFail c r).timing = s.timing ∧ (s.takeMoveFail c r).battery = s.battery ∧
      (s.takeMoveFail c r).waitList = s.waitList ∧ (s.takeMoveFail c r).memory = s.memory ∧
      (s.takeMoveFail c r).segments = s.segments ∧ (s.takeMoveFail c r).moving = s.moving ∧
      (s.takeMoveFail c r).queued = s.queued ∧ (s.takeMoveFail c r).engines = s.engines ∧
      (s.takeMoveFail c r).inputs = s.inputs ∧ (s.takeMoveFail c r).portM.line = s.portM.line ∧
      (s.takeMoveFail c r).portB.line = s.portB.line ∧ (s.takeMoveFail c r).run = s.run ∧
      (s.takeMoveFail c r).pins = s.pins ∧ (s.takeMoveFail c r).due = s.due ∧
      (s.takeMoveFail c r).freeCount = s.freeCount ∧ (s.takeMoveFail c r).place = s.place ∧
      (s.takeMoveFail c r).pending = s.pending := by
  simp only [State.takeMoveFail]
  (repeat' split) <;> simp

@[simp] theorem State.tickRelays_frame :
    (s.tickRelays).rigTime = s.rigTime ∧ (s.tickRelays).halfDone = s.halfDone ∧
      (s.tickRelays).angle = s.angle ∧ (s.tickRelays).channels = s.channels ∧
      (s.tickRelays).lastEcho = s.lastEcho ∧ (s.tickRelays).buses = s.buses ∧
      (s.tickRelays).timing = s.timing ∧ (s.tickRelays).battery = s.battery ∧
      (s.tickRelays).faults = s.faults ∧ (s.tickRelays).waitList = s.waitList ∧
      (s.tickRelays).joining = s.joining ∧ (s.tickRelays).examineDue = s.examineDue ∧
      (s.tickRelays).memory = s.memory ∧ (s.tickRelays).segments = s.segments ∧
      (s.tickRelays).moving = s.moving ∧ (s.tickRelays).queued = s.queued ∧
      (s.tickRelays).engines = s.engines ∧ (s.tickRelays).inputs = s.inputs ∧
      (s.tickRelays).portM = s.portM ∧ (s.tickRelays).portB = s.portB ∧ (s.tickRelays).run = s.run ∧
      (s.tickRelays).pins = s.pins ∧ (s.tickRelays).freeCount = s.freeCount ∧
      (s.tickRelays).place = s.place ∧ (s.tickRelays).pending = s.pending := by
  simp [State.tickRelays]

@[simp] theorem State.take_frame (k : Fin 64) :
    (s.take k).rigTime = s.rigTime ∧ (s.take k).halfDone = s.halfDone ∧ (s.take k).angle = s.angle ∧
      (s.take k).lastEcho = s.lastEcho ∧ (s.take k).timing = s.timing ∧ (s.take k).battery = s.battery ∧
      (s.take k).waitList = s.waitList ∧ (s.take k).memory = s.memory ∧ (s.take k).segments = s.segments ∧
      (s.take k).moving = s.moving ∧ (s.take k).queued = s.queued ∧ (s.take k).engines = s.engines ∧
      (s.take k).inputs = s.inputs ∧ (s.take k).portM.line = s.portM.line ∧
      (s.take k).portB.line = s.portB.line ∧ (s.take k).run = s.run ∧ (s.take k).pins = s.pins ∧
      (s.take k).due = s.due ∧ (s.take k).freeCount = s.freeCount ∧ (s.take k).place = s.place ∧
      (s.take k).pending = s.pending := by
  simp only [State.take]
  (repeat' split) <;> simp

@[simp] theorem State.examineOne_frame (l : List (Fin 64)) (k : Fin 64) :
    ((examineOne (s, l) k).1).rigTime = s.rigTime ∧ ((examineOne (s, l) k).1).halfDone = s.halfDone ∧
      ((examineOne (s, l) k).1).angle = s.angle ∧ ((examineOne (s, l) k).1).lastEcho = s.lastEcho ∧
      ((examineOne (s, l) k).1).timing = s.timing ∧ ((examineOne (s, l) k).1).battery = s.battery ∧
      ((examineOne (s, l) k).1).waitList = s.waitList ∧ ((examineOne (s, l) k).1).memory = s.memory ∧
      ((examineOne (s, l) k).1).segments = s.segments ∧ ((examineOne (s, l) k).1).moving = s.moving ∧
      ((examineOne (s, l) k).1).queued = s.queued ∧ ((examineOne (s, l) k).1).engines = s.engines ∧
      ((examineOne (s, l) k).1).inputs = s.inputs ∧ ((examineOne (s, l) k).1).portM.line = s.portM.line ∧
      ((examineOne (s, l) k).1).portB.line = s.portB.line ∧ ((examineOne (s, l) k).1).run = s.run ∧
      ((examineOne (s, l) k).1).pins = s.pins ∧ ((examineOne (s, l) k).1).due = s.due ∧
      ((examineOne (s, l) k).1).freeCount = s.freeCount ∧ ((examineOne (s, l) k).1).place = s.place ∧
      ((examineOne (s, l) k).1).pending = s.pending := by
  simp only [examineOne]
  (repeat' split) <;> simp

@[simp] theorem State.examine_frame :
    (s.examine).rigTime = s.rigTime ∧ (s.examine).halfDone = s.halfDone ∧ (s.examine).angle = s.angle ∧
      (s.examine).lastEcho = s.lastEcho ∧ (s.examine).timing = s.timing ∧ (s.examine).battery = s.battery ∧
      (s.examine).memory = s.memory ∧ (s.examine).segments = s.segments ∧ (s.examine).moving = s.moving ∧
      (s.examine).queued = s.queued ∧ (s.examine).engines = s.engines ∧ (s.examine).inputs = s.inputs ∧
      (s.examine).portM.line = s.portM.line ∧ (s.examine).portB.line = s.portB.line ∧
      (s.examine).run = s.run ∧ (s.examine).pins = s.pins ∧ (s.examine).due = s.due ∧
      (s.examine).freeCount = s.freeCount ∧ (s.examine).place = s.place ∧ (s.examine).pending = s.pending := by
  simp only [State.examine]
  refine ⟨(foldl_keeps (fun u : State × List (Fin 64) => u.1.rigTime) examineOne (fun u x => by obtain ⟨v, l⟩ := u; simp) _ _).trans (by simp),
    (foldl_keeps (fun u : State × List (Fin 64) => u.1.halfDone) examineOne (fun u x => by obtain ⟨v, l⟩ := u; simp) _ _).trans (by simp),
    (foldl_keeps (fun u : State × List (Fin 64) => u.1.angle) examineOne (fun u x => by obtain ⟨v, l⟩ := u; simp) _ _).trans (by simp),
    (foldl_keeps (fun u : State × List (Fin 64) => u.1.lastEcho) examineOne (fun u x => by obtain ⟨v, l⟩ := u; simp) _ _).trans (by simp),
    (foldl_keeps (fun u : State × List (Fin 64) => u.1.timing) examineOne (fun u x => by obtain ⟨v, l⟩ := u; simp) _ _).trans (by simp),
    (foldl_keeps (fun u : State × List (Fin 64) => u.1.battery) examineOne (fun u x => by obtain ⟨v, l⟩ := u; simp) _ _).trans (by simp),
    (foldl_keeps (fun u : State × List (Fin 64) => u.1.memory) examineOne (fun u x => by obtain ⟨v, l⟩ := u; simp) _ _).trans (by simp),
    (foldl_keeps (fun u : State × List (Fin 64) => u.1.segments) examineOne (fun u x => by obtain ⟨v, l⟩ := u; simp) _ _).trans (by simp),
    (foldl_keeps (fun u : State × List (Fin 64) => u.1.moving) examineOne (fun u x => by obtain ⟨v, l⟩ := u; simp) _ _).trans (by simp),
    (foldl_keeps (fun u : State × List (Fin 64) => u.1.queued) examineOne (fun u x => by obtain ⟨v, l⟩ := u; simp) _ _).trans (by simp),
    (foldl_keeps (fun u : State × List (Fin 64) => u.1.engines) examineOne (fun u x => by obtain ⟨v, l⟩ := u; simp) _ _).trans (by simp),
    (foldl_keeps (fun u : State × List (Fin 64) => u.1.inputs) examineOne (fun u x => by obtain ⟨v, l⟩ := u; simp) _ _).trans (by simp),
    (foldl_keeps (fun u : State × List (Fin 64) => u.1.portM.line) examineOne (fun u x => by obtain ⟨v, l⟩ := u; simp) _ _).trans (by simp),
    (foldl_keeps (fun u : State × List (Fin 64) => u.1.portB.line) examineOne (fun u x => by obtain ⟨v, l⟩ := u; simp) _ _).trans (by simp),
    (foldl_keeps (fun u : State × List (Fin 64) => u.1.run) examineOne (fun u x => by obtain ⟨v, l⟩ := u; simp) _ _).trans (by simp),
    (foldl_keeps (fun u : State × List (Fin 64) => u.1.pins) examineOne (fun u x => by obtain ⟨v, l⟩ := u; simp) _ _).trans (by simp),
    (foldl_keeps (fun u : State × List (Fin 64) => u.1.due) examineOne (fun u x => by obtain ⟨v, l⟩ := u; simp) _ _).trans (by simp),
    (foldl_keeps (fun u : State × List (Fin 64) => u.1.freeCount) examineOne (fun u x => by obtain ⟨v, l⟩ := u; simp) _ _).trans (by simp),
    (foldl_keeps (fun u : State × List (Fin 64) => u.1.place) examineOne (fun u x => by obtain ⟨v, l⟩ := u; simp) _ _).trans (by simp),
    (foldl_keeps (fun u : State × List (Fin 64) => u.1.pending) examineOne (fun u x => by obtain ⟨v, l⟩ := u; simp) _ _).trans (by simp)⟩

@[simp] theorem State.settleFuel_frame (n : Nat) :
    (settleFuel n s).rigTime = s.rigTime ∧ (settleFuel n s).halfDone = s.halfDone ∧
      (settleFuel n s).angle = s.angle ∧ (settleFuel n s).lastEcho = s.lastEcho ∧
      (settleFuel n s).timing = s.timing ∧ (settleFuel n s).battery = s.battery ∧
      (settleFuel n s).memory = s.memory ∧ (settleFuel n s).segments = s.segments ∧
      (settleFuel n s).moving = s.moving ∧ (settleFuel n s).queued = s.queued ∧
      (settleFuel n s).engines = s.engines ∧ (settleFuel n s).inputs = s.inputs ∧
      (settleFuel n s).portM.line = s.portM.line ∧ (settleFuel n s).portB.line = s.portB.line ∧
      (settleFuel n s).run = s.run ∧ (settleFuel n s).pins = s.pins ∧ (settleFuel n s).due = s.due ∧
      (settleFuel n s).freeCount = s.freeCount ∧ (settleFuel n s).place = s.place ∧
      (settleFuel n s).pending = s.pending := by
  induction n generalizing s with
  | zero => simp [settleFuel]
  | succ n ih =>
    simp only [settleFuel]
    split <;> simp [ih]

@[simp] theorem State.settle_frame :
    (s.settle).rigTime = s.rigTime ∧ (s.settle).halfDone = s.halfDone ∧ (s.settle).angle = s.angle ∧
      (s.settle).lastEcho = s.lastEcho ∧ (s.settle).timing = s.timing ∧ (s.settle).battery = s.battery ∧
      (s.settle).memory = s.memory ∧ (s.settle).segments = s.segments ∧ (s.settle).moving = s.moving ∧
      (s.settle).queued = s.queued ∧ (s.settle).engines = s.engines ∧ (s.settle).inputs = s.inputs ∧
      (s.settle).portM.line = s.portM.line ∧ (s.settle).portB.line = s.portB.line ∧ (s.settle).run = s.run ∧
      (s.settle).pins = s.pins ∧ (s.settle).due = s.due ∧ (s.settle).freeCount = s.freeCount ∧
      (s.settle).place = s.place ∧ (s.settle).pending = s.pending := by
  simp [State.settle]

@[simp] theorem State.leaveList_frame (k : Fin 64) :
    (s.leaveList k).rigTime = s.rigTime ∧ (s.leaveList k).halfDone = s.halfDone ∧
      (s.leaveList k).angle = s.angle ∧ (s.leaveList k).channels = s.channels ∧
      (s.leaveList k).lastEcho = s.lastEcho ∧ (s.leaveList k).relays = s.relays ∧
      (s.leaveList k).buses = s.buses ∧ (s.leaveList k).timing = s.timing ∧
      (s.leaveList k).battery = s.battery ∧ (s.leaveList k).faults = s.faults ∧
      (s.leaveList k).memory = s.memory ∧ (s.leaveList k).segments = s.segments ∧
      (s.leaveList k).moving = s.moving ∧ (s.leaveList k).queued = s.queued ∧
      (s.leaveList k).engines = s.engines ∧ (s.leaveList k).inputs = s.inputs ∧
      (s.leaveList k).portM = s.portM ∧ (s.leaveList k).portB = s.portB ∧ (s.leaveList k).run = s.run ∧
      (s.leaveList k).pins = s.pins ∧ (s.leaveList k).due = s.due ∧
      (s.leaveList k).freeCount = s.freeCount ∧ (s.leaveList k).place = s.place ∧
      (s.leaveList k).pending = s.pending := by
  simp [State.leaveList]

@[simp] theorem State.sampleInputs_frame :
    (s.sampleInputs).rigTime = s.rigTime ∧ (s.sampleInputs).halfDone = s.halfDone ∧
      (s.sampleInputs).angle = s.angle ∧ (s.sampleInputs).channels = s.channels ∧
      (s.sampleInputs).lastEcho = s.lastEcho ∧ (s.sampleInputs).relays = s.relays ∧
      (s.sampleInputs).buses = s.buses ∧ (s.sampleInputs).timing = s.timing ∧
      (s.sampleInputs).battery = s.battery ∧ (s.sampleInputs).faults = s.faults ∧
      (s.sampleInputs).waitList = s.waitList ∧ (s.sampleInputs).joining = s.joining ∧
      (s.sampleInputs).examineDue = s.examineDue ∧ (s.sampleInputs).memory = s.memory ∧
      (s.sampleInputs).segments = s.segments ∧ (s.sampleInputs).moving = s.moving ∧
      (s.sampleInputs).queued = s.queued ∧ (s.sampleInputs).engines = s.engines ∧
      (s.sampleInputs).portM = s.portM ∧ (s.sampleInputs).portB = s.portB ∧ (s.sampleInputs).run = s.run ∧
      (s.sampleInputs).pins = s.pins ∧ (s.sampleInputs).freeCount = s.freeCount ∧
      (s.sampleInputs).place = s.place ∧ (s.sampleInputs).pending = s.pending := by
  simp [State.sampleInputs]

@[simp] theorem State.setVoltage_frame (i : Fin 16) (v : Int) :
    (s.setVoltage i v).rigTime = s.rigTime ∧ (s.setVoltage i v).halfDone = s.halfDone ∧
      (s.setVoltage i v).angle = s.angle ∧ (s.setVoltage i v).channels = s.channels ∧
      (s.setVoltage i v).lastEcho = s.lastEcho ∧ (s.setVoltage i v).relays = s.relays ∧
      (s.setVoltage i v).buses = s.buses ∧ (s.setVoltage i v).timing = s.timing ∧
      (s.setVoltage i v).battery = s.battery ∧ (s.setVoltage i v).faults = s.faults ∧
      (s.setVoltage i v).waitList = s.waitList ∧ (s.setVoltage i v).joining = s.joining ∧
      (s.setVoltage i v).examineDue = s.examineDue ∧ (s.setVoltage i v).memory = s.memory ∧
      (s.setVoltage i v).segments = s.segments ∧ (s.setVoltage i v).moving = s.moving ∧
      (s.setVoltage i v).queued = s.queued ∧ (s.setVoltage i v).engines = s.engines ∧
      (s.setVoltage i v).portM = s.portM ∧ (s.setVoltage i v).portB = s.portB ∧
      (s.setVoltage i v).run = s.run ∧ (s.setVoltage i v).due = s.due ∧
      (s.setVoltage i v).freeCount = s.freeCount ∧ (s.setVoltage i v).place = s.place ∧
      (s.setVoltage i v).pending = s.pending := by
  simp [State.setVoltage]

@[simp] theorem State.takeCaptureTrigger_frame (e : Event) :
    (takeCaptureTrigger s e).rigTime = s.rigTime ∧ (takeCaptureTrigger s e).halfDone = s.halfDone ∧
      (takeCaptureTrigger s e).angle = s.angle ∧ (takeCaptureTrigger s e).lastEcho = s.lastEcho ∧
      (takeCaptureTrigger s e).relays = s.relays ∧ (takeCaptureTrigger s e).buses = s.buses ∧
      (takeCaptureTrigger s e).timing = s.timing ∧ (takeCaptureTrigger s e).battery = s.battery ∧
      (takeCaptureTrigger s e).waitList = s.waitList ∧ (takeCaptureTrigger s e).memory = s.memory ∧
      (takeCaptureTrigger s e).segments = s.segments ∧ (takeCaptureTrigger s e).moving = s.moving ∧
      (takeCaptureTrigger s e).queued = s.queued ∧ (takeCaptureTrigger s e).engines = s.engines ∧
      (takeCaptureTrigger s e).inputs = s.inputs ∧ (takeCaptureTrigger s e).portM.line = s.portM.line ∧
      (takeCaptureTrigger s e).portB.line = s.portB.line ∧ (takeCaptureTrigger s e).run = s.run ∧
      (takeCaptureTrigger s e).pins = s.pins ∧ (takeCaptureTrigger s e).due = s.due ∧
      (takeCaptureTrigger s e).freeCount = s.freeCount ∧ (takeCaptureTrigger s e).place = s.place ∧
      (takeCaptureTrigger s e).pending = s.pending := by
  cases e <;> simp [takeCaptureTrigger]

@[simp] theorem State.fireCounted_frame :
    (s.fireCounted).rigTime = s.rigTime ∧ (s.fireCounted).halfDone = s.halfDone ∧
      (s.fireCounted).angle = s.angle ∧ (s.fireCounted).lastEcho = s.lastEcho ∧
      (s.fireCounted).relays = s.relays ∧ (s.fireCounted).buses = s.buses ∧
      (s.fireCounted).timing = s.timing ∧ (s.fireCounted).battery = s.battery ∧
      (s.fireCounted).waitList = s.waitList ∧ (s.fireCounted).memory = s.memory ∧
      (s.fireCounted).segments = s.segments ∧ (s.fireCounted).moving = s.moving ∧
      (s.fireCounted).queued = s.queued ∧ (s.fireCounted).engines = s.engines ∧
      (s.fireCounted).inputs = s.inputs ∧ (s.fireCounted).portM.line = s.portM.line ∧
      (s.fireCounted).portB.line = s.portB.line ∧ (s.fireCounted).run = s.run ∧
      (s.fireCounted).pins = s.pins ∧ (s.fireCounted).freeCount = s.freeCount ∧
      (s.fireCounted).place = s.place ∧ (s.fireCounted).pending = s.pending := by
  simp only [State.fireCounted, State.drain]
  split
  · refine ⟨(foldl_keeps (fun u : State => u.rigTime) takeCaptureTrigger (fun u x => by simp) _ _).trans (by simp),
      (foldl_keeps (fun u : State => u.halfDone) takeCaptureTrigger (fun u x => by simp) _ _).trans (by simp),
      (foldl_keeps (fun u : State => u.angle) takeCaptureTrigger (fun u x => by simp) _ _).trans (by simp),
      (foldl_keeps (fun u : State => u.lastEcho) takeCaptureTrigger (fun u x => by simp) _ _).trans (by simp),
      (foldl_keeps (fun u : State => u.relays) takeCaptureTrigger (fun u x => by simp) _ _).trans (by simp),
      (foldl_keeps (fun u : State => u.buses) takeCaptureTrigger (fun u x => by simp) _ _).trans (by simp),
      (foldl_keeps (fun u : State => u.timing) takeCaptureTrigger (fun u x => by simp) _ _).trans (by simp),
      (foldl_keeps (fun u : State => u.battery) takeCaptureTrigger (fun u x => by simp) _ _).trans (by simp),
      (foldl_keeps (fun u : State => u.waitList) takeCaptureTrigger (fun u x => by simp) _ _).trans (by simp),
      (foldl_keeps (fun u : State => u.memory) takeCaptureTrigger (fun u x => by simp) _ _).trans (by simp),
      (foldl_keeps (fun u : State => u.segments) takeCaptureTrigger (fun u x => by simp) _ _).trans (by simp),
      (foldl_keeps (fun u : State => u.moving) takeCaptureTrigger (fun u x => by simp) _ _).trans (by simp),
      (foldl_keeps (fun u : State => u.queued) takeCaptureTrigger (fun u x => by simp) _ _).trans (by simp),
      (foldl_keeps (fun u : State => u.engines) takeCaptureTrigger (fun u x => by simp) _ _).trans (by simp),
      (foldl_keeps (fun u : State => u.inputs) takeCaptureTrigger (fun u x => by simp) _ _).trans (by simp),
      (foldl_keeps (fun u : State => u.portM.line) takeCaptureTrigger (fun u x => by simp) _ _).trans (by simp),
      (foldl_keeps (fun u : State => u.portB.line) takeCaptureTrigger (fun u x => by simp) _ _).trans (by simp),
      (foldl_keeps (fun u : State => u.run) takeCaptureTrigger (fun u x => by simp) _ _).trans (by simp),
      (foldl_keeps (fun u : State => u.pins) takeCaptureTrigger (fun u x => by simp) _ _).trans (by simp),
      (foldl_keeps (fun u : State => u.freeCount) takeCaptureTrigger (fun u x => by simp) _ _).trans (by simp),
      (foldl_keeps (fun u : State => u.place) takeCaptureTrigger (fun u x => by simp) _ _).trans (by simp),
      (foldl_keeps (fun u : State => u.pending) takeCaptureTrigger (fun u x => by simp) _ _).trans (by simp)⟩
  · simp

@[simp] theorem State.safeRecord_frame (k : Fin 64) :
    (s.safeRecord k).rigTime = s.rigTime ∧ (s.safeRecord k).halfDone = s.halfDone ∧
      (s.safeRecord k).angle = s.angle ∧ (s.safeRecord k).lastEcho = s.lastEcho ∧
      (s.safeRecord k).timing = s.timing ∧ (s.safeRecord k).battery = s.battery ∧
      (s.safeRecord k).memory = s.memory ∧ (s.safeRecord k).segments = s.segments ∧
      (s.safeRecord k).moving = s.moving ∧ (s.safeRecord k).queued = s.queued ∧
      (s.safeRecord k).engines = s.engines ∧ (s.safeRecord k).inputs = s.inputs ∧
      (s.safeRecord k).portM.line = s.portM.line ∧ (s.safeRecord k).portB.line = s.portB.line ∧
      (s.safeRecord k).run = s.run ∧ (s.safeRecord k).pins = s.pins ∧ (s.safeRecord k).due = s.due ∧
      (s.safeRecord k).freeCount = s.freeCount ∧ (s.safeRecord k).place = s.place ∧
      (s.safeRecord k).pending = s.pending := by
  simp only [State.safeRecord]
  (repeat' split) <;> simp

@[simp] theorem State.safeFaults_frame :
    (s.safeFaults).rigTime = s.rigTime ∧ (s.safeFaults).halfDone = s.halfDone ∧
      (s.safeFaults).angle = s.angle ∧ (s.safeFaults).lastEcho = s.lastEcho ∧
      (s.safeFaults).timing = s.timing ∧ (s.safeFaults).battery = s.battery ∧
      (s.safeFaults).memory = s.memory ∧ (s.safeFaults).segments = s.segments ∧
      (s.safeFaults).moving = s.moving ∧ (s.safeFaults).queued = s.queued ∧
      (s.safeFaults).engines = s.engines ∧ (s.safeFaults).inputs = s.inputs ∧
      (s.safeFaults).portM.line = s.portM.line ∧ (s.safeFaults).portB.line = s.portB.line ∧
      (s.safeFaults).run = s.run ∧ (s.safeFaults).pins = s.pins ∧ (s.safeFaults).due = s.due ∧
      (s.safeFaults).freeCount = s.freeCount ∧ (s.safeFaults).place = s.place ∧
      (s.safeFaults).pending = s.pending := by
  simp only [State.safeFaults]
  refine ⟨(foldl_keeps (fun u : State => u.rigTime) State.safeRecord (fun u x => by simp) _ _).trans (by simp),
    (foldl_keeps (fun u : State => u.halfDone) State.safeRecord (fun u x => by simp) _ _).trans (by simp),
    (foldl_keeps (fun u : State => u.angle) State.safeRecord (fun u x => by simp) _ _).trans (by simp),
    (foldl_keeps (fun u : State => u.lastEcho) State.safeRecord (fun u x => by simp) _ _).trans (by simp),
    (foldl_keeps (fun u : State => u.timing) State.safeRecord (fun u x => by simp) _ _).trans (by simp),
    (foldl_keeps (fun u : State => u.battery) State.safeRecord (fun u x => by simp) _ _).trans (by simp),
    (foldl_keeps (fun u : State => u.memory) State.safeRecord (fun u x => by simp) _ _).trans (by simp),
    (foldl_keeps (fun u : State => u.segments) State.safeRecord (fun u x => by simp) _ _).trans (by simp),
    (foldl_keeps (fun u : State => u.moving) State.safeRecord (fun u x => by simp) _ _).trans (by simp),
    (foldl_keeps (fun u : State => u.queued) State.safeRecord (fun u x => by simp) _ _).trans (by simp),
    (foldl_keeps (fun u : State => u.engines) State.safeRecord (fun u x => by simp) _ _).trans (by simp),
    (foldl_keeps (fun u : State => u.inputs) State.safeRecord (fun u x => by simp) _ _).trans (by simp),
    (foldl_keeps (fun u : State => u.portM.line) State.safeRecord (fun u x => by simp) _ _).trans (by simp),
    (foldl_keeps (fun u : State => u.portB.line) State.safeRecord (fun u x => by simp) _ _).trans (by simp),
    (foldl_keeps (fun u : State => u.run) State.safeRecord (fun u x => by simp) _ _).trans (by simp),
    (foldl_keeps (fun u : State => u.pins) State.safeRecord (fun u x => by simp) _ _).trans (by simp),
    (foldl_keeps (fun u : State => u.due) State.safeRecord (fun u x => by simp) _ _).trans (by simp),
    (foldl_keeps (fun u : State => u.freeCount) State.safeRecord (fun u x => by simp) _ _).trans (by simp),
    (foldl_keeps (fun u : State => u.place) State.safeRecord (fun u x => by simp) _ _).trans (by simp),
    (foldl_keeps (fun u : State => u.pending) State.safeRecord (fun u x => by simp) _ _).trans (by simp)⟩

@[simp] theorem State.enterSafe_frame (w : SafeCause) :
    (s.enterSafe w).rigTime = s.rigTime ∧ (s.enterSafe w).halfDone = s.halfDone ∧
      (s.enterSafe w).lastEcho = s.lastEcho ∧ (s.enterSafe w).timing = s.timing ∧
      (s.enterSafe w).battery = s.battery ∧ (s.enterSafe w).memory = s.memory ∧
      (s.enterSafe w).segments = s.segments ∧ (s.enterSafe w).moving = s.moving ∧
      (s.enterSafe w).queued = s.queued ∧ (s.enterSafe w).inputs = s.inputs ∧
      (s.enterSafe w).portM.line = s.portM.line ∧ (s.enterSafe w).portB.line = s.portB.line ∧
      (s.enterSafe w).pins = s.pins ∧ (s.enterSafe w).freeCount = s.freeCount ∧
      (s.enterSafe w).place = s.place ∧ (s.enterSafe w).pending = s.pending := by
  simp only [State.enterSafe]
  (repeat' split) <;> simp

@[simp] theorem State.startRun_frame :
    (s.startRun).rigTime = s.rigTime ∧ (s.startRun).halfDone = s.halfDone ∧ (s.startRun).angle = s.angle ∧
      (s.startRun).lastEcho = s.lastEcho ∧ (s.startRun).relays = s.relays ∧ (s.startRun).buses = s.buses ∧
      (s.startRun).timing = s.timing ∧ (s.startRun).battery = s.battery ∧ (s.startRun).faults = s.faults ∧
      (s.startRun).waitList = s.waitList ∧ (s.startRun).joining = s.joining ∧
      (s.startRun).examineDue = s.examineDue ∧ (s.startRun).memory = s.memory ∧
      (s.startRun).segments = s.segments ∧ (s.startRun).moving = s.moving ∧ (s.startRun).queued = s.queued ∧
      (s.startRun).inputs = s.inputs ∧ (s.startRun).portM = s.portM ∧ (s.startRun).portB = s.portB ∧
      (s.startRun).pins = s.pins ∧ (s.startRun).pending = s.pending := by
  simp [State.startRun]

@[simp] theorem State.resumeRun_frame :
    (s.resumeRun).rigTime = s.rigTime ∧ (s.resumeRun).halfDone = s.halfDone ∧
      (s.resumeRun).angle = s.angle ∧ (s.resumeRun).lastEcho = s.lastEcho ∧
      (s.resumeRun).relays = s.relays ∧ (s.resumeRun).buses = s.buses ∧ (s.resumeRun).timing = s.timing ∧
      (s.resumeRun).battery = s.battery ∧ (s.resumeRun).faults = s.faults ∧
      (s.resumeRun).waitList = s.waitList ∧ (s.resumeRun).joining = s.joining ∧
      (s.resumeRun).examineDue = s.examineDue ∧ (s.resumeRun).memory = s.memory ∧
      (s.resumeRun).segments = s.segments ∧ (s.resumeRun).moving = s.moving ∧
      (s.resumeRun).queued = s.queued ∧ (s.resumeRun).inputs = s.inputs ∧ (s.resumeRun).portM = s.portM ∧
      (s.resumeRun).portB = s.portB ∧ (s.resumeRun).pins = s.pins ∧ (s.resumeRun).pending = s.pending := by
  simp [State.resumeRun]

@[simp] theorem State.stopRun_frame :
    (s.stopRun).rigTime = s.rigTime ∧ (s.stopRun).halfDone = s.halfDone ∧
      (s.stopRun).lastEcho = s.lastEcho ∧ (s.stopRun).relays = s.relays ∧ (s.stopRun).buses = s.buses ∧
      (s.stopRun).timing = s.timing ∧ (s.stopRun).battery = s.battery ∧ (s.stopRun).faults = s.faults ∧
      (s.stopRun).waitList = s.waitList ∧ (s.stopRun).joining = s.joining ∧
      (s.stopRun).examineDue = false ∧ (s.stopRun).memory = s.memory ∧
      (s.stopRun).segments = s.segments ∧ (s.stopRun).moving = s.moving ∧ (s.stopRun).queued = s.queued ∧
      (s.stopRun).portM = s.portM ∧ (s.stopRun).portB = s.portB ∧ (s.stopRun).pins = s.pins ∧
      (s.stopRun).freeCount = s.freeCount ∧ (s.stopRun).place = s.place ∧ (s.stopRun).pending = s.pending := by
  simp [State.stopRun]

@[simp] theorem State.sampleBattery_frame :
    (s.sampleBattery).rigTime = s.rigTime ∧ (s.sampleBattery).halfDone = s.halfDone ∧
      (s.sampleBattery).angle = s.angle ∧ (s.sampleBattery).channels = s.channels ∧
      (s.sampleBattery).lastEcho = s.lastEcho ∧ (s.sampleBattery).relays = s.relays ∧
      (s.sampleBattery).buses = s.buses ∧ (s.sampleBattery).timing = s.timing ∧
      (s.sampleBattery).faults = s.faults ∧ (s.sampleBattery).waitList = s.waitList ∧
      (s.sampleBattery).joining = s.joining ∧ (s.sampleBattery).examineDue = s.examineDue ∧
      (s.sampleBattery).memory = s.memory ∧ (s.sampleBattery).segments = s.segments ∧
      (s.sampleBattery).moving = s.moving ∧ (s.sampleBattery).queued = s.queued ∧
      (s.sampleBattery).engines = s.engines ∧ (s.sampleBattery).inputs = s.inputs ∧
      (s.sampleBattery).portM = s.portM ∧ (s.sampleBattery).portB = s.portB ∧
      (s.sampleBattery).run = s.run ∧ (s.sampleBattery).pins = s.pins ∧
      (s.sampleBattery).freeCount = s.freeCount ∧ (s.sampleBattery).place = s.place ∧
      (s.sampleBattery).pending = s.pending := by
  simp [State.sampleBattery]

@[simp] theorem State.takeBattery_frame :
    (s.takeBattery).rigTime = s.rigTime ∧ (s.takeBattery).halfDone = s.halfDone ∧
      (s.takeBattery).angle = s.angle ∧ (s.takeBattery).channels = s.channels ∧
      (s.takeBattery).lastEcho = s.lastEcho ∧ (s.takeBattery).relays = s.relays ∧
      (s.takeBattery).buses = s.buses ∧ (s.takeBattery).timing = s.timing ∧
      (s.takeBattery).faults = s.faults ∧ (s.takeBattery).waitList = s.waitList ∧
      (s.takeBattery).joining = s.joining ∧ (s.takeBattery).examineDue = s.examineDue ∧
      (s.takeBattery).memory = s.memory ∧ (s.takeBattery).segments = s.segments ∧
      (s.takeBattery).moving = s.moving ∧ (s.takeBattery).queued = s.queued ∧
      (s.takeBattery).engines = s.engines ∧ (s.takeBattery).inputs = s.inputs ∧
      (s.takeBattery).portM = s.portM ∧ (s.takeBattery).portB = s.portB ∧ (s.takeBattery).run = s.run ∧
      (s.takeBattery).pins = s.pins ∧ (s.takeBattery).due = s.due ∧
      (s.takeBattery).freeCount = s.freeCount ∧ (s.takeBattery).place = s.place ∧
      (s.takeBattery).pending = s.pending := by
  simp only [State.takeBattery]
  (repeat' split) <;> simp

@[simp] theorem State.sampleSafeLine_frame :
    (s.sampleSafeLine).rigTime = s.rigTime ∧ (s.sampleSafeLine).halfDone = s.halfDone ∧
      (s.sampleSafeLine).angle = s.angle ∧ (s.sampleSafeLine).channels = s.channels ∧
      (s.sampleSafeLine).lastEcho = s.lastEcho ∧ (s.sampleSafeLine).relays = s.relays ∧
      (s.sampleSafeLine).buses = s.buses ∧ (s.sampleSafeLine).timing = s.timing ∧
      (s.sampleSafeLine).battery = s.battery ∧ (s.sampleSafeLine).faults = s.faults ∧
      (s.sampleSafeLine).waitList = s.waitList ∧ (s.sampleSafeLine).joining = s.joining ∧
      (s.sampleSafeLine).examineDue = s.examineDue ∧ (s.sampleSafeLine).memory = s.memory ∧
      (s.sampleSafeLine).segments = s.segments ∧ (s.sampleSafeLine).moving = s.moving ∧
      (s.sampleSafeLine).queued = s.queued ∧ (s.sampleSafeLine).engines = s.engines ∧
      (s.sampleSafeLine).inputs = s.inputs ∧ (s.sampleSafeLine).portM = s.portM ∧
      (s.sampleSafeLine).portB = s.portB ∧ (s.sampleSafeLine).pins = s.pins ∧
      (s.sampleSafeLine).freeCount = s.freeCount ∧ (s.sampleSafeLine).place = s.place ∧
      (s.sampleSafeLine).pending = s.pending := by
  simp only [State.sampleSafeLine]
  (repeat' split) <;> simp

@[simp] theorem State.takeSafeLine_frame :
    (s.takeSafeLine).rigTime = s.rigTime ∧ (s.takeSafeLine).halfDone = s.halfDone ∧
      (s.takeSafeLine).lastEcho = s.lastEcho ∧ (s.takeSafeLine).timing = s.timing ∧
      (s.takeSafeLine).battery = s.battery ∧ (s.takeSafeLine).memory = s.memory ∧
      (s.takeSafeLine).segments = s.segments ∧ (s.takeSafeLine).moving = s.moving ∧
      (s.takeSafeLine).queued = s.queued ∧ (s.takeSafeLine).inputs = s.inputs ∧
      (s.takeSafeLine).portM.line = s.portM.line ∧ (s.takeSafeLine).portB.line = s.portB.line ∧
      (s.takeSafeLine).pins = s.pins ∧ (s.takeSafeLine).freeCount = s.freeCount ∧
      (s.takeSafeLine).place = s.place ∧ (s.takeSafeLine).pending = s.pending := by
  simp only [State.takeSafeLine]
  (repeat' split) <;> simp

@[simp] theorem State.tickMonitor_frame :
    (s.tickMonitor).rigTime = s.rigTime ∧ (s.tickMonitor).halfDone = s.halfDone ∧
      (s.tickMonitor).angle = s.angle ∧ (s.tickMonitor).channels = s.channels ∧
      (s.tickMonitor).lastEcho = s.lastEcho ∧ (s.tickMonitor).relays = s.relays ∧
      (s.tickMonitor).buses = s.buses ∧ (s.tickMonitor).timing = s.timing ∧
      (s.tickMonitor).battery = s.battery ∧ (s.tickMonitor).faults = s.faults ∧
      (s.tickMonitor).waitList = s.waitList ∧ (s.tickMonitor).joining = s.joining ∧
      (s.tickMonitor).examineDue = s.examineDue ∧ (s.tickMonitor).memory = s.memory ∧
      (s.tickMonitor).segments = s.segments ∧ (s.tickMonitor).moving = s.moving ∧
      (s.tickMonitor).queued = s.queued ∧ (s.tickMonitor).engines = s.engines ∧
      (s.tickMonitor).inputs = s.inputs ∧ (s.tickMonitor).portM = s.portM ∧
      (s.tickMonitor).portB = s.portB ∧ (s.tickMonitor).pins = s.pins ∧
      (s.tickMonitor).freeCount = s.freeCount ∧ (s.tickMonitor).place = s.place ∧
      (s.tickMonitor).pending = s.pending := by
  simp only [State.tickMonitor]
  (repeat' split) <;> simp

@[simp] theorem State.takeDeadline_frame :
    (s.takeDeadline).rigTime = s.rigTime ∧ (s.takeDeadline).halfDone = s.halfDone ∧
      (s.takeDeadline).lastEcho = s.lastEcho ∧ (s.takeDeadline).timing = s.timing ∧
      (s.takeDeadline).battery = s.battery ∧ (s.takeDeadline).memory = s.memory ∧
      (s.takeDeadline).segments = s.segments ∧ (s.takeDeadline).moving = s.moving ∧
      (s.takeDeadline).queued = s.queued ∧ (s.takeDeadline).inputs = s.inputs ∧
      (s.takeDeadline).portM.line = s.portM.line ∧ (s.takeDeadline).portB.line = s.portB.line ∧
      (s.takeDeadline).pins = s.pins ∧ (s.takeDeadline).freeCount = s.freeCount ∧
      (s.takeDeadline).place = s.place ∧ (s.takeDeadline).pending = s.pending := by
  simp only [State.takeDeadline]
  (repeat' split) <;> simp

@[simp] theorem State.takeDurationEnd_frame (k : Fin 64) :
    (s.takeDurationEnd k).rigTime = s.rigTime ∧ (s.takeDurationEnd k).halfDone = s.halfDone ∧
      (s.takeDurationEnd k).angle = s.angle ∧ (s.takeDurationEnd k).lastEcho = s.lastEcho ∧
      (s.takeDurationEnd k).timing = s.timing ∧ (s.takeDurationEnd k).battery = s.battery ∧
      (s.takeDurationEnd k).waitList = s.waitList ∧ (s.takeDurationEnd k).memory = s.memory ∧
      (s.takeDurationEnd k).segments = s.segments ∧ (s.takeDurationEnd k).moving = s.moving ∧
      (s.takeDurationEnd k).queued = s.queued ∧ (s.takeDurationEnd k).engines = s.engines ∧
      (s.takeDurationEnd k).inputs = s.inputs ∧ (s.takeDurationEnd k).portM.line = s.portM.line ∧
      (s.takeDurationEnd k).portB.line = s.portB.line ∧ (s.takeDurationEnd k).run = s.run ∧
      (s.takeDurationEnd k).pins = s.pins ∧ (s.takeDurationEnd k).due = s.due ∧
      (s.takeDurationEnd k).freeCount = s.freeCount ∧ (s.takeDurationEnd k).place = s.place ∧
      (s.takeDurationEnd k).pending = s.pending := by
  simp only [State.takeDurationEnd]
  (repeat' split) <;> simp

@[simp] theorem State.takeCaptureReport_frame (i : Fin 16) :
    (s.takeCaptureReport i).rigTime = s.rigTime ∧ (s.takeCaptureReport i).halfDone = s.halfDone ∧
      (s.takeCaptureReport i).lastEcho = s.lastEcho ∧ (s.takeCaptureReport i).timing = s.timing ∧
      (s.takeCaptureReport i).battery = s.battery ∧ (s.takeCaptureReport i).memory = s.memory ∧
      (s.takeCaptureReport i).segments = s.segments ∧ (s.takeCaptureReport i).moving = s.moving ∧
      (s.takeCaptureReport i).queued = s.queued ∧ (s.takeCaptureReport i).portM.line = s.portM.line ∧
      (s.takeCaptureReport i).portB.line = s.portB.line ∧ (s.takeCaptureReport i).pins = s.pins ∧
      (s.takeCaptureReport i).freeCount = s.freeCount ∧ (s.takeCaptureReport i).place = s.place ∧
      (s.takeCaptureReport i).pending = s.pending := by
  simp only [State.takeCaptureReport]
  (repeat' split) <;> simp

@[simp] theorem State.takeMillisecond_frame :
    (s.takeMillisecond).rigTime = s.rigTime ∧ (s.takeMillisecond).halfDone = s.halfDone ∧
      (s.takeMillisecond).channels = s.channels ∧ (s.takeMillisecond).lastEcho = s.lastEcho ∧
      (s.takeMillisecond).relays = s.relays ∧ (s.takeMillisecond).buses = s.buses ∧
      (s.takeMillisecond).timing = s.timing ∧ (s.takeMillisecond).battery = s.battery ∧
      (s.takeMillisecond).faults = s.faults ∧ (s.takeMillisecond).waitList = s.waitList ∧
      (s.takeMillisecond).joining = s.joining ∧ (s.takeMillisecond).examineDue = s.examineDue ∧
      (s.takeMillisecond).memory = s.memory ∧ (s.takeMillisecond).segments = s.segments ∧
      (s.takeMillisecond).moving = s.moving ∧ (s.takeMillisecond).queued = s.queued ∧
      (s.takeMillisecond).inputs = s.inputs ∧ (s.takeMillisecond).portM = s.portM ∧
      (s.takeMillisecond).portB = s.portB ∧ (s.takeMillisecond).run = s.run ∧
      (s.takeMillisecond).pins = s.pins ∧ (s.takeMillisecond).due = s.due ∧
      (s.takeMillisecond).freeCount = s.freeCount ∧ (s.takeMillisecond).place = s.place ∧
      (s.takeMillisecond).pending = s.pending := by
  simp only [State.takeMillisecond]
  (repeat' split) <;> simp

@[simp] theorem State.takeRefresh_frame :
    (s.takeRefresh).rigTime = s.rigTime ∧ (s.takeRefresh).halfDone = s.halfDone ∧
      (s.takeRefresh).angle = s.angle ∧ (s.takeRefresh).lastEcho = s.lastEcho ∧
      (s.takeRefresh).relays = s.relays ∧ (s.takeRefresh).buses = s.buses ∧
      (s.takeRefresh).timing = s.timing ∧ (s.takeRefresh).battery = s.battery ∧
      (s.takeRefresh).faults = s.faults ∧ (s.takeRefresh).waitList = s.waitList ∧
      (s.takeRefresh).joining = s.joining ∧ (s.takeRefresh).examineDue = s.examineDue ∧
      (s.takeRefresh).memory = s.memory ∧ (s.takeRefresh).segments = s.segments ∧
      (s.takeRefresh).moving = s.moving ∧ (s.takeRefresh).queued = s.queued ∧
      (s.takeRefresh).inputs = s.inputs ∧ (s.takeRefresh).portM = s.portM ∧
      (s.takeRefresh).portB = s.portB ∧ (s.takeRefresh).run = s.run ∧ (s.takeRefresh).pins = s.pins ∧
      (s.takeRefresh).due = s.due ∧ (s.takeRefresh).freeCount = s.freeCount ∧
      (s.takeRefresh).place = s.place ∧ (s.takeRefresh).pending = s.pending := by
  simp [State.takeRefresh]

@[simp] theorem State.perform_frame (e : Event) :
    (s.perform e).rigTime = s.rigTime ∧ (s.perform e).halfDone = s.halfDone ∧
      (s.perform e).lastEcho = s.lastEcho ∧ (s.perform e).timing = s.timing ∧
      (s.perform e).memory = s.memory ∧ (s.perform e).moving = s.moving ∧ (s.perform e).queued = s.queued ∧
      (s.perform e).portM.line = s.portM.line ∧ (s.perform e).portB.line = s.portB.line ∧
      (s.perform e).pins = s.pins ∧ (s.perform e).freeCount = s.freeCount ∧ (s.perform e).place = s.place ∧
      (s.perform e).pending = s.pending := by
  cases e <;> simp [State.perform]

@[simp] theorem State.takeEvent_frame (e : Event) :
    (s.takeEvent e).rigTime = s.rigTime ∧ (s.takeEvent e).halfDone = s.halfDone ∧
      (s.takeEvent e).lastEcho = s.lastEcho ∧ (s.takeEvent e).timing = s.timing ∧
      (s.takeEvent e).memory = s.memory ∧ (s.takeEvent e).moving = s.moving ∧
      (s.takeEvent e).queued = s.queued ∧ (s.takeEvent e).portM.line = s.portM.line ∧
      (s.takeEvent e).portB.line = s.portB.line ∧ (s.takeEvent e).pins = s.pins ∧
      (s.takeEvent e).freeCount = s.freeCount ∧ (s.takeEvent e).place = s.place ∧
      (s.takeEvent e).pending = s.pending := by
  simp only [State.takeEvent]
  (repeat' split) <;> simp

@[simp] theorem State.drain_perform_frame (q : Event → Bool) :
    (s.drain q State.perform).rigTime = s.rigTime ∧ (s.drain q State.perform).halfDone = s.halfDone ∧
      (s.drain q State.perform).lastEcho = s.lastEcho ∧ (s.drain q State.perform).timing = s.timing ∧
      (s.drain q State.perform).memory = s.memory ∧ (s.drain q State.perform).moving = s.moving ∧
      (s.drain q State.perform).queued = s.queued ∧ (s.drain q State.perform).portM.line = s.portM.line ∧
      (s.drain q State.perform).portB.line = s.portB.line ∧ (s.drain q State.perform).pins = s.pins ∧
      (s.drain q State.perform).freeCount = s.freeCount ∧ (s.drain q State.perform).place = s.place ∧
      (s.drain q State.perform).pending = s.pending := by
  simp only [State.drain]
  refine ⟨(foldl_keeps (fun u : State => u.rigTime) State.perform (fun u x => by simp) _ _).trans (by simp),
    (foldl_keeps (fun u : State => u.halfDone) State.perform (fun u x => by simp) _ _).trans (by simp),
    (foldl_keeps (fun u : State => u.lastEcho) State.perform (fun u x => by simp) _ _).trans (by simp),
    (foldl_keeps (fun u : State => u.timing) State.perform (fun u x => by simp) _ _).trans (by simp),
    (foldl_keeps (fun u : State => u.memory) State.perform (fun u x => by simp) _ _).trans (by simp),
    (foldl_keeps (fun u : State => u.moving) State.perform (fun u x => by simp) _ _).trans (by simp),
    (foldl_keeps (fun u : State => u.queued) State.perform (fun u x => by simp) _ _).trans (by simp),
    (foldl_keeps (fun u : State => u.portM.line) State.perform (fun u x => by simp) _ _).trans (by simp),
    (foldl_keeps (fun u : State => u.portB.line) State.perform (fun u x => by simp) _ _).trans (by simp),
    (foldl_keeps (fun u : State => u.pins) State.perform (fun u x => by simp) _ _).trans (by simp),
    (foldl_keeps (fun u : State => u.freeCount) State.perform (fun u x => by simp) _ _).trans (by simp),
    (foldl_keeps (fun u : State => u.place) State.perform (fun u x => by simp) _ _).trans (by simp),
    (foldl_keeps (fun u : State => u.pending) State.perform (fun u x => by simp) _ _).trans (by simp)⟩

@[simp] theorem State.takeAfter_frame (q : Event → Bool) (e : Event) :
    (s.takeAfter q e).rigTime = s.rigTime ∧ (s.takeAfter q e).halfDone = s.halfDone ∧
      (s.takeAfter q e).lastEcho = s.lastEcho ∧ (s.takeAfter q e).timing = s.timing ∧
      (s.takeAfter q e).memory = s.memory ∧ (s.takeAfter q e).moving = s.moving ∧
      (s.takeAfter q e).queued = s.queued ∧ (s.takeAfter q e).portM.line = s.portM.line ∧
      (s.takeAfter q e).portB.line = s.portB.line ∧ (s.takeAfter q e).pins = s.pins ∧
      (s.takeAfter q e).freeCount = s.freeCount ∧ (s.takeAfter q e).place = s.place ∧
      (s.takeAfter q e).pending = s.pending := by
  simp only [State.takeAfter]
  (repeat' split) <;> simp

@[simp] theorem State.flushFuel_frame (n : Nat) :
    (flushFuel n s).rigTime = s.rigTime ∧ (flushFuel n s).halfDone = s.halfDone ∧
      (flushFuel n s).lastEcho = s.lastEcho ∧ (flushFuel n s).timing = s.timing ∧
      (flushFuel n s).memory = s.memory ∧ (flushFuel n s).moving = s.moving ∧
      (flushFuel n s).queued = s.queued ∧ (flushFuel n s).portM.line = s.portM.line ∧
      (flushFuel n s).portB.line = s.portB.line ∧ (flushFuel n s).pins = s.pins ∧
      (flushFuel n s).freeCount = s.freeCount ∧ (flushFuel n s).place = s.place ∧
      (flushFuel n s).pending = s.pending := by
  induction n generalizing s with
  | zero => simp [flushFuel]
  | succ n ih =>
    simp only [flushFuel]
    split <;> simp [ih]

@[simp] theorem State.flush_frame :
    (s.flush).rigTime = s.rigTime ∧ (s.flush).halfDone = s.halfDone ∧ (s.flush).lastEcho = s.lastEcho ∧
      (s.flush).timing = s.timing ∧ (s.flush).memory = s.memory ∧ (s.flush).moving = s.moving ∧
      (s.flush).queued = s.queued ∧ (s.flush).portM.line = s.portM.line ∧
      (s.flush).portB.line = s.portB.line ∧ (s.flush).pins = s.pins ∧ (s.flush).freeCount = s.freeCount ∧
      (s.flush).place = s.place ∧ (s.flush).pending = s.pending := by
  simp [State.flush]

@[simp] theorem State.halfTick_frame :
    (s.halfTick).rigTime = s.rigTime ∧ (s.halfTick).lastEcho = s.lastEcho ∧ (s.halfTick).timing = s.timing ∧
      (s.halfTick).memory = s.memory ∧ (s.halfTick).moving = s.moving ∧ (s.halfTick).queued = s.queued ∧
      (s.halfTick).portM.line = s.portM.line ∧ (s.halfTick).portB.line = s.portB.line ∧
      (s.halfTick).pins = s.pins ∧ (s.halfTick).freeCount = s.freeCount ∧ (s.halfTick).pending = s.pending := by
  simp [State.halfTick]

@[simp] theorem State.closeInstant_frame :
    (s.closeInstant).rigTime = s.rigTime ∧ (s.closeInstant).lastEcho = s.lastEcho ∧
      (s.closeInstant).timing = s.timing ∧ (s.closeInstant).memory = s.memory ∧
      (s.closeInstant).moving = s.moving ∧ (s.closeInstant).queued = s.queued ∧
      (s.closeInstant).portM.line = s.portM.line ∧ (s.closeInstant).portB.line = s.portB.line ∧
      (s.closeInstant).pins = s.pins ∧ (s.closeInstant).freeCount = s.freeCount ∧
      (s.closeInstant).pending = s.pending := by
  simp only [State.closeInstant]
  (repeat' split) <;> simp

@[simp] theorem State.changePins_frame (l : List PinChange) :
    (s.changePins l).rigTime = s.rigTime ∧ (s.changePins l).halfDone = s.halfDone ∧
      (s.changePins l).angle = s.angle ∧ (s.changePins l).channels = s.channels ∧
      (s.changePins l).lastEcho = s.lastEcho ∧ (s.changePins l).relays = s.relays ∧
      (s.changePins l).buses = s.buses ∧ (s.changePins l).timing = s.timing ∧
      (s.changePins l).battery = s.battery ∧ (s.changePins l).faults = s.faults ∧
      (s.changePins l).waitList = s.waitList ∧ (s.changePins l).joining = s.joining ∧
      (s.changePins l).examineDue = s.examineDue ∧ (s.changePins l).memory = s.memory ∧
      (s.changePins l).segments = s.segments ∧ (s.changePins l).moving = s.moving ∧
      (s.changePins l).queued = s.queued ∧ (s.changePins l).engines = s.engines ∧
      (s.changePins l).inputs = s.inputs ∧ (s.changePins l).portM = s.portM ∧
      (s.changePins l).portB = s.portB ∧ (s.changePins l).run = s.run ∧ (s.changePins l).due = s.due ∧
      (s.changePins l).freeCount = s.freeCount ∧ (s.changePins l).place = s.place ∧
      (s.changePins l).pending = s.pending := by
  simp [State.changePins]

@[simp] theorem State.makeTick_frame :
    (s.makeTick).lastEcho = s.lastEcho ∧ (s.makeTick).timing = s.timing ∧ (s.makeTick).memory = s.memory ∧
      (s.makeTick).moving = s.moving ∧ (s.makeTick).queued = s.queued ∧
      (s.makeTick).portM.line = s.portM.line ∧ (s.makeTick).portB.line = s.portB.line ∧
      (s.makeTick).pins = s.pins ∧ (s.makeTick).freeCount = s.freeCount ∧ (s.makeTick).pending = s.pending := by
  simp only [State.makeTick]
  (repeat' split) <;> simp

@[simp] theorem State.tick_frame (l : List PinChange) :
    (s.tick l).lastEcho = s.lastEcho ∧ (s.tick l).timing = s.timing ∧ (s.tick l).memory = s.memory ∧
      (s.tick l).moving = s.moving ∧ (s.tick l).queued = s.queued ∧ (s.tick l).portM.line = s.portM.line ∧
      (s.tick l).portB.line = s.portB.line ∧ (s.tick l).freeCount = s.freeCount ∧
      (s.tick l).pending = s.pending := by
  simp only [State.tick]
  (repeat' split) <;> simp

@[simp] theorem State.takeGridEvent_frame (e : Event) :
    (s.takeGridEvent e).rigTime = s.rigTime ∧ (s.takeGridEvent e).lastEcho = s.lastEcho ∧
      (s.takeGridEvent e).timing = s.timing ∧ (s.takeGridEvent e).memory = s.memory ∧
      (s.takeGridEvent e).moving = s.moving ∧ (s.takeGridEvent e).queued = s.queued ∧
      (s.takeGridEvent e).portM.line = s.portM.line ∧ (s.takeGridEvent e).portB.line = s.portB.line ∧
      (s.takeGridEvent e).pins = s.pins ∧ (s.takeGridEvent e).freeCount = s.freeCount ∧
      (s.takeGridEvent e).pending = s.pending := by
  simp only [State.takeGridEvent]
  (repeat' split) <;> simp

end Machine

end Sys2Proof
end

