-- ==== Sys2Proof/Laws/Memory.lean ====
section
/-! SUPPORT. Sample Memory: a read after a write, what a write leaves alone, and that every memory operation keeps
the canonical form. -/

namespace Sys2Proof.Machine

/-- A list in canonical form, apart from the bound of the store. -/
abbrev Sorted (m : List (Nat × Half)) : Prop := m.Pairwise fun x y => x.1 < y.1

/-- An address below every listed one reads 0. -/
theorem memRead_of_lt {m : List (Nat × Half)} {a : Nat} (h : ∀ x ∈ m, a < x.1) : memRead m a = 0 := by
  induction m with
  | nil => rfl
  | cons x m ih =>
    have hx := h x (by simp)
    rw [memRead, if_neg (by omega)]
    exact ih fun y hy => h y (by simp [hy])

/-- A sample reads as written, and every other sample reads as before (R125). -/
theorem memRead_memWrite {m : List (Nat × Half)} (hm : Sorted m) (a b : Nat) (v : Half) :
    memRead (memWrite m a v) b = if b = a then v else memRead m b := by
  induction m with
  | nil =>
    by_cases hv : v = 0#16 <;> by_cases hb : b = a <;> simp [memWrite, memRead, hv, hb]
  | cons x m ih =>
    obtain ⟨c, w⟩ := x
    have hm' := List.pairwise_cons.1 hm
    have hlow : ∀ d, d ≤ c → memRead m d = 0 := fun d hd =>
      memRead_of_lt fun y hy => by have := hm'.1 y hy; simp at this; omega
    rw [memWrite]
    split
    · by_cases hv : v = 0#16
      · by_cases hb : b = a
        · subst hb
          simp [hv, memRead, hlow b (by omega), show b ≠ c by omega]
        · simp [hv, hb]
      · simp [hv, memRead]
    · split
      · subst a
        by_cases hv : v = 0#16
        · by_cases hb : b = c
          · subst hb; simp [hv, hlow b (Nat.le_refl _)]
          · simp [hv, hb, memRead]
        · by_cases hb : b = c <;> simp [hv, hb, memRead]
      · rw [memRead, ih hm'.2, memRead]
        by_cases hb : b = c
        · simp [hb, show c ≠ a by omega]
        · simp [hb]

/-- The addresses of a written memory are those of before and the one written. -/
theorem mem_memWrite {m : List (Nat × Half)} {a : Nat} {v : Half} {x : Nat × Half} (h : x ∈ memWrite m a v) :
    x ∈ m ∨ (x = (a, v) ∧ v ≠ 0) := by
  induction m with
  | nil => simp only [memWrite] at h; split at h <;> simp_all
  | cons y m ih =>
    rw [memWrite] at h
    split at h
    · split at h
      · exact .inl h
      · rcases List.mem_cons.1 h with h | h
        · exact .inr ⟨h, ‹_›⟩
        · exact .inl h
    · split at h
      · split at h
        · exact .inl (List.mem_cons_of_mem _ h)
        · rcases List.mem_cons.1 h with h | h
          · exact .inr ⟨h, ‹_›⟩
          · exact .inl (List.mem_cons_of_mem _ h)
      · rcases List.mem_cons.1 h with h | h
        · exact .inl (by simp [h])
        · rcases ih h with h | h
          · exact .inl (List.mem_cons_of_mem _ h)
          · exact .inr h

/-- A write keeps the addresses strictly rising. -/
theorem memWrite_sorted {m : List (Nat × Half)} (hm : Sorted m) (a : Nat) (v : Half) :
    Sorted (memWrite m a v) := by
  induction m with
  | nil => rw [memWrite]; split <;> simp
  | cons x m ih =>
    obtain ⟨c, w⟩ := x
    have hm' := List.pairwise_cons.1 hm
    rw [memWrite]
    split
    · split
      · exact hm
      · refine List.pairwise_cons.2 ⟨fun y hy => ?_, hm⟩
        rcases List.mem_cons.1 hy with rfl | hy
        · assumption
        · have := hm'.1 y hy
          simp at this ⊢
          omega
    · split
      · split
        · exact hm'.2
        · subst a; exact List.pairwise_cons.2 ⟨hm'.1, hm'.2⟩
      · refine List.pairwise_cons.2 ⟨fun y hy => ?_, ih hm'.2⟩
        rcases mem_memWrite hy with hy | ⟨rfl, -⟩
        · exact hm'.1 y hy
        · simp; omega

/-- A write within the store keeps the canonical form. -/
theorem memWrite_wf {m : List (Nat × Half)} (hm : Memory.wf m) {a : Nat} (ha : a < memorySize) (v : Half) :
    Memory.wf (memWrite m a v) := by
  refine ⟨memWrite_sorted hm.1 a v, fun x hx => ?_⟩
  rcases mem_memWrite hx with hx | ⟨rfl, hv⟩
  · exact hm.2 x hx
  · exact ⟨ha, hv⟩

/-- A run of writes within the store keeps the canonical form. -/
theorem memWriteRun_wf (l : List Half) {m : List (Nat × Half)} (hm : Memory.wf m) {a : Nat}
    (ha : a + l.length ≤ memorySize) : Memory.wf (memWriteRun m a l) := by
  induction l generalizing m a with
  | nil => exact hm
  | cons v l ih =>
    simp only [List.length_cons] at ha
    exact ih (memWrite_wf hm (by omega) v) (by omega)

/-- A run of writes keeps the addresses strictly rising. -/
theorem memWriteRun_sorted (l : List Half) {m : List (Nat × Half)} (hm : Sorted m) (a : Nat) :
    Sorted (memWriteRun m a l) := by
  induction l generalizing m a with
  | nil => exact hm
  | cons v l ih => exact ih (memWrite_sorted hm a v) (a + 1)

/-- What a run of writes leaves at each address (R125). -/
theorem memRead_memWriteRun (l : List Half) {m : List (Nat × Half)} (hm : Sorted m) (a b : Nat) :
    memRead (memWriteRun m a l) b =
      if a ≤ b ∧ b < a + l.length then l.getD (b - a) 0 else memRead m b := by
  induction l generalizing m a with
  | nil => simp [memWriteRun, show ¬ (a ≤ b ∧ b < a) by omega]
  | cons v l ih =>
    rw [memWriteRun, ih (memWrite_sorted hm a v), memRead_memWrite hm]
    by_cases h1 : a + 1 ≤ b ∧ b < a + 1 + l.length
    · have h2 : a ≤ b ∧ b < a + (v :: l).length := by simp; omega
      rw [if_pos h1, if_pos h2, show b - a = (b - (a + 1)) + 1 by omega, List.getD_cons_succ]
    · rw [if_neg h1]
      by_cases hb : b = a
      · subst hb; simp
      · have h2 : ¬ (a ≤ b ∧ b < a + (v :: l).length) := by simp; omega
        rw [if_neg hb, if_neg h2]

/-- What a run of reads answers (R126). -/
theorem memReadRun_getD (m : List (Nat × Half)) (n a j : Nat) (hj : j < n) :
    (memReadRun m a n).getD j 0 = memRead m (a + j) := by
  induction n generalizing a j with
  | zero => omega
  | succ n ih =>
    cases j with
    | zero => simp [memReadRun]
    | succ j =>
      rw [memReadRun, List.getD_cons_succ, ih (a + 1) j (by omega)]
      congr 1
      omega

/-- A run of reads answers as many samples as asked. -/
@[simp] theorem memReadRun_length (m : List (Nat × Half)) (a n : Nat) : (memReadRun m a n).length = n := by
  induction n generalizing a with
  | zero => rfl
  | succ n ih => simp [memReadRun, ih]

/-- The memory after a reset is in canonical form. -/
theorem reset_memory_wf : Memory.wf State.reset.memory := ⟨List.Pairwise.nil, fun _ h => nomatch h⟩

end Sys2Proof.Machine
end

