-- ==== Sys2Proof/Laws/PerInstr.lean ====
section
/-! SUPPORT. A statement about every command, with one lemma for each: the payload of a request that a master can
send fits one packet (R188). -/

namespace Sys2Proof.Laws

/-- The payload of a request that can be sent has at most 255 words (R188). -/
def Packets.Statement (i : Instr) : Prop :=
  ∀ e, i.wf = true → encodePayload i = some e → e.2.length ≤ 255

/-- Two samples to a word, rounded up (R203). -/
theorem packSamples_length : ∀ l : List Half, (packSamples l).length = (l.length + 1) / 2
  | [] => rfl
  | [_] => by simp [packSamples]
  | _ :: _ :: rest => by simp [packSamples, packSamples_length rest]; omega

/-- Two words to an entry (R203). -/
theorem entryWords_length (l : List LiveEntry) : (l.flatMap entryWords).length = 2 * l.length := by
  induction l with
  | nil => rfl
  | cons x l ih => simp [List.flatMap_cons, entryWords, ih]; omega

/-- ARM_FAULT has eight words (R202). -/
theorem faultWords_length (k : Byte) (g : FaultArgs) : (faultWords k g).length = 8 := by
  obtain ⟨_, _, _, _, _, t, d, _, _, _⟩ := g
  cases t <;> cases d <;> rfl

theorem Packets.powerOnReset : Packets.Statement (.powerOnReset) := by
  intro e _ he; cases he

theorem Packets.resetLineAssert : Packets.Statement (.resetLineAssert) := by
  intro e _ he; cases he

theorem Packets.resetLineRelease : Packets.Statement (.resetLineRelease) := by
  intro e _ he; cases he

theorem Packets.rigTick (changes : List PinChange) : Packets.Statement (.rigTick changes) := by
  intro e _ he; cases he

theorem Packets.millisecondBoundary : Packets.Statement (.millisecondBoundary) := by
  intro e _ he; cases he

theorem Packets.cycleWrap : Packets.Statement (.cycleWrap) := by
  intro e _ he; cases he

theorem Packets.analogRefresh : Packets.Statement (.analogRefresh) := by
  intro e _ he; cases he

theorem Packets.periodStart (c : Fin 24) : Packets.Statement (.periodStart c) := by
  intro e _ he; cases he

theorem Packets.pulseHighEnd (c : Fin 24) : Packets.Statement (.pulseHighEnd c) := by
  intro e _ he; cases he

theorem Packets.driverTrip (c : Fin 24) : Packets.Statement (.driverTrip c) := by
  intro e _ he; cases he

theorem Packets.movementComplete (c : Fin 24) (r : RelayName) : Packets.Statement (.movementComplete c r) := by
  intro e _ he; cases he

theorem Packets.movementFail (c : Fin 24) (r : RelayName) : Packets.Statement (.movementFail c r) := by
  intro e _ he; cases he

theorem Packets.batteryFlagChange : Packets.Statement (.batteryFlagChange) := by
  intro e _ he; cases he

theorem Packets.safeLineChange : Packets.Statement (.safeLineChange) := by
  intro e _ he; cases he

theorem Packets.comparatorChange (i : Fin 16) (mv : Int) : Packets.Statement (.comparatorChange i mv) := by
  intro e _ he; cases he

theorem Packets.captureEdgeReport (i : Fin 16) : Packets.Statement (.captureEdgeReport i) := by
  intro e _ he; cases he

theorem Packets.atTimeTrigger (k : Fin 64) : Packets.Statement (.atTimeTrigger k) := by
  intro e _ he; cases he

theorem Packets.onCaptureTrigger (k : Fin 64) : Packets.Statement (.onCaptureTrigger k) := by
  intro e _ he; cases he

theorem Packets.durationEnd (k : Fin 64) : Packets.Statement (.durationEnd k) := by
  intro e _ he; cases he

theorem Packets.replayAdvance (n : Fin 4) : Packets.Statement (.replayAdvance n) := by
  intro e _ he; cases he

theorem Packets.deadlineExpiry : Packets.Statement (.deadlineExpiry) := by
  intro e _ he; cases he

theorem Packets.portWord (p : Port) (w : Word) : Packets.Statement (.portWord p w) := by
  intro e _ he; cases he

theorem Packets.unknownKind (p : Port) (t kind : Byte) (payload : List Word) :
    Packets.Statement (.unknownKind p t kind payload) := by
  intro e _ he; cases he

theorem Packets.start (p : Port) (t : Byte) : Packets.Statement (.start p t) := by
  intro e _ he; cases he; simp

theorem Packets.stop (p : Port) (t : Byte) : Packets.Statement (.stop p t) := by
  intro e _ he; cases he; simp

theorem Packets.enterSafe (p : Port) (t : Byte) : Packets.Statement (.enterSafe p t) := by
  intro e _ he; cases he; simp

theorem Packets.resume (p : Port) (t : Byte) : Packets.Statement (.resume p t) := by
  intro e _ he; cases he; simp

theorem Packets.resetRig (p : Port) (t : Byte) : Packets.Statement (.resetRig p t) := by
  intro e _ he; cases he; simp

theorem Packets.setDeadline (p : Port) (t : Byte) (enabled : Bool) (limit : BitVec 4) (deadline : Half) :
    Packets.Statement (.setDeadline p t enabled limit deadline) := by
  intro e _ he; cases he; simp

theorem Packets.readRunState (p : Port) (t : Byte) : Packets.Statement (.readRunState p t) := by
  intro e _ he; cases he; simp

theorem Packets.setSpeed (p : Port) (t : Byte) (target : Word) (ramp : Half) :
    Packets.Statement (.setSpeed p t target ramp) := by
  intro e _ he; cases he; simp

theorem Packets.setAngleBase (p : Port) (t source : Byte) (safeRamp : Half) :
    Packets.Statement (.setAngleBase p t source safeRamp) := by
  intro e _ he; cases he; simp

theorem Packets.loadPattern (p : Port) (t pattern : Byte) (windows : List WindowWord) :
    Packets.Statement (.loadPattern p t pattern windows) := by
  intro e hw he; cases he; simp [Instr.wf] at hw; simp; omega

theorem Packets.readAngleBase (p : Port) (t : Byte) : Packets.Statement (.readAngleBase p t) := by
  intro e _ he; cases he; simp

theorem Packets.readPattern (p : Port) (t pattern : Byte) (staged : Bool) :
    Packets.Statement (.readPattern p t pattern staged) := by
  intro e _ he; cases he; simp

theorem Packets.liveUpdate (p : Port) (t : Byte) (entries : List LiveEntry) :
    Packets.Statement (.liveUpdate p t entries) := by
  intro e hw he; cases he; simp [Instr.wf] at hw; rw [entryWords_length]; omega

theorem Packets.stepMark (p : Port) (t : Byte) : Packets.Statement (.stepMark p t) := by
  intro e _ he; cases he; simp

theorem Packets.setChannel (p : Port) (t channel : Byte) (args : ChannelArgs) :
    Packets.Statement (.setChannel p t channel args) := by
  intro e _ he; cases he; simp [channelWords]

theorem Packets.force (p : Port) (t : Byte) (channel : BitVec 6) (aux : BitVec 24) (value : Word) :
    Packets.Statement (.force p t channel aux value) := by
  intro e _ he; cases he; simp

theorem Packets.echo (p : Port) (t : Byte) : Packets.Statement (.echo p t) := by
  intro e _ he; cases he; simp

theorem Packets.readChannel (p : Port) (t channel : Byte) : Packets.Statement (.readChannel p t channel) := by
  intro e _ he; cases he; simp

theorem Packets.setRelayTiming (p : Port) (t settle timeout : Byte) :
    Packets.Statement (.setRelayTiming p t settle timeout) := by
  intro e _ he; cases he; simp

theorem Packets.readRelays (p : Port) (t channel : Byte) : Packets.Statement (.readRelays p t channel) := by
  intro e _ he; cases he; simp

theorem Packets.armFault (p : Port) (t index : Byte) (args : FaultArgs) :
    Packets.Statement (.armFault p t index args) := by
  intro e _ he; cases he; simp [faultWords_length]

theorem Packets.releaseFault (p : Port) (t index : Byte) : Packets.Statement (.releaseFault p t index) := by
  intro e _ he; cases he; simp

theorem Packets.clearFault (p : Port) (t index : Byte) : Packets.Statement (.clearFault p t index) := by
  intro e _ he; cases he; simp

theorem Packets.readFault (p : Port) (t index : Byte) : Packets.Statement (.readFault p t index) := by
  intro e _ he; cases he; simp

theorem Packets.defineSegment (p : Port) (t index : Byte) (base length : Word) :
    Packets.Statement (.defineSegment p t index base length) := by
  intro e _ he; cases he; simp

theorem Packets.freeSegment (p : Port) (t index : Byte) : Packets.Statement (.freeSegment p t index) := by
  intro e _ he; cases he; simp

theorem Packets.writeSamples (p : Port) (t index : Byte) (offset : Word) (samples : List Half) :
    Packets.Statement (.writeSamples p t index offset samples) := by
  intro e hw he; cases he; simp [Instr.wf] at hw; simp [packSamples_length]; omega

theorem Packets.writeSamplesDone : Packets.Statement (.writeSamplesDone) := by
  intro e _ he; cases he

theorem Packets.readSamples (p : Port) (t index : Byte) (offset : Word) (count : Half) :
    Packets.Statement (.readSamples p t index offset count) := by
  intro e _ he; cases he; simp

theorem Packets.readSamplesDone (p : Port) : Packets.Statement (.readSamplesDone p) := by
  intro e _ he; cases he

theorem Packets.readSegment (p : Port) (t index : Byte) : Packets.Statement (.readSegment p t index) := by
  intro e _ he; cases he; simp

theorem Packets.setReplay (p : Port) (t engine : Byte) (args : ReplayArgs) :
    Packets.Statement (.setReplay p t engine args) := by
  intro e _ he; cases he; simp

theorem Packets.queueReplay (p : Port) (t engine : Byte) (args : DescriptorArgs) :
    Packets.Statement (.queueReplay p t engine args) := by
  intro e _ he; cases he; simp

theorem Packets.stopReplay (p : Port) (t engine : Byte) : Packets.Statement (.stopReplay p t engine) := by
  intro e _ he; cases he; simp

theorem Packets.readReplay (p : Port) (t engine : Byte) : Packets.Statement (.readReplay p t engine) := by
  intro e _ he; cases he; simp

theorem Packets.setCapture (p : Port) (t input : Byte) (args : CaptureArgs) :
    Packets.Statement (.setCapture p t input args) := by
  intro e _ he; cases he; simp

theorem Packets.takeCaptures (p : Port) (t count : Byte) : Packets.Statement (.takeCaptures p t count) := by
  intro e _ he; cases he; simp

theorem Packets.readCaptureState (p : Port) (t input : Byte) :
    Packets.Statement (.readCaptureState p t input) := by
  intro e _ he; cases he; simp

theorem Packets.readNotices (p : Port) (t : Byte) : Packets.Statement (.readNotices p t) := by
  intro e _ he; cases he; simp

theorem Packets.clearNotices (p : Port) (t : Byte) (set : Word) :
    Packets.Statement (.clearNotices p t set) := by
  intro e _ he; cases he; simp

theorem Packets.setNoticeEnable (p : Port) (t : Byte) (mask : Word) :
    Packets.Statement (.setNoticeEnable p t mask) := by
  intro e _ he; cases he; simp

end Sys2Proof.Laws
end

