-- ==== Sys2Proof/Laws/Ports.lean ====
section
/-! SUPPORT. What a request command does, said once: the port takes it, refuses it, holds it, or cannot carry it. -/

namespace Sys2Proof.Machine

variable {s : State} {p : Port} {t : Byte} {i : Instr} {e : RequestKind × List Word}

/-- A request the port takes at once and may carry goes to its block. -/
theorem request_of_takesNow (he : encodePayload i = some e) (hl : e.2.length ≤ 255)
    (ha : e.1.allowed p = true) (hn : s.takesNow p = true) :
    s.request p t i = .next (deliver p e.1.code t (handle i s)) := by
  simp [State.request, he, Nat.not_lt.2 hl, State.submit, hn, permitted, ha, packetOf, judged]

/-- A request of a kind that belongs to the other port is refused with WRONG_PORT and changes nothing else
(R192, R193). -/
theorem request_of_wrongPort (he : encodePayload i = some e) (hl : e.2.length ≤ 255)
    (ha : e.1.allowed p = false) (hn : s.takesNow p = true) :
    s.request p t i = .next (s.respond p e.1.code t (.refuse .wrongPort)) := by
  simp [State.request, he, Nat.not_lt.2 hl, State.submit, hn, permitted, ha, packetOf, judged, refuse, deliver]

/-- A request sent while the part is held in reset is discarded (R185). -/
theorem request_of_held (he : encodePayload i = some e) (hl : e.2.length ≤ 255)
    (hr : s.pins.resetLine = true) : s.request p t i = .next s := by
  simp [State.request, he, Nat.not_lt.2 hl, State.submit, State.takesNow, hr]

/-- A request that its port cannot take at once, the part not held in reset, arrives word by word (R188 to R191). -/
theorem request_of_waits (he : encodePayload i = some e) (hl : e.2.length ≤ 255)
    (hn : s.takesNow p = false) (hr : s.pins.resetLine = false) :
    s.request p t i = .next ((packetOf t e).words.foldl (State.arrive p) s) := by
  simp [State.request, he, Nat.not_lt.2 hl, State.submit, hn, hr]

/-- A request that fits a packet always answers a next state. -/
theorem request_next (he : encodePayload i = some e) (hl : e.2.length ≤ 255) :
    ∃ u, s.request p t i = .next u := by
  simp [State.request, he, Nat.not_lt.2 hl]

/-! ## Words that arrive -/

/-- A port that can take nothing serves nothing (R191). -/
theorem serve_of_not_free (h : s.portFree p = false) : s.serve p = s := by
  unfold State.serve serveFuel
  split
  · rfl
  · rw [if_neg (by simp [h])]

/-- A word that arrives does not free a response place. -/
theorem receive_responses (q : PortState) (w : Word) : (q.receive w).responses = q.responses := by
  unfold PortState.receive
  repeat' first | split | rfl

/-- Whether a port is free rests on its response queue and the transfers alone (R191). -/
theorem portFree_updPort (f : PortState → PortState) (h : ∀ q, (f q).responses = q.responses) :
    (s.updPort p f).portFree p = s.portFree p := by
  simp only [State.portFree, State.transferring, State.updPort_port_self, h, State.updPort_moving,
    State.updPort_queued]

/-- Words that arrive on a port that can take nothing are received, and nothing else happens (R188 to R190). -/
theorem foldl_arrive_of_not_free (l : List Word) (h : s.portFree p = false) :
    l.foldl (State.arrive p) s = s.updPort p fun q => l.foldl PortState.receive q := by
  induction l generalizing s with
  | nil => cases p <;> rfl
  | cons w l ih =>
    have h' : (s.updPort p fun q => q.receive w).portFree p = false := by
      rw [portFree_updPort _ fun q => receive_responses q w, h]
    rw [List.foldl_cons, State.arrive, serve_of_not_free h', ih h']
    cases p <;> rfl

/-! ## Responses -/

@[simp] theorem respond_memory (k : Byte) (r : Reply) : (s.respond p k t r).memory = s.memory := by
  cases p <;> rfl

@[simp] theorem respond_pending (k : Byte) (r : Reply) : (s.respond p k t r).pending = s.pending := by
  cases p <;> rfl

/-- The port's response queue after a response is formed. -/
@[simp] theorem respond_port_self (k : Byte) (r : Reply) :
    (s.respond p k t r).port p = (s.port p).place k t (some r) := by
  cases p <;> rfl

/-! ## Event commands -/

/-- Settling does nothing where no examination is due, or an event of the instant is left. -/
theorem settle_of_no_pass (h : s.examineDue = false ∨ s.due ≠ []) : s.settle = s := by
  rcases h with h | h <;> simp [State.settle, settleFuel, h]

/-- Settling does nothing when no examination is due. -/
theorem settle_of_not_examineDue (h : s.examineDue = false) : s.settle = s := settle_of_no_pass (.inl h)

/-- Settling does nothing while an event of the instant is left. -/
theorem settle_of_due (h : s.due ≠ []) : s.settle = s := settle_of_no_pass (.inr h)

/-- An event that is due is taken, and where no pass of the wait list follows nothing else happens. -/
theorem takeEvent_of_due {v : Event} (h : v ∈ s.due)
    (he : ((s.took v).perform v).examineDue = false ∨ ((s.took v).perform v).due ≠ []) :
    s.takeEvent v = (s.took v).perform v := by
  rw [State.takeEvent, if_pos h, settle_of_no_pass he]

/-- An event that is not due changes nothing. -/
theorem takeEvent_of_not_due {v : Event} (h : v ∉ s.due) : s.takeEvent v = s := by
  simp [State.takeEvent, h]

/-- Draining a class with no event due changes nothing. -/
theorem drain_of_none {q : Event → Bool} {f : State → Event → State} (h : ∀ v ∈ s.due, q v = false) :
    s.drain q f = s := by
  have h1 : s.due.filter q = [] := List.filter_eq_nil_iff.2 fun v hv => by simp [h v hv]
  have h2 : (s.due.filter fun v => !q v) = s.due := List.filter_eq_self.2 fun v hv => by simp [h v hv]
  simp only [State.drain, h1, h2, List.foldl_nil]

/-- An event that must come after others is taken where none of those is due. -/
theorem takeAfter_of_none {q : Event → Bool} {v : Event} (h : ∀ x ∈ s.due, q x = false) :
    s.takeAfter q v = s.takeEvent v := by
  by_cases hv : v ∈ s.due
  · rw [State.takeAfter, if_pos hv, drain_of_none h]
  · rw [State.takeAfter, if_neg hv, takeEvent_of_not_due hv]

end Sys2Proof.Machine
end

