-- ==== Sys2Proof/Laws/Steps.lean ====
section
/-! SUPPORT. What a step can do, said once: the half-tick instant, where a request's starts open, and a property that the ports, the
blocks' requests, the events, the tick and the resets keep is kept by every step. -/

namespace Sys2Proof.Machine

/-! ## The place of a start -/

/-- Exactly the events that the next grid point brings to a channel (R32). -/
theorem mem_gridEvent {c : Fin 24} {ch : Channel} {e : Event} : e ∈ gridEvent c ch ↔
    e = .periodStart c ∧ (ch.gen = none ∧ ch.wait = 1 ∨ ∃ g, ch.gen = some g ∧ g.elapsed + 1 = g.period) ∨
      e = .highEnd c ∧ ∃ g, ch.gen = some g ∧ g.active = true ∧ g.elapsed + 1 = g.high ∧ g.high < g.period := by
  unfold gridEvent
  cases ch.gen with
  | none => simp [and_comm]
  | some g =>
    have hp : periodOver g.count = true ↔ g.elapsed + 1 = g.period := beq_iff_eq
    have hh : highOver g.count = true ↔ g.active = true ∧ g.elapsed + 1 = g.high ∧ g.high < g.period := by
      rw [highOver, Bool.and_eq_true, Bool.and_eq_true, and_assoc, beq_iff_eq, decide_eq_true_iff]
      rfl
    simp only [generatorEvent, hp, hh]
    split <;> rename_i h
    · simp [h]
      omega
    · split <;> simp_all

/-- A grid point brings each event once. -/
theorem gridEvents_nodup (s : State) : s.gridEvents.Nodup := by
  unfold State.gridEvents
  rw [List.nodup_flatMap]
  refine ⟨fun c _ => ?_, List.Pairwise.imp (R := (· ≠ ·)) ?_ ((List.nodup_finRange 24).filter _)⟩
  · unfold gridEvent generatorEvent
    repeat' split
    all_goals simp
  · intro c d hcd e he hd
    rw [mem_gridEvent] at he hd
    rcases he with ⟨rfl, -⟩ | ⟨rfl, -⟩ <;> rcases hd with ⟨h, -⟩ | ⟨h, -⟩ <;> cases h <;> exact hcd rfl

/-- What the half-tick instant does where nothing is due (R23, R32). -/
theorem State.halfTick_spec {s : State} (hs : s.due = []) : s.halfTicked s.halfTick := by
  have hg : s.keepOutputs.gridEvents = s.gridEvents := by
    refine List.flatMap_congr fun c _ => ?_
    simp only [State.keepOutputs, State.channel, mapV_get, keepLevel]
    split <;> rfl
  have hf : s.flush = s := by simp [State.flush, flushFuel, hs]
  have he : s.halfTick = { s with
      halfDone := true
      channels := mapV (fun _ ch => gridStep ch) (mapV keepLevel s.channels)
      place := s.place - 1
      due := s.gridEvents } := by
    unfold State.halfTick
    rw [hf, State.countGenerators, hg]
    ext <;> simp [State.keepOutputs, hs]
  generalize s.halfTick = h at he
  subst he
  refine ⟨rfl, fun c => ?_, gridEvents_nodup s, fun e => ?_⟩
  · simp only [State.channel, mapV_get, gridStep, keepLevel]
    by_cases h : kindOf c = .pulse ∧ (s.channels.get c).mode = .free
    · simp only [h.1, h.2, and_self, if_true]; rfl
    · simp only [h, if_false]; rfl
  · simp only [State.gridEvents, List.mem_flatMap, pulseChannels, List.mem_filter, List.mem_finRange, mem_gridEvent,
      true_and, beq_iff_eq]
theorem State.gridEvents_nil {s : State} (h : s.gridEvents = []) {c : Fin 24} (hc : kindOf c = .pulse) :
    gridEvent c (s.channel c) = [] := by
  have hm : c ∈ pulseChannels := by simp [pulseChannels, hc]
  exact List.flatMap_eq_nil_iff.mp h c hm

/-- The starts of a request open at an allowed grid point (R32). -/
theorem State.startPlace_allowed (s : State) : s.mayOpenAt s.startPlace := by
  refine ⟨Nat.le_max_left _ _, ?_⟩
  unfold State.startPlace
  by_cases hd : s.due = []
  · rw [if_pos (by simp [hd])]
    by_cases hl : s.halfDone = true ∨ s.gridEvents ≠ []
    · rw [show s.lastPlace = 1 from if_pos hl]
      have := Nat.mod_lt (Config.startPlace s.freeCount) (show 1 + 1 > 0 by decide)
      exact or_iff_not_imp_left.mpr fun _ => ⟨hd, .inl (by omega)⟩
    · rw [show s.lastPlace = 2 from if_neg hl]
      have := Nat.mod_lt (Config.startPlace s.freeCount) (show 2 + 1 > 0 by decide)
      rw [not_or, not_not] at hl
      refine or_iff_not_imp_left.mpr fun _ => ⟨hd, or_iff_not_imp_left.mpr fun _ => ⟨by omega, ?_⟩⟩
      exact ⟨Bool.eq_false_iff.mpr hl.1, fun c hc => State.gridEvents_nil hl.2 hc⟩
  · rw [if_neg (by simpa using hd)]
    exact .inl (Nat.max_eq_left (Nat.zero_le _))

theorem State.startRequested_place (s : State) (w : Nat) (c : Fin 24) :
    (s.startRequested w c).place = if s.mayStart c then w else s.place := by
  unfold State.startRequested; split <;> rfl

/-- A fold of starts at place `w` leaves the place as it was or at `w`. -/
theorem foldl_place {w : Nat} {f : State → Fin 24 → State} (hf : ∀ s c, (f s c).place = s.place ∨ (f s c).place = w)
    (l : List (Fin 24)) (s : State) : (l.foldl f s).place = s.place ∨ (l.foldl f s).place = w := by
  induction l generalizing s with
  | nil => exact .inl rfl
  | cons c l ih =>
    rcases ih (f s c) with h | h
    · exact (hf s c).imp h.trans h.trans
    · exact .inr h

theorem State.startGenerators_place (s : State) :
    s.startGenerators.place = s.place ∨ s.startGenerators.place = s.startPlace :=
  foldl_place (fun u c => by rw [State.startRequested_place]; split <;> simp) _ _

theorem State.pairWritten_place (s : State) (w : Nat) (c : Fin 24) :
    (s.pairWritten w c).place = s.place ∨ (s.pairWritten w c).place = w := by
  unfold State.pairWritten State.basePairChanged
  dsimp only
  cases h : s.mayStart c <;> (repeat' split) <;> simp [State.startRequested_place, h]

theorem State.pairsWritten_place (s : State) (q : Fin 24 → Bool) :
    (s.pairsWritten q).place = s.place ∨ (s.pairsWritten q).place = s.startPlace :=
  foldl_place (fun u c => u.pairWritten_place _ c) _ _

/-! ## What every step keeps -/

/-- What must be shown of a property for every step to keep it. `port` asks it of a change of a port that leaves the
port's capture queue alone. -/
structure Kept (P : State → Prop) : Prop where
  pending : ∀ s l, P s → P { s with pending := l }
  port : ∀ (s : State) (p : Port) (f : PortState → PortState),
    (∀ q, (f q).captures = q.captures) → P s → P (s.updPort p f)
  request : ∀ i s, P s → P (handle i s).state
  transfer : ∀ s x, s.moving = some x → P s →
    P { s with memory := transferMemory s x, moving := s.queued, queued := none }
  perform : ∀ (s : State) (e : Event), P s → P (s.perform e)
  settle : ∀ s : State, P s → P s.settle
  due : ∀ s l, P s → P { s with due := l }
  pins : ∀ s x, P s → P { s with pins := x }
  count : ∀ s b, P s → P { s.keepOutputs.countGenerators with halfDone := b }
  tick : ∀ s : State, P s → P s.makeTick
  voltage : ∀ (s : State) (i : Fin 16) (v : Int), P s → P (s.setVoltage i v)
  powerOn : ∀ s : State, P s → P s.powerOn
  rigReset : ∀ s : State, P s → P s.rigReset

theorem send_captures (q : PortState) : q.send.captures = q.captures := by
  unfold PortState.send
  split
  · rfl
  · dsimp only
    split <;> rfl

theorem receive_captures (q : PortState) (w : Word) : (q.receive w).captures = q.captures := by
  unfold PortState.receive
  repeat' first | split | rfl

namespace Kept

variable {P : State → Prop} (h : Kept P)
include h

theorem deliver {s : State} (p : Port) (k t : Byte) {x : Handled} (hx : P x.state) (_hs : P s) :
    P (Machine.deliver p k t x) := by
  cases x with
  | answered u r => exact h.port u p (fun q => q.place k t (some r)) (fun _ => rfl) hx
  | begun u => exact h.port u p (fun q => q.place k t none) (fun _ => rfl) hx
  | resetPart u => exact hx

theorem judged {s : State} (x : Except Status Instr) (hs : P s) : P (Machine.judged s x).state := by
  cases x with
  | error c => exact hs
  | ok i => exact h.request i s hs

theorem takePacket {s : State} (p : Port) (q : Packet) (hs : P s) : P (s.takePacket p q) :=
  h.deliver p _ _ (h.judged _ hs) hs

theorem serveFuel (n : Nat) : ∀ {s : State} (p : Port), P s → P (Machine.serveFuel n s p) := by
  induction n with
  | zero => exact fun _ hs => hs
  | succ n ih =>
    intro s p hs
    unfold Machine.serveFuel
    split
    · exact hs
    · split
      · exact ih _ (h.takePacket _ _ (h.port _ _ _ (fun _ => rfl) hs))
      · exact hs

theorem serve {s : State} (p : Port) (hs : P s) : P (s.serve p) := h.serveFuel 8 p hs

theorem arrive {s : State} (p : Port) (w : Word) (hs : P s) : P (s.arrive p w) :=
  h.serve _ (h.port _ _ _ (fun q => receive_captures q w) hs)

theorem foldl_arrive (p : Port) (l : List Word) : ∀ {s : State}, P s → P (l.foldl (State.arrive p) s) := by
  induction l with
  | nil => exact fun hs => hs
  | cons w l ih => exact fun hs => ih (h.arrive p w hs)

theorem submit {s : State} (p : Port) (q : Packet) (x : Except Status Instr) (hs : P s) : P (s.submit p q x) := by
  unfold State.submit
  split
  · exact h.deliver _ _ _ (h.judged _ hs) hs
  · split
    · exact hs
    · exact h.foldl_arrive _ _ hs

theorem clockWord {s : State} (p : Port) (w : Word) (hs : P s) : P (s.clockWord p w) := by
  unfold State.clockWord
  split
  · exact h.port _ _ _ (fun _ => rfl) hs
  · exact h.port _ _ _ (fun _ => rfl) (h.arrive _ _ (h.serve _ (h.port _ _ _ send_captures hs)))

theorem endTransfer {s : State} {x : Transfer} (hx : s.moving = some x) (hs : P s) : P (s.endTransfer x) := by
  unfold State.endTransfer
  exact h.serve _ (h.port _ _ _ (fun _ => rfl) (h.transfer _ _ hx hs))

theorem takeEvent {s : State} (e : Event) (hs : P s) : P (s.takeEvent e) := by
  unfold State.takeEvent
  split
  · exact h.settle _ (h.perform _ _ (h.due _ _ hs))
  · exact hs

theorem foldl_perform (l : List Event) : ∀ {s : State}, P s → P (l.foldl State.perform s) := by
  induction l with
  | nil => exact fun hs => hs
  | cons e l ih => exact fun hs => ih (h.perform _ _ hs)

theorem takeAfter {s : State} (q : Event → Bool) (e : Event) (hs : P s) : P (s.takeAfter q e) := by
  unfold State.takeAfter
  split
  · exact h.takeEvent _ (h.foldl_perform _ (h.due _ _ hs))
  · exact hs

theorem flushFuel (n : Nat) : ∀ {s : State}, P s → P (Machine.flushFuel n s) := by
  induction n with
  | zero => exact fun hs => hs
  | succ n ih =>
    intro s hs
    unfold Machine.flushFuel
    split
    · exact hs
    · exact ih (h.settle _ (h.perform _ _ (h.due _ _ hs)))

theorem flush {s : State} (hs : P s) : P s.flush := h.flushFuel 1000 hs

theorem halfTick {s : State} (hs : P s) : P s.halfTick := h.count _ _ (h.flush hs)

theorem closeInstant {s : State} (hs : P s) : P s.closeInstant := by
  unfold State.closeInstant
  dsimp only
  split
  · exact h.flush hs
  · exact h.flush (h.halfTick (h.flush hs))

theorem tickCommand {s : State} (l : List PinChange) (hs : P s) : P (s.tick l) := by
  unfold State.tick
  split
  · exact h.pins _ _ hs
  · exact h.tick _ (h.pins _ _ (h.closeInstant hs))

theorem takeGridEvent {s : State} (e : Event) (hs : P s) : P (s.takeGridEvent e) := by
  unfold State.takeGridEvent
  split
  · exact h.takeEvent _ hs
  · split
    · exact h.takeEvent _ (h.halfTick hs)
    · exact hs

theorem request_next {s t : State} {p : Port} {g : Byte} {i : Instr} (hs : P s)
    (ht : s.request p g i = .next t) : P t := by
  unfold State.request at ht
  split at ht
  · cases ht
  · split at ht
    · cases ht
    · cases ht; exact h.submit _ _ _ hs

/-- Every command keeps the property. -/
theorem exec {s t : State} (c : Instr) (hs : P s) (ht : Machine.exec c s = .next t) : P t := by
  cases c with
  | powerOnReset => cases ht; exact h.powerOn _ hs
  | resetLineAssert =>
    cases ht
    split
    · exact hs
    · exact h.pins _ _ (h.rigReset _ hs)
  | resetLineRelease => cases ht; exact h.pins _ _ hs
  | rigTick l => cases ht; exact h.tickCommand _ hs
  | millisecondBoundary => cases ht; exact h.takeAfter _ _ hs
  | cycleWrap =>
    cases ht
    unfold State.wrapTick
    dsimp only
    split
    · exact h.tick _ (h.closeInstant hs)
    · exact hs
  | analogRefresh => cases ht; exact h.takeAfter _ _ hs
  | periodStart c => cases ht; exact h.takeGridEvent _ hs
  | pulseHighEnd c => cases ht; exact h.takeGridEvent _ hs
  | comparatorChange i v => cases ht; exact h.voltage _ _ _ hs
  | captureEdgeReport i => cases ht; exact h.takeAfter _ _ hs
  | driverTrip _ | movementComplete _ _ | movementFail _ _ | batteryFlagChange | safeLineChange
  | atTimeTrigger _ | onCaptureTrigger _ | durationEnd _ | replayAdvance _ | deadlineExpiry =>
    cases ht; exact h.takeEvent _ hs
  | portWord p w => cases ht; exact h.clockWord _ _ hs
  | writeSamplesDone =>
    cases ht
    unfold State.writeDone
    split
    · split
      · exact h.endTransfer (by assumption) hs
      · exact hs
    · exact hs
  | readSamplesDone p =>
    cases ht
    unfold State.readDone
    split
    · split
      · exact h.endTransfer (by assumption) hs
      · exact hs
    · exact hs
  | unknownKind p g k l =>
    simp only [Machine.exec, execUnknownKind] at ht
    split at ht
    · cases ht
    · cases ht; exact h.submit _ _ _ hs
  | start _ _ | stop _ _ | enterSafe _ _ | resume _ _ | resetRig _ _ | setDeadline _ _ _ _ _ | readRunState _ _
  | setSpeed _ _ _ _ | setAngleBase _ _ _ _ | loadPattern _ _ _ _ | readAngleBase _ _ | readPattern _ _ _ _
  | liveUpdate _ _ _ | stepMark _ _ | setChannel _ _ _ _ | force _ _ _ _ _ | echo _ _ | readChannel _ _ _
  | setRelayTiming _ _ _ _ | readRelays _ _ _ | armFault _ _ _ _ | releaseFault _ _ _ | clearFault _ _ _
  | readFault _ _ _ | defineSegment _ _ _ _ _ | freeSegment _ _ _ | writeSamples _ _ _ _ _
  | readSamples _ _ _ _ _ | readSegment _ _ _ | setReplay _ _ _ _ | queueReplay _ _ _ _ | stopReplay _ _ _
  | readReplay _ _ _ | setCapture _ _ _ _ | takeCaptures _ _ _ | readCaptureState _ _ _ | readNotices _ _
  | clearNotices _ _ _ | setNoticeEnable _ _ _ =>
    simp only [Machine.exec,
      execStart, execStop, execEnterSafe, execResume, execResetRig, execSetDeadline, execReadRunState,
      execSetSpeed, execSetAngleBase, execLoadPattern, execReadAngleBase, execReadPattern, execLiveUpdate,
      execStepMark, execSetChannel, execForce, execEcho, execReadChannel, execSetRelayTiming, execReadRelays,
      execArmFault, execReleaseFault, execClearFault, execReadFault, execDefineSegment, execFreeSegment,
      execWriteSamples, execReadSamples, execReadSegment, execSetReplay, execQueueReplay, execStopReplay,
      execReadReplay, execSetCapture, execTakeCaptures, execReadCaptureState, execReadNotices,
      execClearNotices, execSetNoticeEnable] at ht
    exact h.request_next hs ht

/-- Every step keeps the property. -/
theorem step {s t : State} (hs : P s) (ht : Machine.step s = .next t) : P t := by
  unfold Machine.step at ht
  split at ht
  · cases ht; exact hs
  · exact h.exec _ (h.pending _ _ hs) ht

end Kept

end Sys2Proof.Machine
end

