-- ==== Sys2Proof/Tests/Slice0.lean ====
section
/-! SUPPORT. Tests, on small states built from the reset state: ill-formed commands are refused, words written out
from the layouts of chapter 11 are read, commands give what the manual's worked cases give, and every statement's
hypotheses are met by a concrete state and operands (the theorems named `witness_`). -/

namespace Sys2Proof.Tests

open Sys2Proof.Machine

/-! ## Helpers -/

/-- What a command leaves of a state, where it has a next state. -/
def after {α : Type} (c : Instr) (s : State) (f : State → α) : Option α :=
  match exec c s with
  | .next t => some (f t)
  | .fault _ | .refused _ => none

/-- The status and body of the newest response of a port. -/
def replyOf (p : Port) (s : State) : Option Reply := (s.port p).responses.getLast?.bind fun r => r.reply

/-- The status a request is answered with. -/
def statusOf (p : Port) (c : Instr) (s : State) : Option Status := (after c s (replyOf p)).bind fun r => r.map Reply.status

/-- The reset state with both ports SYNCED. -/
def linked : State :=
  { State.reset with portM := { link := .synced, resetHunt := false }, portB := { link := .synced, resetHunt := false } }

/-- The reset state with both ports SYNCED, in a mode, the SAFE line released. -/
def inMode (m : Mode) : State := { linked with run := { mode := m, safe := { level := false } } }

/-- A state with events due. -/
def withDue (l : List Event) (s : State) : State := { s with due := l }

/-- A state with a fault record. -/
def withFault (k : Fin 64) (r : FaultRecord) (s : State) : State := s.updFault k fun _ => r

/-- A state with Port B given. -/
def withB (f : PortState → PortState) (s : State) : State := s.updPort .B f

/-- A state with segment 4 at address 10, `n` samples long. -/
def withSegment (n refs : Nat) (s : State) : State := s.updSegment 4 fun _ => ⟨true, 10, n, refs⟩

/-- A formed response to START. -/
def aResponse : Response := ⟨0x01, 7, some (.refuse .wrongMode)⟩

/-- A complete START request in an inbound queue. -/
def aPacket : Packet := ⟨0x01, 7, 0, []⟩

/-- A descriptor of two samples of segment 4. -/
def aDescriptor (loops : Nat) (final : Bool) : Descriptor := ⟨4, 0, 2, loops, final, false⟩

/-- A stamp. -/
def aStamp : Stamp := ⟨50004, 3, 2⟩

/-- A capture record. -/
def aRecord : CaptureRecord := ⟨5, true, aStamp, false, none⟩

/-- A definition of a fault record: STUCK_AT 1000 on A5 at rig time 9, until it is released. -/
def aDefinition : FaultArgs := ⟨5, 0, 4, 1, 1000, .atTime 9, .untilRelease, 0, 2, 0⟩

/-! ## Well-formed commands -/

theorem test_wf_pattern_254 : (Instr.loadPattern .B 1 0 (List.replicate 254 ⟨0, 1⟩)).wf = true := by
  simp only [Instr.wf, List.length_replicate]; decide
theorem test_wf_pattern_255 : (Instr.loadPattern .B 1 0 (List.replicate 255 ⟨0, 1⟩)).wf = false := by
  simp only [Instr.wf, List.length_replicate]; decide
theorem test_wf_live_128 : (Instr.liveUpdate .M 1 (List.replicate 128 ⟨0, 0, 0, 0⟩)).wf = false := by
  simp only [Instr.wf, List.length_replicate]; decide
theorem test_wf_samples_507 : (Instr.writeSamples .B 1 0 0 (List.replicate 507 0)).wf = false := by
  simp only [Instr.wf, List.length_replicate]; decide
theorem test_wf_known_kind : (Instr.unknownKind .B 1 0x24 []).wf = false := by decide
theorem test_wf_unknown_long : (Instr.unknownKind .B 1 0xEE (List.replicate 256 0)).wf = false := by
  simp only [Instr.wf, List.length_replicate]; decide
theorem test_wf_trigger_code :
    (Instr.armFault .B 1 0 { aDefinition with trigger := .unknown 3 }).wf = false := by decide
theorem test_wf_duration_code :
    (Instr.armFault .B 1 0 { aDefinition with duration := .unknown 4 }).wf = false := by decide

/-! ## Words (chapter 11) -/

/-- What a port reads from a header word and payload words. -/
def reads (p : Port) (header : Word) (payload : List Word) : Option Instr :=
  match decodePacket p ⟨field header 16 8, field header 8 8, (field header 0 8).toNat, payload⟩ with
  | .ok i => some i
  | .error _ => none

/-- SET_DEADLINE 0x06: enabled, L = 3, D = 100 (R205). -/
theorem test_words_run : reads .B 0xC3060501 [0x83000064] = some (.setDeadline .B 5 true 3 100) := by decide
/-- SET_SPEED 0x10: T = 24000, R = 400 (R203). -/
theorem test_words_angle : reads .B 0xC3100702 [0x00005DC0, 0x00000190] = some (.setSpeed .B 7 24000 400) := by
  decide
/-- LOAD_PATTERN 0x12: CAM0, the windows 160 to 400 and 3000 to 3160 (R203). -/
theorem test_words_pattern : reads .B 0xC3120103 [0x01000000, 0x00A00190, 0x0BB80C58] =
    some (.loadPattern .B 1 1 [⟨160, 400⟩, ⟨3000, 3160⟩]) := by decide
/-- LIVE_UPDATE 0x20: A5 STAGED 1000, and P2 IMMEDIATE -1 with auxiliary 500 (R203). -/
theorem test_words_live : reads .M 0xC3200204 [0x15000000, 0x000003E8, 0x380001F4, 0xFFFFFFFF] =
    some (.liveUpdate .M 2 [⟨5, 1, 0, 1000⟩, ⟨14, 0, 500, 0xFFFFFFFF⟩]) := by decide
/-- SET_CHANNEL 0x22: P0, mode WHEEL, pattern CAM0, offset 160, keep out of service (R205). -/
theorem test_words_channel : reads .B 0xC3220303 [0x0C000087, 0x901000A0, 0x00000000] =
    some (.setChannel .B 3 12
      { wheel := some true, pattern := some 1, offset := some 160, keepOut := some true }) := by decide
/-- SET_RELAY_TIMING 0x30: settle 3 ms, timeout 20 ms (R205). -/
theorem test_words_relay : reads .B 0xC3300401 [0x00000314] = some (.setRelayTiming .B 4 3 20) := by decide
/-- ARM_FAULT 0x40: record 10, MISS_TOOTH on P0, tooth 20, level 4, ON_CAPTURE (C3, FALL, 2), ANGLE 5760, notify
set B (R205, sequence 11.3). -/
theorem test_words_fault :
    reads .B 0xC3400508 [0x0A0C0094, 0x00000014, 0x20030102, 0, 0x20000000, 0x00001680, 0x00000002, 0] =
      some (.armFault .B 5 10 ⟨12, 0, 9, 4, 20, .onCapture 3 1 2, .angle 5760, 0, 2, 0⟩) := by decide
/-- WRITE_SAMPLES 0x52: segment 4, three samples at offset 8, the last alone in its word (R203). -/
theorem test_words_samples : reads .B 0xC3520604 [0x04000003, 0x00000008, 0x032004B0, 0x06400000] =
    some (.writeSamples .B 6 4 8 [800, 1200, 1600]) := by decide
/-- QUEUE_REPLAY 0x61: engine 1, segment 4, final, loops 255, first 3, count 2 (R205). -/
theorem test_words_replay : reads .B 0xC3610703 [0x010480FF, 3, 2] =
    some (.queueReplay .B 7 1 ⟨4, true, 255, 3, 2⟩) := by decide
/-- SET_CAPTURE 0x70: C5, level 4, divider 2, agreement 4, enabled, BOTH, to B, width (R205, case 8.9.1). -/
theorem test_words_capture : reads .B 0xC3700802 [0x05040204, 0x82020001] =
    some (.setCapture .B 8 5 ⟨4, 2, 4, true, 2, 2, false, true⟩) := by decide
/-- CLEAR_NOTICES 0x81 with LINK_RESYNC (R203). -/
theorem test_words_notice : reads .M 0xC3810901 [0x00000100] = some (.clearNotices .M 9 0x100) := by decide
/-- A response of status BUSY to STOP with tag 9 (R201). -/
theorem test_words_status : responseWords 0x02 9 (.refuse .busy) = [0x3C020901, 0x00000007] := by decide
/-- READ_SAMPLES answers n and its samples (R203). -/
theorem test_words_read : responseWords 0x53 1 (.okay (.samples [0xFFFF, 2, 3])) =
    [0x3C530104, 0, 0x00000003, 0xFFFF0002, 0x00030000] := by decide
/-- The FALL of case 8.9.1 as its four words (R204). -/
theorem test_words_record : captureWords ⟨5, false, ⟨50538, 575, 41⟩, false, some 534⟩ =
    [0x52000000, 0x0000C56A, 0x0029023F, 0x00000216] := by decide

/-! ## Worked cases of the manual -/

/-- 1.8.1: the increment at 6000 rpm. -/
theorem test_increment : increment 24000 = 214748 ∧ increment 4400 = 39371 := by decide
/-- 1.8.1: the angle count after 1000 and after 20,000 ticks. -/
theorem test_angle_count : angleCount 214748000 = 575 ∧ angleCount 4294960000 = 11519 := by decide
/-- 1.8.1: tick 20,001 wraps to phase 207,452 in cycle 42. -/
theorem test_wrap : after .cycleWrap
    { inMode .run with angle := { phase := 4294960000, cycle := 41, speed := 24000, target := 24000 } }
    (fun t => (t.angle.phase, t.angle.cycle)) = some (207452, 42) := by decide
/-- 1.8.2: a boundary steps 4000 to 4400. -/
theorem test_ramp : after .millisecondBoundary
    { withDue [.millisecond] (inMode .run) with angle := { speed := 4000, target := 24000, ramp := 400 } }
    (fun t => t.angle.speed) = some 4400 := by decide
/-- R35: with offset 160 and A = 100, a cam channel's angle is 11460. -/
theorem test_channel_angle : channelAngle 100 160 0 11520 = 11460 := by decide
/-- 2.13.2: 4200 shows 4000 and clamped; OFFSET -500 makes it 3700. -/
theorem test_clamp : after .analogRefresh
    (withDue [.refresh] (linked.updChannel 3 fun ch => { ch with live := ⟨4200, 0⟩ }))
    (fun t => ((t.channel 3).lastOutput, (t.channel 3).clamped)) = some (4000, true) := by decide
theorem test_offset : after .analogRefresh
    (withDue [.refresh] (withFault 1 { state := .active, kind := .offset, target := 3, param := .int (-500) }
      (linked.updChannel 3 fun ch => { ch with live := ⟨4200, 0⟩ })))
    (fun t => ((t.channel 3).lastOutput, (t.channel 3).clamped)) = some (3700, false) := by decide
/-- R110: the source of A0 after its first advance. -/
theorem test_noise : noiseNext 0xACE1 = 0xE270 := by decide
/-- 2.13.3: a period start takes the buffered pair (1000, 1500) as (1000, 1000), clamped. -/
theorem test_period : after (.periodStart 14)
    (withDue [.periodStart 14] ((inMode .run).updChannel 14 fun ch =>
      { ch with gen := some ⟨2000, 500, 2000, false⟩, buffer := some ⟨1000, 1500⟩ }))
    (fun t => ((t.channel 14).gen, (t.channel 14).clamped)) = some (some ⟨1000, 1000, 0, true⟩, true) := by decide
/-- 7.11.1: sample 1000, next 1400, e = 3 of 10, G = 6144, O = -200 give 1477; the fraction is 76. -/
theorem test_replay_scale :
    ({ pacing := .time 10, e := 3, interp := true, gain := 6144, offset := -200 } : Engine).scale 1000 1400 76 = 1477 ∧
      ({ pacing := .time 10, e := 3 } : Engine).fraction 0 = 76 := by decide
/-- 7.11.1: negative samples round toward minus infinity. -/
theorem test_replay_floor : ({ interp := true, gain := 6144 } : Engine).scale (-300) (-500) 76 = -540 := by decide
/-- R151: level index 4 has threshold 4.0 V and release 3.8 V; the output holds between them. -/
theorem test_comparator : comparatorNext 4 4001 false = true ∧ comparatorNext 4 4000 false = false ∧
    comparatorNext 4 3800 true = true ∧ comparatorNext 4 3799 true = false := by decide
/-- 8.9.1: the FALL reported at 50,544 has its stamp 50,538 and width 534. -/
theorem test_width : ({ lastEdge := some aStamp, settings := { width := true } } : CaptureInput).edgeWidth
    ⟨50538, 0, 0⟩ = some 534 := by decide
/-- 6.7.1: segments that meet without sharing an address are taken, those that share one are refused. -/
theorem test_segment_meets : statusOf .B (.defineSegment .B 1 5 20 5) (withSegment 10 0 linked) = some .ok := by
  decide
theorem test_segment_overlaps :
    statusOf .B (.defineSegment .B 1 5 19 5) (withSegment 10 0 linked) = some .overlap := by decide
/-- 9.8.1: an expiry in RUN counts a miss and makes the monitor LATE with a fresh timer. -/
theorem test_deadline : after .deadlineExpiry
    (withDue [.deadline] { inMode .run with
      run := { mode := .run, safe := { level := false }, monitor := { enabled := true, state := .onTime, timer := some 0 } } })
    (fun t => t.run.monitor) =
      some { enabled := true, state := .late, misses := 1, timer := some 1000 } := by decide
/-- R42, R199: a clear of OVERCURRENT from Port B returns a TRIPPED driver in RUN. -/
theorem test_recover_driver : after (.clearNotices .B 1 0x10)
    ((inMode .run).updChannel 2 fun ch => { ch with driver := .tripped }) (fun t => (t.channel 2).driver) =
      some .driving := by decide
/-- R193: STEP_MARK from Port B is refused with WRONG_PORT. -/
theorem test_wrong_port : statusOf .B (.stepMark .B 1) linked = some .wrongPort := by decide
/-- R192: a kind code that names no request. -/
theorem test_unknown_kind : statusOf .M (.unknownKind .M 1 0xEE []) linked = some .unknownKind := by decide
/-- R171: START is refused while the SAFE line is ASSERTED, as it is right after reset. -/
theorem test_start_refused : statusOf .B (.start .B 1) linked = some .wrongMode := by decide
set_option maxRecDepth 4000 in
/-- R171: START enters RUN. -/
theorem test_start : after (.start .B 1) (inMode .config) (fun t => t.run.mode) = some .run := by decide
/-- R2: the first tick after reset. -/
theorem test_tick : after (.rigTick []) State.reset (fun t => t.rigTime) = some 1 := by decide

set_option maxRecDepth 4000 in
/-- R189: right after reset a port hunts, and the words of a request are discarded. -/
theorem test_hunt_discards : after (.start .B 1) State.reset (fun t => (t.portB.responses, t.portB.inbound)) =
    some ([], []) := by decide
/-- R153: the sample that reaches the agreement count leaves the count below it, and the edge to be reported. -/
theorem test_filter :
    (({ comparator := true, level := some false, disagree := 1, runStamp := some aStamp } : CaptureInput).sample
      ⟨50005, 3, 2⟩).disagree = 1 ∧
    (({ comparator := true, level := some false, disagree := 1, runStamp := some aStamp } : CaptureInput).sample
      ⟨50005, 3, 2⟩).edge = some aStamp := by decide
/-- R108: an extra tooth that begins at the last count of the crank wraps to the first. -/
theorem test_extra_tooth :
    inExtraTooth (some { kind := .extraTooth, param := .extra 5759 2 }) 5760 0 = true ∧
      inExtraTooth (some { kind := .extraTooth, param := .extra 5759 2 }) 5760 1 = false := by decide
/-- R36: MISS_TOOTH takes the second window away. -/
theorem test_missing_tooth : inWindows 100 (some 1) 0 [⟨0, 48⟩, ⟨96, 144⟩] = false ∧
    inWindows 100 (some 0) 0 [⟨0, 48⟩, ⟨96, 144⟩] = true := by decide
/-- R32: a start that fell off the grid opens its first period at its grid point. -/
theorem test_start_to_come : after (.periodStart 14)
    (withDue [.periodStart 14] ((inMode .run).updChannel 14 fun ch => { ch with live := ⟨2000, 500⟩ }))
    (fun t => (t.channel 14).gen) = some (some ⟨2000, 500, 0, true⟩) := by decide
/-- P0 is one grid point from its period's end, the half-tick instant still to come. -/
def beforeHalf : State := (inMode .run).updChannel 12 fun ch => { ch with gen := some ⟨20, 5, 19, false⟩ }
/-- R32: a request given before an event of the half-tick instant has its starts open at that instant at the latest. -/
theorem test_start_before_half : beforeHalf.startPlace ≤ 1 := by
  have hg : beforeHalf.place = 0 ∧ kindOf 12 = .pulse ∧ gridEvent 12 (beforeHalf.channel 12) ≠ [] := by decide
  have := beforeHalf.startPlace_allowed.2
  rcases this with h | ⟨-, h | ⟨-, -, h⟩⟩
  · omega
  · exact h
  · exact absurd (h 12 hg.2.1) hg.2.2
/-- R32: a start that opens at the next grid point keeps a later request from an earlier one, until that point. -/
theorem test_start_place_kept :
    after (.rigTick []) { inMode .run with place := 1, halfDone := true } (fun t => t.place) = some 0 ∧
      1 ≤ ({ inMode .run with place := 1 } : State).startPlace :=
  ⟨by decide, (State.startPlace_allowed { inMode .run with place := 1 }).1⟩
/-- R28: of two entries for a stopped FREE channel the later one stops it before any period. -/
theorem test_later_entry_wins : after (.liveUpdate .M 1 [⟨14, 0, 500, 2000⟩, ⟨14, 0, 0, 0⟩]) (inMode .run)
    (fun t => ((t.channel 14).gen, (t.channel 14).buffer)) = some (none, none) := by decide
/-- R201: the words of a CLEAR_NOTICES response in the order of its list. -/
theorem test_listed_order : (Body.cleared 5 true).items = [.notices 5, .mark true] := by decide

/-! ## Witnesses: the hypotheses of the statements are met -/

theorem witness_StepRunsFrontCommand :
    ({ linked with pending := [.echo .B 1] } : State).pending = .echo .B 1 :: [] ∧ linked.pending = [] := by
  decide

theorem witness_ExecKeepsQueue : exec .resetLineRelease State.reset = .next State.reset := rfl

theorem witness_CommandsStopOnlyUnframed :
    254 < (List.replicate 255 (⟨0, 1⟩ : WindowWord)).length ∧
      127 < (List.replicate 128 (⟨0, 0, 0, 0⟩ : LiveEntry)).length ∧
      506 < (List.replicate 507 (0 : Half)).length ∧ 255 < (List.replicate 256 (0 : Word)).length := by
  simp only [List.length_replicate]; decide

theorem witness_RequestWordsDecode :
    (Instr.setSpeed .B 7 64001 400).wf = true ∧ (Instr.setSpeed .B 7 64001 400).sender = some (.B, 7) ∧
      encodePayload (.setSpeed .B 7 64001 400) = some (.setSpeed, [64001, 400]) ∧
      (Instr.stepMark .B 7).wf = true ∧ (Instr.stepMark .B 7).sender = some (.B, 7) ∧
      encodePayload (.stepMark .B 7) = some (.stepMark, []) ∧ RequestKind.allowed .stepMark .B = false := by decide

theorem witness_PortChecksInOrder :
    (∀ k : RequestKind, k.code ≠ 0xEE) ∧ RequestKind.allowed .liveUpdate .B = false ∧
      RequestKind.allowed .writeSamples .B = true ∧ RequestKind.fits .writeSamples [0x04000003, 8, 0] = false ∧
      RequestKind.fits .writeSamples [0x04000003, 8, 0, 0] = true := by
  refine ⟨fun k => ?_, ?_⟩
  · cases k <;> decide
  · decide

theorem witness_WordLayouts :
    (255 : Nat) ≤ 255 ∧ (∀ l, (Reply.okay (.count 3)).body ≠ .samples l) ∧
      (∀ l n g, (Reply.okay (.count 3)).body ≠ .captures l n g) ∧ (List.replicate 504 (0 : Half)).length ≤ 504 ∧
      (List.replicate 63 aRecord).length ≤ 63 ∧ (128 : Nat) ≤ 128 ∧
      (⟨50538, 11519, 41⟩ : Stamp).angle ≤ 11519 ∧ (some 16777215 : Option Nat).getD 0 ≤ 16777215 := by
  refine ⟨by decide, fun l h => ?_, fun l n g h => ?_, List.length_replicate.le, List.length_replicate.le, by decide,
    by decide, by decide⟩ <;> simp [Reply.okay] at h

theorem witness_PortRefusals :
    linked.takesNow .M = true ∧ (∀ x : RequestKind, x.code ≠ 0xEE) ∧
      (List.replicate 255 (0 : Word)).length ≤ 255 ∧ linked.takesNow .B = true ∧
      (Instr.stepMark .B 7).sender = some (.B, 7) ∧ encodePayload (.stepMark .B 7) = some (.stepMark, []) ∧
      RequestKind.allowed .stepMark .B = false := by
  refine ⟨by decide, fun x => ?_, by rw [List.length_replicate], by decide⟩
  cases x <;> decide

/-- Port B with its response queue full and `n` requests waiting. -/
def crowded (n : Nat) : State :=
  withB (fun q => { q with responses := List.replicate 8 aResponse, inbound := List.replicate n aPacket }) linked

theorem crowded_waits : (crowded 7).pins.resetLine = false ∧ (crowded 7).portFree .B = false ∧
    ((crowded 7).port .B).link = .synced ∧ ((crowded 7).port .B).inbound.length < 8 := by decide

theorem crowded_complete : (∀ q ∈ ((crowded 7).port .B).inbound, q.complete = true) ∧
    (∀ q ∈ ((crowded 8).port .B).inbound, q.complete = true) ∧ 8 ≤ ((crowded 8).port .B).inbound.length := by decide

/-- A request waits behind a full response queue; it finds the inbound queue full too; its port hunts; its words belong
to a request that is still being received; and it is discarded while the part is held. -/
theorem witness_RequestWaits :
    ((Instr.start .B 7).sender = some (.B, 7) ∧ encodePayload (.start .B 7) = some (.start, [])) ∧
      ({ linked with pins := { resetPins with resetLine := true } } : State).pins.resetLine = true ∧
      ((crowded 7).pins.resetLine = false ∧ (crowded 7).portFree .B = false ∧
        ((crowded 7).port .B).link = .synced ∧ ((crowded 7).port .B).inbound.length < 8) ∧
      (∀ q ∈ ((crowded 7).port .B).inbound, q.complete = true) ∧
      (∀ q ∈ ((crowded 8).port .B).inbound, q.complete = true) ∧ 8 ≤ ((crowded 8).port .B).inbound.length ∧
      (∀ w ∈ ([] : List Word), w ≠ 0xFFFFFFFF) ∧
      (State.reset.pins.resetLine = false ∧ (State.reset.port .B).inbound = [] ∧
        (State.reset.port .B).link = .hunt false) ∧
      ((withB (fun q => { q with inbound := [⟨0x10, 1, 3, [5]⟩] }) linked).port .B).inbound = [⟨0x10, 1, 3, [5]⟩] ∧
      ([5] : List Word).length + 1 + 0 < 3 :=
  ⟨by decide, rfl, crowded_waits, crowded_complete.1, crowded_complete.2.1, crowded_complete.2.2, nofun,
    ⟨rfl, rfl, rfl⟩, rfl, by decide⟩

/-- Two requests wait on a free port; a port takes none where it has none, is not free, or still receives. -/
theorem witness_CompleteRequestIsTaken :
    let s := withB (fun q => { q with inbound := [aPacket, aPacket] }) linked
    (s.port .B).inbound = aPacket :: [aPacket] ∧ aPacket.complete = true ∧ s.portFree .B = true ∧
      (linked.port .B).inbound = [] ∧
      (withB (fun q => { q with responses := List.replicate 8 aResponse }) s).portFree .B = false ∧
      (⟨0x10, 1, 2, [5]⟩ : Packet).complete = false ∧ linked.takesNow .B = true ∧
      aPacket.payload.length = aPacket.need ∧ aPacket.need ≤ 255 ∧ (Instr.start .B 7).wf = true ∧
      (Instr.start .B 7).sender = some (.B, 7) ∧ encodePayload (.start .B 7) = some (.start, []) ∧
      RequestKind.allowed .start .B = true := by decide

/-- Every word's case: held in reset; HUNT with and without an idle word seen; SYNCED with a header and another word;
the last word of a payload and one before it; a full inbound queue behind a transfer; a formed and a reserved
response. -/
theorem witness_PortWordExchanged :
    let full : State := { withB (fun q => { q with
      inbound := List.replicate 8 aPacket, responses := [⟨0x53, 1, none⟩] }) linked with
        moving := some ⟨.B, 1, false, 4, 0, 10, 1, []⟩ }
    ({ linked with pins := { resetPins with resetLine := true } } : State).pins.resetLine = true ∧
      ((State.reset.port .B).inbound = [] ∧ (State.reset.port .B).responses = [] ∧
        (State.reset.port .B).link = .hunt false ∧ State.reset.pins.resetLine = false) ∧
      ((withB (fun q => { q with link := .hunt true }) linked).port .B).link = .hunt true ∧
      (linked.port .B).link = .synced ∧
      (field 0xC3100702 24 8 = 0xC3 ∧ 0 < (field 0xC3100702 0 8).toNat) ∧
      (field 0xC3010700 24 8 = 0xC3 ∧ field 0xC3010700 0 8 = 0 ∧ linked.transferring .B = false) ∧
      (field 0x00C30001 24 8 ≠ 0xC3 ∧ (0x00C30001 : Word) ≠ 0xFFFFFFFF) ∧
      (([] : List Word).length + 1 < 2 ∧ ([5] : List Word).length + 1 = 2) ∧
      (full.pins.resetLine = false ∧ (full.port .B).responses = [⟨0x53, 1, none⟩] ∧ full.transferring .B = true ∧
        (full.port .B).inbound.length = 8 ∧ (∀ q ∈ (full.port .B).inbound, q.complete = true) ∧
        (full.port .B).link = .synced) ∧
      ((withB (fun q => { q with responses := [aResponse, ⟨0x53, 1, none⟩] }) linked).port .B).responses =
        aResponse :: [⟨0x53, 1, none⟩] := by decide

/-- A RESET_RIG header arrives at the last word of a response: behind it a free place, and none until that word goes. -/
theorem witness_PortWordExchanged_reset :
    let s (n : Nat) := withB (fun q => { q with responses := aResponse :: List.replicate n aResponse, sent := 1 }) linked
    ((s 0).pins.resetLine = false ∧ (s 0).transferring .B = false ∧ ((s 0).port .B).inbound = [] ∧
      ((s 0).port .B).link = .synced) ∧
    (aResponse = ⟨0x01, 7, some (.refuse .wrongMode)⟩ ∧
      (responseWords 0x01 7 (.refuse .wrongMode)).length ≤ ((s 7).port .B).sent + 1 ∧
      ((s 7).port .B).responses = aResponse :: List.replicate 7 aResponse ∧ (s 7).transferring .B = false) ∧
    (field 0xC3050700 24 8 = 0xC3 ∧ field 0xC3050700 16 8 = 0x05 ∧ field 0xC3050700 0 8 = 0) := by
  refine ⟨?_, ?_, ?_⟩ <;> decide

/-- A header that arrives behind a transfer, at a queue with one place and at a full one; a full queue at a free port. -/
theorem witness_PortWordExchanged_ready :
    let s (n : Nat) : State := { withB (fun q => { q with inbound := List.replicate n aPacket }) linked with
      moving := some ⟨.B, 1, false, 4, 0, 10, 1, []⟩ }
    let u := withB (fun q => { q with inbound := aPacket :: List.replicate 7 aPacket }) linked
    ((s 7).ready .B = true ∧ (s 8).ready .B = false ∧ (s 8).pins.resetLine = false ∧
      ((s 8).port .B).link = .synced ∧ (s 7).transferring .B = true ∧ (s 8).transferring .B = true ∧
      (∀ q ∈ ((s 8).port .B).inbound, q.complete = true) ∧ field 0xC3100702 24 8 = 0xC3) ∧
    (u.pins.resetLine = false ∧ aPacket.complete = true ∧ u.portFree .B = true ∧
      (List.replicate 7 aPacket).length = 7) := by
  refine ⟨?_, ?_⟩ <;> decide

/-- R194: the status word of the response that is being sent goes out with the RESET_RIG header that resets the part. -/
theorem test_word_survives_reset :
    after (.portWord .B 0xC3050700)
      (withB (fun q => { q with responses := [aResponse], sent := 1 }) (inMode .run))
      (fun t => ((t.port .B).outWord, (t.port .B).responses, t.run.mode)) = some (5, [], .config) := by decide

/-- The line released and asserted; RESET_RIG taken; no transfer, a read and a write in flight. -/
theorem witness_PowerOnAndResetLine :
    let s (w : Bool) : State := { linked with moving := some ⟨.B, 1, w, 4, 0, 10, 1, if w then [5] else []⟩ }
    linked.pins.resetLine = false ∧
      ({ linked with pins := { resetPins with resetLine := true } } : State).pins.resetLine = true ∧
      linked.takesNow .B = true ∧ linked.moving = none ∧
      (s false).moving = some ⟨.B, 1, false, 4, 0, 10, 1, []⟩ ∧
      (s true).moving = some ⟨.B, 1, true, 4, 0, 10, 1, [5]⟩ := by decide

/-- A closed instant in RUN at which everything that a tick touches is at work: C0 is sampled with one sample of
agreement, A2 and A3 are in limit, P0 is one grid point from its period's end, P1 from a start to come and P2 from the
end of its high time, engine 0 waits and engine 1 advances, the deadline expires, record 7 ends and record 8's time
comes, and the SAFE line has disagreed three times. -/
def busy : State :=
  let s := withFault 8 { state := .armed, trigger := .atTime 1 }
    (withFault 7 { state := .active, duration := .time 5, durProgress := 4 } (withSegment 10 1 (inMode .run)))
  let s := (s.updChannel 2 fun ch => { ch with driver := .driving, limitTicks := some 999 }).updChannel 3
    fun ch => { ch with driver := .driving }
  let s := ((s.updChannel 12 fun ch => { ch with gen := some ⟨20, 5, 19, false⟩ }).updChannel 13
    fun ch => { ch with live := ⟨20, 5⟩, wait := 1 }).updChannel 14 fun ch => { ch with gen := some ⟨20, 5, 4, true⟩ }
  let s := (s.updEngine 0 fun g => { g with state := .running, current := some (aDescriptor 0 false) }).updEngine 1
    fun g => { g with state := .running, pacing := .time 1, current := some (aDescriptor 0 false) }
  { s.updInput 0 fun x => { x with
      settings := { enabled := true, agreement := 1 }, comparator := true, level := some false } with
    halfDone := true
    place := 1
    pins := { resetPins with limit := (Vector.replicate 24 false).set 2 true }
    run := { mode := .run, safe := ⟨false, 3⟩, monitor := { enabled := true, state := .onTime, timer := some 1 } } }

theorem witness_TickAdvancesTimeAndPhase :
    busy.pins.resetLine = false ∧ busy.due = [] ∧ busy.halfDone = true ∧ busy.examineDue = false ∧
      busy.run.mode = .run ∧
      ((∀ k c a, (busy.fault k).state = .armed → (busy.fault k).trigger ≠ .atAngle c a) ∧
        ∀ n, (busy.engine n).state = .running → (busy.engine n).pacing.isAngle = false) ∧
      (inMode .config).run.mode = .config ∧ (inMode .config).pins.resetLine = false ∧
      (0xFFFFFFFF : BitVec 32).toNat + increment 0 < 2 ^ 32 ∧
      2 ^ 32 ≤ (0xFFFFFFFF : BitVec 32).toNat + increment 1 := by
  refine ⟨by decide, by decide, by decide, by decide, by decide, ⟨fun k c a h => ?_, by decide⟩, by decide⟩
  have hk : ∀ k, (busy.fault k).state = .armed → (busy.fault k).trigger = .atTime 1 := by decide
  rw [hk k h]
  exact nofun

/-- What the tick of `busy` leaves due, in the order in which the model notes it. -/
theorem test_tick_notes : after (.rigTick []) busy (fun t => t.due) =
    some [.replayAdvance 1, .durationEnd 7, .atTime 8, .captureReport 0, .periodStart 12, .periodStart 13, .highEnd 14,
      .driverTrip 2, .deadline, .safeLine] := by decide

/-- After a tick with the half-tick instant to come, P0 is one half-microsecond from its period's end and P2 from the end
of its high time; and the two events due. -/
def betweenTicks (l : List Event) : State :=
  withDue l { ((inMode .run).updChannel 12 fun ch => { ch with gen := some ⟨20, 5, 19, false⟩ }).updChannel 14
    fun ch => { ch with gen := some ⟨20, 5, 4, true⟩ } with halfDone := false }

theorem witness_TickAdvancesTimeAndPhase_half :
    ((betweenTicks []).pins.resetLine = false ∧ (betweenTicks []).due = [] ∧ (betweenTicks []).halfDone = false ∧
      (betweenTicks []).examineDue = false) ∧
    (let s := betweenTicks [.periodStart 12, .highEnd 14];
      s.pins.resetLine = false ∧ s.examineDue = false ∧ s.due = .periodStart 12 :: [.highEnd 14] ∧
        ([.highEnd 14] : List Event).length < 16) := by
  refine ⟨by decide, by decide⟩

/-- R32: the half-tick instant before a tick counts one half-microsecond, and the tick another. -/
theorem test_half_tick_counts :
    after (.rigTick []) (betweenTicks []) (fun t => (t.channel 12).gen.map Generator.elapsed) = some none ∧
    after (.rigTick []) (betweenTicks []) (fun t => (t.channel 14).gen) = some (some ⟨20, 5, 6, false⟩) := by decide

/-- R32: PERIOD_START and PULSE_HIGH_END before the half-tick instant that brings them; one that it does not bring. -/
theorem witness_FreePeriodEvents_half :
    (betweenTicks []).due = [] ∧ (betweenTicks []).halfDone = false ∧
      after (.pulseHighEnd 14) (betweenTicks []) (fun t => ((t.channel 14).gen, t.halfDone, t.due)) =
        some (some ⟨20, 5, 5, false⟩, true, [.periodStart 12]) ∧
      after (.pulseHighEnd 12) (betweenTicks []) (fun t => t.halfDone) = some false ∧
      ({ betweenTicks [] with halfDone := true } : State).halfDone = true := by decide

theorem witness_AngleCountAndIncrement :
    (11519 : Nat) ≤ 11519 ∧ (64000 : Nat) ≤ 64000 ∧ angleCount 372827 = 0 ∧ angleCount 372828 = 1 ∧
      angleAdvance (angleCount 300000) (angleCount (300000 + BitVec.ofNat 32 (increment 64000))) = 2 ∧
      angleAdvance (angleCount 0xFFFFFFFF) (angleCount (0xFFFFFFFF + BitVec.ofNat 32 (increment 64000))) = 2 := by
  decide

theorem witness_MillisecondRamps :
    let s (m : Mode) := withDue [.millisecond] ((inMode m).updEngine 2 fun g =>
      { g with state := .running, target := .speed, current := some (aDescriptor 0 false) })
    Event.millisecond ∈ (s .run).due ∧ (∀ n, Event.replayAdvance n ∉ (s .run).due) ∧ (s .run).examineDue = false ∧
      (s .config).run.mode = .config ∧ (s .safe).run.mode = .safe ∧ (s .run).run.monitor.state ≠ .late ∧
      ((s .run).engine 2).target = .speed ∧ ((s .run).engine 2).state = .running ∧
      ((s .run).engine 2).awaiting = false ∧ ((s .run).engine 2).current = some (aDescriptor 0 false) ∧
      ((s .run).engine 1).target = .analog 0 ∧ ((s .run).engine 1).current = none ∧
      ({ s .run with angle := { source := .replay 2 } } : State).angle.source = .replay 2 := by decide

theorem witness_SetSpeedSetsTarget :
    (inMode .run).takesNow .M = true ∧ (inMode .run).takesNow .B = true ∧ (inMode .run).angle.source = .model ∧
      (inMode .safe).run.mode = .safe ∧
      ({ inMode .run with angle := { source := .bench } } : State).takesNow .B = true := by decide

theorem witness_AngleBaseSettings :
    linked.takesNow .B = true ∧ (8 : Byte).toNat ≠ 0 ∧ (∀ n : Fin 4, (8 : Byte).toNat ≠ 4 + n.1) ∧
      (7 : Byte).toNat = 4 + (3 : Fin 4).1 ∧ (List.replicate 120 (⟨0, 1⟩ : WindowWord)).length ≤ 254 ∧
      Pattern.crank.most < (List.replicate 121 (⟨0, 1⟩ : WindowWord)).length ∧
      windowsGood .crank (windowsOf [⟨0, 48⟩, ⟨49, 5760⟩]) = true ∧
      windowsGood .crank (windowsOf [⟨0, 48⟩, ⟨48, 96⟩]) = false ∧ 2 < (3 : Byte).toNat := by
  refine ⟨by decide, by decide, by decide, by decide, by simp, ?_, by decide⟩
  simp [Pattern.most]

theorem witness_ReadsAnswerState :
    linked.takesNow .M = true ∧ linked.takesNow .B = true ∧ 24 ≤ (24 : Byte).toNat ∧
      (23 : Byte).toNat = (23 : Fin 24).1 ∧ (63 : Byte).toNat = (63 : Fin 64).1 ∧ (31 : Byte).toNat = (31 : Fin 32).1 ∧
      (3 : Byte).toNat = (3 : Fin 4).1 ∧ (15 : Byte).toNat = (15 : Fin 16).1 ∧ 2 < (3 : Byte).toNat := by decide

/-- Engine 1 plays the last sample of its descriptor into A7. -/
def playing : State :=
  withDue [.refresh] ((withSegment 10 1 (inMode .run)).updEngine 1 fun g =>
    { g with state := .running, target := .analog 7, current := some (aDescriptor 0 false), k := 1 })

theorem witness_RefreshComputesOutputs :
    Event.refresh ∈ playing.due ∧ (∀ n, Event.replayAdvance n ∉ playing.due) ∧ playing.examineDue = false ∧
      (playing.engine 1).target = .analog 7 ∧ (playing.engine 1).state = .running ∧
      (playing.engine 1).awaiting = false ∧ (playing.engine 1).current = some (aDescriptor 0 false) ∧
      (playing.engine 0).state ≠ .running ∧ (7 : Fin 12).1 = (7 : Fin 24).1 ∧
      (∀ m < 1, ∀ b, (playing.engine m).target = .analog b → b.1 ≠ (7 : Fin 24).1) ∧
      (∀ n a, (playing.engine n).target = .analog a → a.1 ≠ (8 : Fin 24).1) ∧ kindOf 11 = .analog ∧
      kindOf 12 = .pulse ∧ kindOf 20 = .switch := by decide

/-- P0 misses its tooth 20. -/
def missing : State :=
  withFault 3 { state := .active, kind := .missTooth, target := 12, param := .int 20 } State.reset

theorem missing_effective : missing.effective 12 = some 3 := by decide

theorem reset_effective : State.reset.effective 12 = none := by decide

theorem witness_OverlaysAndNoise :
    ({ kind := .noise, param := .int 4000 } : FaultRecord).param = .int ((4000 : Nat) : Int) ∧
      ({ kind := .freeze, frozen := some 1 } : FaultRecord).frozen = some 1 ∧
      ({ kind := .stuckAt, param := .int 1 } : FaultRecord).param = .int 1 ∧
      ({ kind := .gain } : FaultRecord).kind ≠ .stuckAt ∧ (0xACE1 : Half) ≠ 0 ∧ State.reset.effective 12 = none ∧
      missing.effective 12 = some 3 ∧
      (∀ f, (none : Option FaultRecord) = some f → f.kind ≠ .extraTooth) ∧
      ({ kind := .extraTooth, param := .extra 5759 720 } : FaultRecord).param = .extra 5759 720 ∧
      (5759 : Nat) < 5760 ∧ (720 : Nat) ≤ 5760 := by
  refine ⟨rfl, rfl, rfl, by decide, by decide, reset_effective, missing_effective,
    fun f h => absurd h.symm (Option.some_ne_none f), rfl, by decide, by decide⟩

theorem witness_EffectiveRecordIsHighest :
    (withFault 32 { state := .active, kind := .stuckAt, target := 5, level := 5 }
      (withFault 33 { state := .active, kind := .gain, target := 5, level := 5 } linked)).effective 5 = some 32 := by
  decide

/-- A bad entry; a good list; P0 stopped in CONFIG and in RUN, running, and with a start to come. -/
theorem witness_LiveUpdateApplies :
    let g : List GoodEntry := [(23, true, ⟨1, 0⟩), (12, false, ⟨16777215, 500⟩)]
    linked.takesNow .M = true ∧ judgeEntry ⟨24, 0, 0, 0⟩ = none ∧
      [(⟨23, 1, 0, 1⟩ : LiveEntry), ⟨12, 0, 500, 16777215⟩].map judgeEntry = g.map some ∧
      (linked.channel 12).gen = none ∧ linked.run.mode ≠ .run ∧ (inMode .run).run.mode = .run ∧
      kindOf 12 = .pulse ∧ ((inMode .run).channel 12).mode = .free ∧ ((inMode .run).channel 12).source = .live ∧
      ((inMode .run).channel 12).wait = 0 ∧ (16777215 : Int) ≠ 0 ∧ (g.any fun x => x.1 == 12 && !x.2.1) = true ∧
      (((inMode .run).updChannel 12 fun ch => { ch with wait := 2 }).channel 12).wait = 2 ∧
      (inMode .run).mayOpenAt 0 ∧ (inMode .run).mayOpenAt 1 ∧ (inMode .run).mayOpenAt 2 ∧
      (((inMode .run).updChannel 12 fun ch => { ch with gen := some ⟨20, 0, 0, false⟩ }).channel 12).gen.isSome =
        true := by decide

theorem witness_StepMarkCopiesAndMarks :
    let s (m : MonitorState) : State :=
      ({ inMode .run with run := { mode := .run, monitor := { state := m } } }).updChannel 1 fun ch =>
        { ch with slot := some ⟨2000, 0⟩ }
    (s .late).takesNow .M = true ∧ (s .late).run.monitor.state = .late ∧ (s .lost).run.monitor.state = .lost ∧
      (s .late).run.mode = .run ∧ ((s .late).channel 1).slot = some ⟨2000, 0⟩ ∧ (inMode .safe).run.mode ≠ .run := by
  decide

/-- P0 with a staged pair: stopped in RUN, running, with a start to come, and with a period of 0. -/
theorem witness_StepMarkCopiesAndMarks_pulse :
    let s (v : Value) (f : Channel → Channel) : State :=
      (inMode .run).updChannel 12 fun ch => f { ch with slot := some v }
    (s ⟨30, 9⟩ id).takesNow .M = true ∧ ((s ⟨30, 9⟩ id).channel 12).slot = some ⟨30, 9⟩ ∧ kindOf 12 = .pulse ∧
      ((s ⟨30, 9⟩ id).channel 12).mode = .free ∧ ((s ⟨30, 9⟩ id).channel 12).source = .live ∧
      ((s ⟨30, 9⟩ id).channel 12).gen = none ∧ ((s ⟨30, 9⟩ id).channel 12).wait = 0 ∧ (30 : Int) ≠ 0 ∧
      (s ⟨30, 9⟩ id).run.mode = .run ∧ (s ⟨30, 9⟩ id).mayOpenAt 0 ∧ (s ⟨30, 9⟩ id).mayOpenAt 2 ∧
      ((s ⟨0, 9⟩ id).channel 12).slot = some ⟨0, 9⟩ ∧
      ((s ⟨30, 9⟩ fun ch => { ch with wait := 1 }).channel 12).wait = 1 ∧
      ((s ⟨30, 9⟩ fun ch => { ch with gen := some ⟨20, 0, 0, false⟩ }).channel 12).gen.isSome = true := by decide

theorem witness_SetChannelWritesFields :
    let armed := withFault 2 { state := .armed, kind := .noise, target := 12 } linked
    linked.takesNow .B = true ∧ 24 ≤ (24 : Byte).toNat ∧ (12 : Byte).toNat = (12 : Fin 24).1 ∧
      fieldsBad .pulse { pattern := some 3 } = true ∧ fieldsBad .pulse { wheel := some true } = false ∧
      (inMode .run).run.mode ≠ .config ∧ (armed.fault 2).state = .armed ∧ (armed.fault 2).target = 12 ∧
      (∀ k, ¬((linked.fault k).state = .armed ∧ (linked.fault k).kind.electronic = true ∧
        (linked.fault k).target = 12)) ∧ fieldsBad .analog { offset := some 0 } = true ∧
      fieldsBad .switch { safe := some 1 } = false := by decide

/-- A new source on P0: running, stopped in RUN with a forced period that is not 0 and one that is, in WHEEL; and a new
polarity on a pin that a FREEZE holds and on one that none does. -/
theorem witness_SetChannelWritesFields_pulse :
    let g : ChannelArgs := { source := some 1 }
    let s (f : Channel → Channel) : State := (inMode .run).updChannel 12 fun ch => f { ch with forced := ⟨30, 9⟩ }
    (s id).takesNow .B = true ∧ fieldsBad (kindOf 12) g = false ∧ g.wheel = none ∧ g.pattern = none ∧
      ((s id).channel 12).source = .live ∧ ((s id).channel 12).mode = .free ∧ ((s id).channel 12).gen = none ∧
      ((s id).channel 12).wait = 0 ∧ (s id).run.mode = .run ∧ ((s id).channel 12).forced.value ≠ 0 ∧
      (s id).mayOpenAt 1 ∧
      ((s fun ch => { ch with gen := some ⟨20, 0, 0, false⟩ }).channel 12).gen.isSome = true ∧
      ((s fun ch => { ch with forced := ⟨0, 9⟩ }).channel 12).forced.value = 0 ∧
      ((s fun ch => { ch with mode := .wheel }).channel 12).mode = .wheel ∧
      ((s fun ch => { ch with pinHeld := true }).channel 12).pinHeld = true ∧ ((s id).channel 12).pinHeld = false ∧
      fieldsBad (kindOf 12) { inverted := some true } = false ∧ ((s id).channel 12).inverted = false ∧
      (inMode .config).run.mode = .config ∧
      (∀ k, ¬(((inMode .config).fault k).state = .armed ∧ ((inMode .config).fault k).kind.electronic = true ∧
        ((inMode .config).fault k).target = 12)) ∧ fieldsBad (kindOf 12) { wheel := some false } = false := by decide

/-- R44: the pin moves with the polarity, but not where a FREEZE holds it. -/
theorem test_polarity_moves_pin :
    let s (h : Bool) := (inMode .run).updChannel 12 fun ch => { ch with pinHeld := h }
    after (.setChannel .B 1 12 { inverted := some true }) (s false) (fun t => (t.channel 12).pin) = some 1 ∧
      after (.setChannel .B 1 12 { inverted := some true }) (s true) (fun t => (t.channel 12).pin) = some 0 := by decide

/-- A channel whose source is FORCED; a pulse channel runs with the pair (30, 10). -/
def forcing (c : Fin 24) (m : PulseMode) : State :=
  (inMode .run).updChannel c fun ch =>
    { ch with source := .forced, mode := m, gen := if m = .free then some ⟨30, 10, 3, true⟩ else none }

theorem witness_ForceShowsOutputs :
    (forcing 3 .wheel).takesNow .B = true ∧ 24 ≤ (24 : BitVec 6).toNat ∧ (3 : BitVec 6).toNat = (3 : Fin 24).1 ∧
      valueGood (kindOf 3) (4001 : Word).toInt = true ∧ ((forcing 3 .wheel).channel 3).source = .forced ∧
      (forcing 3 .wheel).effective 3 = none ∧ valueGood .pulse (16777215 : Word).toInt = true ∧
      (16777215 : Int) < (16777216 : Word).toInt ∧ kindOf 20 = .switch ∧ (2 : Word).toInt ≠ 0 ∧ (2 : Word).toInt ≠ 1 ∧
      ((forcing 12 .free).channel 12).gen = some ⟨30, 10, 3, true⟩ ∧ (forcing 12 .free).effective 12 = none ∧
      ((forcing 12 .wheel).channel 12).mode = .wheel ∧ (linked.channel 3).source ≠ .forced := by decide

/-- Under an overlay: GAIN, and NOISE with a draw and without one; a FREE channel under OFFSET, stopped in RUN, stopped
with a start to come, and halted in SAFE. -/
theorem witness_ForceShowsOutputs_overlay :
    let s (kind : FaultKind) (d : Bool) : State :=
      withFault 7 { state := .active, kind := kind, target := 3, level := 1, param := .int 5 }
        ((forcing 3 .wheel).updChannel 3 fun ch => { ch with drawn := d })
    let p (m : Mode) (w : Nat) : State :=
      withFault 7 { state := .active, kind := .offset, target := 12, level := 1, param := .int (-5) }
        ((inMode m).updChannel 12 fun ch => { ch with source := .forced, wait := w })
    ((s .gain false).takesNow .B = true ∧ ((s .gain false).effectiveRecord 3).map FaultRecord.kind = some .gain ∧
      ((s .noise false).effectiveRecord 3).map FaultRecord.kind = some .noise ∧
      ((s .noise false).channel 3).drawn = false ∧ ((s .noise true).channel 3).drawn = true ∧ kindOf 3 ≠ .pulse) ∧
      ((p .run 0).takesNow .B = true ∧ (p .safe 0).takesNow .B = true ∧
        ((p .run 0).effectiveRecord 12).map FaultRecord.kind = some .offset ∧
        ((p .run 0).channel 12).source = .forced ∧ ((p .run 0).channel 12).mode = .free ∧
        ((p .run 0).channel 12).gen = none ∧ ((p .run 0).channel 12).wait = 0 ∧ ((p .run 1).channel 12).wait = 1 ∧
        (p .run 0).run.mode = .run ∧ (p .safe 0).run.mode ≠ .run ∧ (30 : Word).toInt ≠ 0 ∧ (0 : Word).toInt = 0 ∧
        (p .run 0).mayOpenAt 0 ∧ (p .run 0).mayOpenAt 2) := by
  refine ⟨?_, ?_⟩ <;> decide

/-- R31: a stopped FREE channel under OFFSET -5 shows stopped, and the pair (25, 9) that opens. -/
theorem test_force_stopped :
    let s : State := withFault 7 { state := .active, kind := .offset, target := 12, level := 1, param := .int (-5) }
      ((inMode .safe).updChannel 12 fun ch => { ch with source := .forced })
    (after (.force .B 1 12 9 30) s (replyOf .B)) =
      some (some (.okay (.forced .stopped (.pair 25 9) false))) := by decide

/-- P0's period has elapsed, P1's high time has, and P2's start to come has come, with periods 0 and not. -/
theorem witness_FreePeriodEvents :
    let s (v : Int) := withDue [.periodStart 12, .highEnd 13, .periodStart 14] ((((inMode .run).updChannel 12 fun ch =>
      { ch with gen := some ⟨20, 0, 20, false⟩, live := ⟨v, 7⟩ }).updChannel 13 fun ch =>
        { ch with gen := some ⟨20, 19, 19, true⟩ }).updChannel 14 fun ch => { ch with live := ⟨v, 7⟩ })
    Event.periodStart 12 ∈ (s 0).due ∧ (s 0).examineDue = false ∧
      ((s 0).channel 12).gen = some ⟨20, 0, 20, false⟩ ∧ ((s 0).channel 12).mode = .free ∧
      ((s 0).channel 12).source ≠ .replay ∧ ((s 0).channel 12).live.value = 0 ∧ ((s 1).channel 12).live.value ≠ 0 ∧
      (s 0).effective 12 = none ∧
      Event.highEnd 13 ∈ (s 0).due ∧ ((s 0).channel 13).gen = some ⟨20, 19, 19, true⟩ ∧ (s 0).effective 13 = none ∧
      Event.periodStart 14 ∈ (s 0).due ∧ (s 0).run.mode = .run ∧ ((s 0).channel 14).gen = none ∧
      ((s 0).channel 14).wait = 0 ∧ kindOf 14 = .pulse ∧ ((s 0).channel 14).source ≠ .replay ∧
      ((s 0).channel 14).live.value = 0 ∧ ((s 1).channel 14).live.value ≠ 0 := by decide

theorem witness_DriverTrips :
    let s := withDue [.driverTrip 2] ((inMode .run).updChannel 2 fun ch =>
      { ch with driver := .driving, limitTicks := some 1000 })
    Event.driverTrip 2 ∈ s.due ∧ s.examineDue = false ∧ (s.channel 2).driver = .driving ∧
      (s.relaySet 2).inService = true ∧ (s.channel 2).limitTicks = some 1000 ∧ Event.driverTrip 3 ∉ s.due := by decide

theorem witness_RelayTimingIsSet :
    linked.takesNow .B = true ∧ (0 : Byte).toNat < 1 ∧ 4 < (5 : Byte).toNat ∧ (4 : Byte).toNat < 5 ∧
      50 < (51 : Byte).toNat ∧ 1 ≤ (1 : Byte).toNat ∧ (50 : Byte).toNat ≤ 50 ∧
      ({ state := .closed, failed := true } : Relay).state.moving = false ∧
      ({ state := .closed } : Relay).state = Position.closed.rest := by decide

/-- A relay that moves toward a position, `n` ticks after its command. -/
def turning (pos : Position) (n : Nat) : Relay := { state := pos.moving, movement := some ⟨n, 3, 20⟩ }

/-- RUN with the relay set of A2, what its contacts show, record 5 and the events due. -/
def onA2 (x : RelaySet) (made : PerRelay Bool) (f : FaultRecord) (l : List Event) : State :=
  withDue l (withFault 5 f ({ inMode .run with
    pins := { resetPins with sense := (Vector.replicate 24 normalSense).set 2 made } }.updRelaySet 2 fun _ => x))

/-- A2 breaks in its normalisation, GND moving for `n` ticks. -/
def breaking (path : Relay) (n : Nat) (bat : Relay) (made : Bool) (e : Event) : State :=
  onA2 { relays := { normalRelays with path := path, gnd := turning .opened n, bat := bat }, normalising := some .breaking }
    { normalSense with path := false, gnd := made } {} [e]

/-- A2 joins in its normalisation, held by `holder`. -/
def joiningA2 (n : Nat) (made : Bool) (holder : Option (Fin 64)) (e : Event) : State :=
  onA2 { relays := { normalRelays with path := turning .closed n }, normalising := some .joining, holder := holder }
    { normalSense with path := made } { state := .failed, target := 2 } [e]

/-- The first clause, and the breaking step: BAT still moves, or GND is the last and completes or fails. -/
theorem witness_MovementsEnd :
    ((turning .closed 3000).movement = some ⟨3000, 3, 20⟩ ∧ (turning .closed 3000).state.moving = true) ∧
      (let s := breaking { state := .opened } 3000 (turning .opened 10) false (.moveComplete 2 .gnd);
      s.examineDue = false ∧ Event.moveComplete 2 .gnd ∈ s.due ∧
        ((s.relaySet 2).relays.get .gnd).completes ((s.pins.sense.get 2).get .gnd) = true ∧
        (s.relaySet 2).normalising = some .breaking ∧ ((s.relaySet 2).relays.get .bat).state.moving = true) ∧
      (let s := breaking { state := .opened } 20000 { state := .opened } true (.moveFail 2 .gnd);
      Event.moveFail 2 .gnd ∈ s.due ∧ ((s.relaySet 2).relays.get .gnd).fails ((s.pins.sense.get 2).get .gnd) = true ∧
        ((s.relaySet 2).relays.get .gnd).state = .movingOpen ∧ (s.relaySet 2).holder = none) ∧
      (let s (path : Relay) := breaking path 3000 { state := .opened } false (.moveComplete 2 .gnd);
      (((s { state := .closed }).relaySet 2).relays.get .gnd).completes
          (((s { state := .closed }).pins.sense.get 2).get .gnd) = true ∧
        ((s { state := .closed }).relaySet 2).relays.path.state = .closed ∧
        ((s { state := .closed }).relaySet 2).relays.path.failed = false ∧
        ((s { state := .opened }).relaySet 2).relays.path.state = .opened) ∧
      ∀ r, r ≠ .path → r ≠ .gnd →
        ((breaking { state := .opened } 3000 { state := .opened } false (.moveComplete 2 .gnd)).relaySet 2).relays.get r =
          { state := .opened } := by
  refine ⟨by decide, by decide, by decide, by decide, fun r => ?_⟩
  cases r <;> decide

/-- The joining step: it completes or fails with no holder, and completes with a FAILED record that holds the channel. -/
theorem witness_MovementsEnd_joining :
    (let s := joiningA2 3000 true none (.moveComplete 2 .path);
      Event.moveComplete 2 .path ∈ s.due ∧ (s.relaySet 2).normalising = some .joining ∧
        (s.relaySet 2).relays.path.state = .movingClosed ∧ (s.relaySet 2).holder = none ∧
        ((s.relaySet 2).relays.get .path).completes ((s.pins.sense.get 2).get .path) = true) ∧
      (let s := joiningA2 20000 false none (.moveFail 2 .path);
      Event.moveFail 2 .path ∈ s.due ∧
        ((s.relaySet 2).relays.get .path).fails ((s.pins.sense.get 2).get .path) = true) ∧
      (let s := joiningA2 3000 true (some 5) (.moveComplete 2 .path);
      (s.relaySet 2).holder = some 5 ∧ (∀ d, d ≠ 2 → (s.relaySet d).holder ≠ some 5) ∧
        ((s.relaySet 2).relays.get .path).completes ((s.pins.sense.get 2).get .path) = true) := by
  refine ⟨by decide, by decide, by decide⟩

/-- A FAILED record holds A2: its joining step fails; its breaking step ends with PATH closed; and A3, which it holds
too, still normalises. -/
theorem witness_MovementsEnd_held :
    (let s := joiningA2 20000 false (some 5) (.moveFail 2 .path);
      (s.relaySet 2).holder = some 5 ∧ Event.moveFail 2 .path ∈ s.due ∧
        ((s.relaySet 2).relays.get .path).fails ((s.pins.sense.get 2).get .path) = true ∧
        ∀ d, d ≠ 2 → (s.relaySet d).holder ≠ some 5) ∧
      (let s := (breaking { state := .closed } 3000 { state := .opened } false (.moveComplete 2 .gnd)).updRelaySet 2 fun x =>
        { x with holder := some 5 };
      (s.relaySet 2).holder = some 5 ∧ (s.relaySet 2).relays.path = { state := .closed } ∧
        (s.relaySet 2).normalising = some .breaking ∧ Event.moveComplete 2 .gnd ∈ s.due ∧
        ∀ r ∈ [RelayName.bat, .x0, .x1], ((s.relaySet 2).relays.get r).state.moving = false ∧
          ((s.relaySet 2).relays.get r).failed = false) ∧
      (let s := (joiningA2 3000 true (some 5) (.moveComplete 2 .path)).updRelaySet 3 fun x =>
        { x with holder := some 5, normalising := some .breaking };
      (s.relaySet 3).holder = some 5 ∧ (s.relaySet 3).normalising ≠ none ∧ s.examineDue = false) := by
  refine ⟨by decide, by decide, by decide⟩

/-- R53 and R58: the failed normalisation leaves A2 out of service and lets the record go, but not while A3, which the
record holds too, normalises. -/
theorem test_failed_normalisation_lets_go :
    after (.movementFail 2 .path) (joiningA2 20000 false (some 5) (.moveFail 2 .path))
      (fun t => ((t.relaySet 2).inService, (t.relaySet 2).holder, t.portB.sticky.getLsbD 3)) = some (false, none, true) ∧
    after (.movementComplete 2 .path) ((joiningA2 3000 true (some 5) (.moveComplete 2 .path)).updRelaySet 3 fun x =>
      { x with holder := some 5, normalising := some .breaking })
      (fun t => ((t.relaySet 2).normalising, (t.relaySet 2).holder)) = some (none, some 5) := by decide

/-- A2, held by record 5, opens its PATH in a start sequence, the settle time or the timeout just over. -/
def starting (kind : FaultKind) (n : Nat) (made : Bool) (e : Event) : State :=
  onA2 { relays := { normalRelays with path := turning .opened n }, holder := some 5 } { normalSense with path := made }
    { state := .starting, kind := kind, target := 2, seq := some ⟨false, 0⟩ } [e]

/-- The first step of a short completes, the stop of an OPEN record completes, and the start of one fails. -/
theorem witness_MovementsEnd_sequences :
    (let s (kind : FaultKind) := starting kind 3000 false (.moveComplete 2 .path);
      Event.moveComplete 2 .path ∈ (s .shortGnd).due ∧ (s .shortGnd).examineDue = false ∧
        ((s .shortGnd).relaySet 2).normalising = none ∧ ((s .shortGnd).relaySet 2).holder = some 5 ∧
        ((s .shortGnd).fault 5).target = 2 ∧ ((s .shortGnd).fault 5).seq = some ⟨false, 0⟩ ∧
        ((s .shortGnd).relaySet 2).relays.path.completes ((s .shortGnd).pins.sense.get 2).path = true ∧
        ((s .shortGnd).relaySet 2).relays.gnd.state = .opened ∧ ((s .shortBat).fault 5).kind = .shortBat ∧
        ((s .shortBat).relaySet 2).relays.bat.state = .opened) ∧
      (let s := onA2 { relays := { normalRelays with path := turning .closed 3000 }, holder := some 5 } normalSense
        { state := .stopping, target := 2, seq := some ⟨true, 0⟩ } [.moveComplete 2 .path];
      (s.fault 5).kind = .openWire ∧ (s.fault 5).state = .stopping ∧ (s.fault 5).seq = some ⟨true, 0⟩ ∧
        s.listeners 5 .stop = [] ∧ (s.fault 5).repeats = 0 ∧ s.waitList = [] ∧
        (s.relaySet 2).relays.path.completes (s.pins.sense.get 2).path = true ∧
        (s.relaySet 2).relays.path.state = .movingClosed) ∧
      (let s := starting .openWire 20000 true (.moveFail 2 .path);
      Event.moveFail 2 .path ∈ s.due ∧ (s.relaySet 2).relays.path.fails (s.pins.sense.get 2).path = true ∧
        (s.relaySet 2).relays.path.state = .movingOpen ∧ (∀ d, d ≠ 2 → (s.relaySet d).holder ≠ some 5)) ∧
      ∀ r, r ≠ .path → ((starting .openWire 20000 true (.moveFail 2 .path)).relaySet 2).relays.get r =
        { state := .opened } := by
  refine ⟨by decide, by decide, by decide, fun r => ?_⟩
  cases r <;> decide

/-- The last movement of record 5's start on A2 has come to its sense line; record 6 listens for its START event. -/
def startEnding (kind : FaultKind) (pending : Bool) (listens : Bool) : State :=
  let open2 : PerRelay Relay := { normalRelays with path := { state := .opened } }
  let x : PerRelay Relay := if kind = .shortGnd then { open2 with gnd := turning .closed 3000 }
    else if kind = .shortBat then { open2 with bat := turning .closed 3000 }
    else { normalRelays with path := turning .opened 3000 }
  let n : RelayName := if kind = .shortGnd then .gnd else if kind = .shortBat then .bat else .path
  withFault 6 { state := .armed, kind := .stuckAt, target := 4, trigger := .onFault (if listens then 5 else 9) .start }
    (onA2 { relays := x, holder := some 5 } ⟨false, kind == .shortGnd, kind == .shortBat, false, false⟩
      { state := .starting, kind := kind, target := 2, releasePending := pending,
        seq := some ⟨false, if kind = .openWire then 0 else 1⟩ } [.moveComplete 2 n])

/-- The last movement of an OPEN, a SHORT_GND and a SHORT_BAT start completes, with and without a release pending. -/
theorem witness_MovementsEnd_startEnds :
    let s := startEnding
    (∀ kind ∈ [FaultKind.openWire, .shortGnd, .shortBat], (s kind true false).examineDue = false ∧
      ((s kind true false).relaySet 2).normalising = none ∧ ((s kind true false).relaySet 2).holder = some 5 ∧
      ((s kind true false).fault 5).target = 2 ∧ ((s kind true false).fault 5).state = .starting ∧
      ((s kind true false).fault 5).kind = kind ∧ (s kind true false).listeners 5 .start = [] ∧
      ((s kind true false).fault 5).releasePending = true ∧ ((s kind false false).fault 5).releasePending = false) ∧
    (∀ x ∈ [(FaultKind.openWire, RelayName.path, Position.opened, 0), (.shortGnd, .gnd, .closed, 1),
        (.shortBat, .bat, .closed, 1)], ((s x.1 false true).fault 5).seq = some ⟨false, x.2.2.2⟩ ∧
      Event.moveComplete 2 x.2.1 ∈ (s x.1 false true).due ∧
      (((s x.1 false true).relaySet 2).relays.get x.2.1).completes
        (((s x.1 false true).pins.sense.get 2).get x.2.1) = true ∧
      (((s x.1 false true).relaySet 2).relays.get x.2.1).state = x.2.2.1.moving ∧
      (s x.1 false true).run.mode = .run ∧ ((s x.1 false true).fault 6).state = .armed ∧
      ((s x.1 false true).fault 6).trigger = .onFault 5 .start ∧
      ∀ j, ((s x.1 false true).fault j).state = .armed → ((s x.1 false true).fault j).kind.electronic = true) := by
  decide

/-- R54, R94, R99: at the end of its start the record is ACTIVE, its listener fires, and a pending release stops it. -/
theorem test_start_ends :
    after (.movementComplete 2 .gnd) (startEnding .shortGnd false true) (fun t => [(t.fault 5).state, (t.fault 6).state]) =
      some [.active, .active] ∧
    after (.movementComplete 2 .gnd) (startEnding .shortGnd true false)
      (fun t => ((t.fault 5).state, ((t.relaySet 2).relays.get .gnd).state)) = some (.stopping, .movingOpen) := by
  decide

/-- Record 5 shorts A2 to A3 over X0: A3's PATH opens in the first step, A2's X0 and A3's X0 move in the second. -/
def crossing (second : Bool) : State :=
  let x2 : RelaySet :=
    { relays := { normalRelays with x0 := if second then turning .closed 3000 else { state := .opened } },
      holder := some 5 }
  let x3 : RelaySet :=
    { relays := { normalRelays with
        path := if second then { state := .opened } else turning .opened 3000
        x0 := if second then turning .closed 3000 else { state := .opened } },
      holder := some 5 }
  let f : FaultRecord :=
    { state := .starting, kind := .pinShort, target := 2, partner := some 3, bus := some .x0,
      seq := some ⟨false, if second then 1 else 0⟩ }
  let a2 : PerRelay Bool := { normalSense with x0 := second }
  { (onA2 x2 normalSense f [if second then .moveComplete 2 .x0 else .moveComplete 3 .path]).updRelaySet 3
      fun _ => x3 with
    buses := { x0 := some 5 }
    pins := { resetPins with sense := (Vector.replicate 24 { normalSense with path := false }).set 2 a2 } }

/-- The first step of a PIN_SHORT completes; of the second step one relay completes while the other moves. -/
theorem witness_MovementsEnd_pinShort :
    (let s := crossing false;
      s.examineDue = false ∧ (s.fault 5).kind = .pinShort ∧ (s.fault 5).target = 2 ∧ (s.fault 5).partner = some 3 ∧
        (s.fault 5).bus = some .x0 ∧ (s.relaySet 2).normalising = none ∧ (s.relaySet 3).normalising = none ∧
        (s.relaySet 2).holder = some 5 ∧ (s.relaySet 3).holder = some 5 ∧ (s.fault 5).seq = some ⟨false, 0⟩ ∧
        Event.moveComplete 3 .path ∈ s.due ∧
        (s.relaySet 3).relays.path.completes (s.pins.sense.get 3).path = true ∧
        (s.relaySet 3).relays.path.state = .movingOpen ∧
        (s.relaySet 2).relays.get Bus.x0.relay = { state := .opened } ∧
        (s.relaySet 3).relays.get Bus.x0.relay = { state := .opened }) ∧
      (let s := crossing true;
      (s.fault 5).seq = some ⟨false, 1⟩ ∧ Event.moveComplete 2 Bus.x0.relay ∈ s.due ∧
        ((s.relaySet 2).relays.get Bus.x0.relay).completes ((s.pins.sense.get 2).get Bus.x0.relay) = true ∧
        ((s.relaySet 3).relays.get Bus.x0.relay).state.moving = true) := by decide

/-- Of the second step of a PIN_SHORT start the second relay completes, the first at rest closed. -/
theorem witness_MovementsEnd_pinShortEnds :
    let s (pending : Bool) := ((crossing true).updRelaySet 3 fun x =>
      { x with relays := { x.relays with x0 := { state := .closed } } }).updFault 5 fun f =>
        { f with releasePending := pending }
    (s true).examineDue = false ∧ ((s true).fault 5).kind = .pinShort ∧ ((s true).fault 5).target = 2 ∧
      ((s true).fault 5).partner = some 3 ∧ ((s true).fault 5).bus = some .x0 ∧
      ((s true).relaySet 2).normalising = none ∧ ((s true).relaySet 2).holder = some 5 ∧
      ((s true).fault 5).state = .starting ∧ ((s true).fault 5).seq = some ⟨false, 1⟩ ∧
      Event.moveComplete 2 Bus.x0.relay ∈ (s true).due ∧
      (((s true).relaySet 2).relays.get Bus.x0.relay).completes (((s true).pins.sense.get 2).get Bus.x0.relay) = true ∧
      (((s true).relaySet 2).relays.get Bus.x0.relay).state = .movingClosed ∧
      ((s true).relaySet 3).relays.get Bus.x0.relay = { state := .closed } ∧ (s true).listeners 5 .start = [] ∧
      ((s true).fault 5).releasePending = true ∧ ((s false).fault 5).releasePending = false := by decide

/-- Record 5 stops its short of A2 to A3 over X0: A2's X0 opens, A3's is open; or, in the last step, A3's PATH closes while
record 31, a PIN_SHORT from A4 to A5, waits for a bus. -/
def uncrossing (last : Bool) : State :=
  let x3 : PerRelay Relay := { normalRelays with path := if last then turning .closed 3000 else { state := .opened } }
  let x2 : PerRelay Relay := { normalRelays with x0 := if last then { state := .opened } else turning .opened 3000 }
  let f : FaultRecord :=
    { state := .stopping, kind := .pinShort, target := 2, partner := some 3, bus := some .x0,
      seq := some ⟨true, if last then 1 else 0⟩ }
  { withFault 31 { state := .waiting, kind := .pinShort, target := 4, partner := some 5 }
      ((onA2 { relays := x2, holder := some 5 } normalSense f
        [if last then .moveComplete 3 .path else .moveComplete 2 .x0]).updRelaySet 3 fun _ =>
          { relays := x3, holder := some 5 }) with
    buses := ⟨some 5, some 9⟩, waitList := [31] }

/-- The first step of a SHORT_GND and of a PIN_SHORT stop completes. -/
theorem witness_MovementsEnd_stopGoesOn :
    (let s := onA2 { relays := { normalRelays with path := { state := .opened }, gnd := turning .opened 3000 }, holder := some 5 }
        { normalSense with path := false } { state := .stopping, kind := .shortGnd, target := 2, seq := some ⟨true, 0⟩ }
        [.moveComplete 2 .gnd];
      s.examineDue = false ∧ (s.relaySet 2).normalising = none ∧ (s.relaySet 2).holder = some 5 ∧
        (s.fault 5).kind = .shortGnd ∧ (s.fault 5).seq = some ⟨true, 0⟩ ∧ Event.moveComplete 2 .gnd ∈ s.due ∧
        ((s.relaySet 2).relays.get .gnd).completes ((s.pins.sense.get 2).get .gnd) = true ∧
        ((s.relaySet 2).relays.get .gnd).state = .movingOpen ∧ (s.relaySet 2).relays.path.state = .opened) ∧
      (let s := uncrossing false;
      (s.fault 5).seq = some ⟨true, 0⟩ ∧ (s.fault 5).bus = some .x0 ∧ (s.relaySet 2).holder = some 5 ∧
        Event.moveComplete 2 Bus.x0.relay ∈ s.due ∧
        ((s.relaySet 2).relays.get Bus.x0.relay).completes ((s.pins.sense.get 2).get Bus.x0.relay) = true ∧
        ((s.relaySet 2).relays.get Bus.x0.relay).state = .movingOpen ∧
        (s.relaySet 3).relays.get Bus.x0.relay = { state := .opened } ∧
        (s.relaySet 3).relays.path.state = .opened) := by decide

/-- The last step of a PIN_SHORT stop completes with a PIN_SHORT record waiting for the bus. -/
theorem witness_MovementsEnd_busReleased :
    let s := uncrossing true
    (s.examineDue = false ∧ (s.relaySet 3).normalising = none ∧
      (∀ d, (s.relaySet d).holder = some 5 ↔ d = 2 ∨ d = 3) ∧
      (s.buses.get .x0 = some 5 ∧ s.buses.get .x1 ≠ some 5) ∧ (s.fault 5).state = .stopping ∧
      (s.fault 5).seq = some ⟨true, 1⟩ ∧ Event.moveComplete 3 .path ∈ s.due ∧
      (s.relaySet 3).relays.path.completes (s.pins.sense.get 3).path = true ∧
      (s.relaySet 3).relays.path.state = .movingClosed) ∧ s.joining = [] ∧ s.listeners 5 .stop = [] ∧
      (s.fault 5).repeats = 0 ∧ s.waitList = [31] ∧ (s.fault 31).kind = .pinShort ∧
      (s.fault 31).partner = some 5 ∧ (s.relaySet 4).holder = none ∧ (s.relaySet 5).holder = none ∧
      (s.relaySet 5).inService = true ∧ s.buses.get .x1 ≠ none ∧ (s.relaySet 5).relays.path = { state := .closed } := by
  decide

/-- R97: the release of the bus grants the record that waits for it, which takes it. -/
theorem test_bus_granted : after (.movementComplete 3 .path) (uncrossing true)
    (fun t => (t.waitList, t.buses.x0, (t.fault 31).state)) = some ([], some 31, .starting) := by decide

/-- The wait list behind a release of A2: record 20 on A3, which is held, then 21 on A2, then 22 on A2 too. -/
def queued (s : State) : State :=
  let r (c : Fin 24) : FaultRecord := { state := .waiting, target := c }
  { withFault 22 (r 2) (withFault 21 (r 2) (withFault 20 (r 3) (s.updRelaySet 3 fun x => { x with holder := some 9 }))) with
    waitList := [20, 21, 22] }

/-- The stop of record 5, the holder of A2, completes. -/
def stopEnding : State :=
  onA2 { relays := { normalRelays with path := turning .closed 3000 }, holder := some 5 } normalSense
    { state := .stopping, target := 2, seq := some ⟨true, 0⟩ } [.moveComplete 2 .path]

/-- The second step of a SHORT_GND start on A2 fails: GND does not close. -/
def groundFails : State :=
  onA2 { relays := { normalRelays with path := { state := .opened }, gnd := turning .closed 20000 }, holder := some 5 }
    { normalSense with path := false } { state := .starting, kind := .shortGnd, target := 2, seq := some ⟨false, 1⟩ }
    [.moveFail 2 .gnd]

theorem witness_MovementsEnd_fails :
    let s := groundFails
    (s.examineDue = false ∧ (s.relaySet 2).normalising = none ∧ (s.relaySet 2).holder = some 5 ∧
      (s.fault 5).seq = some ⟨false, 1⟩ ∧ Event.moveFail 2 .gnd ∈ s.due ∧
      ((s.relaySet 2).relays.get .gnd).fails ((s.pins.sense.get 2).get .gnd) = true) ∧
    inStep (s.fault 5) ⟨false, 1⟩ 2 .gnd ∧
    (∀ d m, inStep (s.fault 5) ⟨false, 1⟩ d m → d = 2 ∧ m = .gnd) ∧
    normalisationBegins ⟨3, 20⟩ { relays := normalRelays } { relays := normalRelays } := by
  refine ⟨by decide, ⟨rfl, .inr (.inl ⟨rfl, rfl⟩)⟩, ?_, normalRelays, rfl, ?_, ?_, ?_⟩
  · rintro d m ⟨hd, h⟩
    refine ⟨hd, ?_⟩
    rcases h with ⟨h, -⟩ | ⟨-, h⟩ | ⟨h, -⟩ | ⟨h, -⟩
    · cases h
    · exact h
    · cases h
    · cases h
  · intro r hr
    cases r <;> first | exact absurd rfl hr | rfl
  · rintro ⟨r, hr, h⟩
    cases r <;> first | exact absurd rfl hr | cases h
  · exact fun _ => ⟨{ state := .closed }, rfl, rfl⟩

/-- R55 and R57: the record fails and A2 begins to normalise, GND commanded open. -/
theorem test_failed_start_normalises : after (.movementFail 2 .gnd) groundFails
    (fun t => ((t.fault 5).state, (t.relaySet 2).normalising, (t.relaySet 2).relays.gnd.state)) =
      some (.failed, some .breaking, .movingOpen) := by decide

/-- R51 and R55: in a PIN_SHORT stop A2's X0 opens where A3's has failed, and where A3's still moves. -/
theorem witness_MovementsEnd_failsTogether :
    let s (x : Relay) := (uncrossing false).updRelaySet 3 fun y => { y with relays := { y.relays with x0 := x } }
    let failed : Relay := { state := .opened, failed := true }
    (∀ d m, inStep ((s failed).fault 5) ⟨true, 0⟩ d m → (d = 2 ∨ d = 3) ∧ m = .x0) ∧
    inStep ((s failed).fault 5) ⟨true, 0⟩ 3 .x0 ∧ inStep ((s failed).fault 5) ⟨true, 0⟩ 2 .x0 ∧
    (((s failed).relaySet 2).holder = some 5 ∧ ((s failed).relaySet 3).holder = some 5 ∧
      (((s failed).relaySet 3).relays.get .x0).failed = true ∧
      (((s (turning .opened 5)).relaySet 3).relays.get .x0).state.moving = true) := by
  refine ⟨?_, ⟨3, .x0, rfl, rfl, .inr ⟨.inr rfl, .inr rfl, rfl⟩⟩, ⟨3, .x0, rfl, rfl, .inr ⟨.inr rfl, .inl rfl, rfl⟩⟩, by decide⟩
  rintro d m ⟨p, b, hp, hb, h⟩
  cases hp
  cases hb
  rcases h with ⟨h | h, -⟩ | ⟨-, hd, hm⟩
  · cases h
  · cases h
  · exact ⟨hd, hm⟩

/-- The stop of record 5 with a repeat left, and with record 6 listening for its END event. -/
def stopEndingTo (f : FaultRecord → FaultRecord) : State :=
  withFault 6 { state := .armed, kind := .stuckAt, target := 4, trigger := .onFault 5 .stop } (stopEnding.updFault 5 f)

theorem witness_MovementsEnd_stopEnds :
    let s := stopEndingTo fun f => { f with repeats := 1 }
    (s.relaySet 2).normalising = none ∧ (s.relaySet 2).holder = some 5 ∧ (s.fault 5).state = .stopping ∧
      (s.fault 5).seq = some ⟨true, 0⟩ ∧ (s.fault 5).kind = .openWire ∧ Event.moveComplete 2 .path ∈ s.due ∧
      (s.relaySet 2).relays.path.state = .movingClosed ∧
      (s.relaySet 2).relays.path.completes (s.pins.sense.get 2).path = true ∧ s.listeners 5 .stop = [6] ∧
      (∀ j, (s.fault j).state = .armed → (s.fault j).kind.electronic = true) ∧ stopEnding.listeners 5 .stop = [] ∧
      (s.fault 5).releasePending = false ∧ 0 < (s.fault 5).repeats := by decide

/-- R83, R89 and R103: the record is ARMED again, and its END event has fired record 6. -/
theorem test_stop_repeats : after (.movementComplete 2 .path) (stopEndingTo fun f => { f with repeats := 1 })
    (fun t => ((t.fault 5).state, (t.fault 5).activations, (t.fault 6).state)) = some (.armed, 1, .active) := by decide

/-- The stop of record 5 has released A2. -/
def released : State := (queued stopEnding).updRelaySet 2 fun _ => { relays := normalRelays }

/-- Record 21 has taken A2. -/
def taken : State :=
  (released.updRelaySet 2 (startsOpening released.timing 21)).updFault 21 fun f =>
    { f with state := .starting, seq := some ⟨false, 0⟩ }

/-- Record 21 is a SHORT_BAT, and the battery is ABSENT. -/
def noBattery : State := { released with battery := ⟨false, 0⟩ }.updFault 21 fun f => { f with kind := .shortBat }

/-- A pass of the list: record 20 is held up, 21 is not and takes A2, or fails, and with A2 taken 22 is held up. -/
theorem witness_passes :
    released.waitsOn [] 20 ∧ ¬released.waitsOn [20] 21 ∧ taken.waitsOn [20] 22 ∧ released.takes 21 taken ∧
      ∃ u, noBattery.takes 21 u := by
  have h1 : ¬released.heldUp 21 := by decide
  have h2 : ¬released.inTheWay 20 21 := by decide
  refine ⟨by decide, ?_, by decide, .inr (.inl ⟨2, .inl rfl, rfl, rfl, by decide, by decide, rfl⟩),
    ⟨_, .inl ⟨.noBattery, .inr ⟨rfl, rfl, rfl, by decide⟩, rfl⟩⟩⟩
  rintro (h | ⟨i, hi, h⟩)
  · exact h1 h
  · cases List.mem_singleton.1 hi
    exact h2 h

/-- Record 31, a PIN_SHORT from A4 to A5, is taken with X0, the first free bus. -/
theorem witness_passes_pinShort : ∃ u, ({ uncrossing true with buses := {} } : State).takes 31 u :=
  ⟨_, .inr (.inr ⟨4, 5, .x0, rfl, rfl, rfl, by decide, by decide, by decide, by decide, .inl ⟨rfl, rfl⟩, rfl⟩)⟩

/-- An instant with a pass to come and two events left. -/
theorem witness_noPassAfter :
    ({ withDue [.millisecond, .refresh] (inMode .run) with examineDue := true } : State).noPassAfter .millisecond ∧
      (inMode .run).noPassAfter .refresh := by decide

/-- R96 and R97: the release grants the oldest record that waits for the channel, and the others wait on. -/
theorem test_release_grants : after (.movementComplete 2 .path) (queued stopEnding)
    (fun t => (t.waitList, (t.relaySet 2).holder, [20, 21, 22].map fun k => (t.fault k).state)) =
      some ([20, 22], some 21, [.waiting, .starting, .waiting]) := by decide

theorem witness_SampledLinesChange :
    let s (m : Mode) (l : Bool) := withDue [.battery, .safeLine]
      { inMode m with battery := ⟨true, 4⟩, run := { mode := m, safe := ⟨l, 4⟩ } }
    Event.battery ∈ (s .run true).due ∧ Event.safeLine ∈ (s .run true).due ∧ (s .run true).examineDue = false ∧
      (s .run true).battery.count = 4 ∧ (s .run true).run.safe.count = 4 ∧ (s .run true).run.safe.level = true ∧
      (s .config false).run.mode ≠ .run ∧ (s .run false).run.mode = .run ∧ (s .run false).run.safe.level = false := by
  decide

/-- A FAILED record that still holds A5. -/
def holding : State :=
  withFault 9 { state := .failed } (linked.updRelaySet 5 fun x => { x with holder := some 9 })

theorem witness_ArmFaultDefines :
    linked.takesNow .B = true ∧ holding.takesNow .B = true ∧ 64 ≤ (64 : Byte).toNat ∧
      (63 : Byte).toNat = (63 : Fin 64).1 ∧ (linked.fault 63).state.inUse = false ∧
      (holding.fault 9).state = .failed ∧ (holding.relaySet 5).holder = some 9 ∧
      judgeFault linked 63 { aDefinition with level := 0 } = none ∧
      (judgeFault linked 63 aDefinition).isSome = true ∧
      (judgeFault linked 63 { aDefinition with kind := 3, partner := 4 }).isSome = true := by decide

/-- A record in a state, on A5, with the wait list as its state needs it. -/
def recordIn (x : FaultState) : State :=
  { withFault 7 { state := x, kind := .stuckAt, target := 5 } (inMode .run) with
    waitList := if x = .waiting then [7] else [] }

theorem witness_FaultDefinitionRanges :
    judgeParam .stuckAt .analog .free .crank 4000 = some (.int 4000) ∧
      judgeParam .stuckAt .switch .free .crank 2 = none ∧
      judgeParam .offset .pulse .wheel .crank 5759 = some (.int 5759) ∧
      judgeParam .offset .pulse .wheel .crank 5760 = none ∧
      judgeParam .gain .analog .free .crank 65535 = some (.int 65535) ∧
      judgeParam .noise .pulse .free .crank 4000 = some (.int 4000) ∧
      judgeParam .missTooth .pulse .wheel .cam0 15 = some (.int 15) ∧
      judgeParam .missTooth .pulse .wheel .cam0 16 = none ∧
      judgeParam .extraTooth .pulse .wheel .crank 0x167F02D0 = some (.extra 5759 720) ∧
      judgeTrigger 0 (.onFault 0 0) = none ∧ judgeTrigger 0 (.onCapture 15 2 1) = some (.onCapture 15 .both 1) ∧
      judgeDuration (.cycles 65535) = some (.cycles 65535) ∧ judgeDuration (.cycles 65536) = none := by decide

/-- R205: the codes of a fault definition. -/
theorem witness_FaultDefinitionRanges_codes :
    faultKindOf 3 = some .pinShort ∧ faultKindOf 11 = none ∧
      ((15 : Byte).toNat = (15 : Fin 16).1 ∧ (255 : Byte) ≠ 0 ∧ (1 : Byte).toNat = 1) ∧
      judgeTrigger 7 (.onCapture 15 1 255) = some (.onCapture 15 .fall 255) ∧
      judgeDuration (.capture 0 0 1) = some (.capture 0 .rise 1) ∧
      judgeTrigger 7 (.onFault 63 1) = some (.onFault 63 .stop) ∧ (63 : Fin 64) ≠ 7 ∧
      judgeTrigger 7 (.onFault 0 0) = some (.onFault 0 .start) ∧
      rawTrigger 0x30020100 0 = .onFault 2 1 ∧ rawDuration 0x40030205 0 = .capture 3 2 5 ∧
      rawDuration 0x30000000 9 = .cycles 9 ∧ rawTrigger 0x1001002A 7 = .atAngle true 42 7 := by decide

theorem witness_FaultsReleasedAndCleared :
    (recordIn .waiting).takesNow .B = true ∧ 64 ≤ (64 : Byte).toNat ∧ (7 : Byte).toNat = (7 : Fin 64).1 ∧
      (recordIn .waiting).examineDue = false ∧ ((recordIn .waiting).fault 7).state = .waiting ∧
      ((recordIn .waiting).waitList ++ (recordIn .waiting).joining).Nodup ∧
      ((recordIn .active).fault 7).kind.electronic = true ∧
      (recordIn .active).listeners 7 .stop = [] ∧ ((recordIn .armed).fault 7).state.inUse = true ∧
      ((recordIn .free).fault 7).state = .free ∧ ((recordIn .done).fault 7).state = .done ∧
      (holding.fault 9).state = .failed ∧ (holding.relaySet 5).holder = some 9 := by decide

theorem witness_FaultsReleasedAndCleared_list :
    (queued (inMode .run)).takesNow .B = true ∧ ((queued (inMode .run)).fault 21).state = .waiting ∧
      ((queued (inMode .run)).waitList ++ (queued (inMode .run)).joining).Nodup := by decide

/-- R95 and R97: with 21 gone, 20 keeps its place and 22 is granted A2; but not while the instant has an event left. -/
theorem test_waiting_release :
    after (.releaseFault .B 1 21) (queued (inMode .run)) (fun t => (t.waitList, (t.fault 21).state, (t.fault 22).state)) =
      some ([20], .done, .starting) ∧
    after (.releaseFault .B 1 21) (withDue [.refresh] (queued (inMode .run)))
      (fun t => (t.waitList, (t.fault 22).state, t.examineDue)) = some ([20, 22], .waiting, true) := by decide

/-- Record 7 lasts on P0: MISS_TOOTH in WHEEL, or STUCK_AT 1 in FREE. -/
def onPulse (m : PulseMode) (l : List Event) : State :=
  withDue l (withFault 7
    { state := .active, kind := if m = .wheel then .missTooth else .stuckAt, target := 12, param := .int 1,
      duration := .time 5, durProgress := 5 }
    ((inMode .run).updChannel 12 fun ch => { ch with mode := m, pin := 1 }))

theorem witness_FaultsReleasedAndCleared_pulse :
    (onPulse .wheel []).takesNow .B = true ∧ (onPulse .wheel []).examineDue = false ∧
      ((onPulse .wheel []).fault 7).state = .active ∧ ((onPulse .wheel []).fault 7).kind = .missTooth ∧
      ((onPulse .wheel []).fault 7).kind.electronic = true ∧ ((onPulse .free []).fault 7).kind.electronic = true ∧
      kindOf ((onPulse .wheel []).fault 7).target = .pulse ∧ (onPulse .wheel []).listeners 7 .stop = [] ∧
      (onPulse .free []).listeners 7 .stop = [] := by decide

/-- R107: the pin of a stopped FREE channel shows the inactive level again, and a WHEEL pin waits for its tick. -/
theorem test_release_shows_pin :
    after (.releaseFault .B 1 7) (onPulse .free []) (fun t => ((t.fault 7).state, (t.channel 12).pin)) =
      some (.done, 0) ∧
    after (.releaseFault .B 1 7) (onPulse .wheel []) (fun t => ((t.fault 7).state, (t.channel 12).pin)) =
      some (.done, 1) := by decide

/-- ACTIVE relay records, their relays at rest where the start sequence left them; a PIN_SHORT from A2 to A5. -/
theorem witness_FaultsReleasedAndCleared_relay :
    let s (kind : FaultKind) := onA2
      { relays := { normalRelays with
          path := { state := .opened }
          gnd := { state := if kind = .shortGnd then .closed else .opened }
          bat := { state := if kind = .shortBat then .closed else .opened } }, holder := some 5 } normalSense
      { state := .active, kind := kind, target := 2 } []
    let p := (onA2 { relays := { normalRelays with x1 := { state := .closed } }, holder := some 5 } normalSense
      { state := .active, kind := .pinShort, target := 2, partner := some 5, bus := some .x1 } []).updRelaySet 5 fun _ =>
        { relays := { normalRelays with path := { state := .opened }, x1 := { state := .closed } }, holder := some 5 }
    ((s .openWire).takesNow .B = true ∧ (5 : Byte).toNat = (5 : Fin 64).1 ∧ (s .openWire).examineDue = false ∧
      ((s .openWire).fault 5).state = .active ∧ ((s .openWire).fault 5).target = 2 ∧
      ((s .openWire).relaySet 2).relays.path.state.moving = false ∧
      ((s .openWire).relaySet 2).relays.path.state ≠ Position.closed.rest ∧
      ((s .shortGnd).relaySet 2).relays.gnd.state ≠ Position.opened.rest ∧
      ((s .shortBat).relaySet 2).relays.bat.state ≠ Position.opened.rest) ∧
      (p.takesNow .B = true ∧ p.examineDue = false ∧ (p.fault 5).state = .active ∧ (p.fault 5).kind = .pinShort ∧
        (p.fault 5).partner = some 5 ∧ (p.fault 5).bus = some .x1 ∧ (5 : Fin 24) ≠ (p.fault 5).target ∧
        (p.relaySet 2).relays.get Bus.x1.relay = { state := .closed } ∧
        (p.relaySet 5).relays.get Bus.x1.relay = { state := .closed }) := by
  refine ⟨?_, ?_⟩ <;> decide

theorem witness_ElectronicTriggersFire :
    let s := withDue [.atTime 7, .onCapture 8]
      (withFault 7 { state := .armed, kind := .freeze, target := 5, trigger := .atTime 0 }
        (withFault 8 { state := .armed, kind := .stuckAt, target := 5, trigger := .onCapture 3 .fall 2, trigProgress := 2 }
          (inMode .run)))
    Event.atTime 7 ∈ s.due ∧ Event.onCapture 8 ∈ s.due ∧ s.examineDue = false ∧ s.run.mode = .run ∧
      (s.fault 7).state = .armed ∧ (s.fault 7).fresh = false ∧ (s.fault 7).kind.electronic = true ∧
      (s.fault 7).trigger = .atTime 0 ∧ (0 : RigTime).toNat ≤ s.rigTime.toNat ∧
      (s.fault 8).trigProgress = 2 ∧ (s.fault 8).trigger = .onCapture 3 .fall 2 ∧
      (∀ j, (s.fault j).trigger = .onFault 7 .start → (s.fault j).state ≠ .armed) ∧
      (∀ j, (s.fault j).trigger = .onFault 8 .start → (s.fault j).state ≠ .armed) ∧
      Event.atTime 9 ∉ s.due ∧ Event.onCapture 9 ∉ s.due := by decide

/-- A MISS_TOOTH and a SHIFT record on WHEEL channels. -/
theorem witness_ElectronicTriggersFire_pulse :
    let s := withDue [.atTime 7, .onCapture 8]
      (withFault 7 { state := .armed, kind := .missTooth, target := 12, trigger := .atTime 0 }
        (withFault 8 { state := .armed, kind := .offset, target := 13, trigger := .onCapture 3 .fall 2, trigProgress := 2 }
          (((inMode .run).updChannel 12 fun ch => { ch with mode := .wheel }).updChannel 13 fun ch =>
            { ch with mode := .wheel })))
    Event.atTime 7 ∈ s.due ∧ Event.onCapture 8 ∈ s.due ∧ s.examineDue = false ∧ s.run.mode = .run ∧
      (s.fault 7).state = .armed ∧ (s.fault 7).fresh = false ∧ (s.fault 7).kind.electronic = true ∧
      kindOf (s.fault 7).target = .pulse ∧ (s.fault 7).trigger = .atTime 0 ∧ (s.fault 8).kind.electronic = true ∧
      kindOf (s.fault 8).target = .pulse ∧ (s.fault 8).trigProgress = 2 ∧ (s.fault 8).trigger = .onCapture 3 .fall 2 ∧
      (∀ j, (s.fault j).trigger = .onFault 7 .start → (s.fault j).state ≠ .armed) ∧
      (∀ j, (s.fault j).trigger = .onFault 8 .start → (s.fault j).state ≠ .armed) := by decide

/-- Record 7 waits for angle 0 of any cycle at a tick that reaches it. -/
def atAngle : State :=
  { withFault 7 { state := .armed, kind := .stuckAt, target := 5, trigger := .atAngle none 0 } (inMode .run) with
    halfDone := true, angle := { phase := 0xFFFFFFFF, speed := 64000, target := 64000 } }

theorem witness_ElectronicTriggersFire_atAngle :
    atAngle.pins.resetLine = false ∧ atAngle.due = [] ∧ atAngle.halfDone = true ∧ atAngle.examineDue = false ∧
      atAngle.run.mode = .run ∧ (atAngle.fault 7).state = .armed ∧ (atAngle.fault 7).trigger = .atAngle none 0 ∧
      (atAngle.fault 7).kind.electronic = true ∧ 7 ∉ atAngle.wholeList := by decide

/-- The tick from angle 11519 to angle 1 fires the trigger. -/
theorem test_angle_fires : after (.rigTick []) atAngle (fun t => ((t.fault 7).state, t.angle.cycle)) =
    some (.active, 1) := by decide

/-- Record 7's time has come, record 8 listens for its START, record 9 for that of 8, and record 10 for its END. -/
def chained (ends : Bool) : State :=
  withDue [if ends then .durationEnd 7 else .atTime 7]
    (withFault 7 { state := if ends then .active else .armed, kind := .stuckAt, target := 5, trigger := .atTime 0,
                   duration := .time 1, durProgress := if ends then 1 else 0 }
      (withFault 8 { state := .armed, kind := .gain, target := 6, trigger := .onFault 7 .start }
        (withFault 9 { state := .armed, kind := .gain, target := 7, trigger := .onFault 8 .start }
          (withFault 10 { state := .armed, kind := .gain, target := 8, trigger := .onFault 7 .stop } (inMode .run)))))

theorem witness_ElectronicTriggersFire_chain :
    ((chained false).examineDue = false ∧ (chained false).run.mode = .run ∧
      ((chained false).fault 7).kind.electronic = true ∧ Event.atTime 7 ∈ (chained false).due ∧
      ((chained false).fault 7).state = .armed ∧ ((chained false).fault 7).fresh = false ∧
      ((chained false).fault 7).trigger = .atTime 0 ∧ Event.durationEnd 7 ∈ (chained true).due ∧
      ((chained true).fault 7).state = .active ∧ ((chained true).fault 7).durationOver = true) ∧
      ∀ ends j i x, ((chained ends).fault j).state = .armed → ((chained ends).fault j).trigger = .onFault i x →
        ((chained ends).fault j).kind.electronic = true := by
  refine ⟨by decide, fun ends j i x h _ => ?_⟩
  have he : ∀ ends j, ((chained ends).fault j).state = .armed → ((chained ends).fault j).kind.electronic = true := by
    decide
  exact he ends j h

/-- The same chain from an ON_CAPTURE trigger, and from a release of record 7 (R83). -/
theorem witness_ElectronicTriggersFire_chainFrom :
    let s := (withDue [.onCapture 7] (chained false)).updFault 7 fun f =>
      { f with trigger := .onCapture 3 .fall 2, trigProgress := 2 }
    Event.onCapture 7 ∈ s.due ∧ (s.fault 7).trigger = .onCapture 3 .fall 2 ∧ (s.fault 7).trigProgress = 2 ∧
      (s.fault 7).state = .armed ∧ (s.fault 7).fresh = false ∧ s.run.mode = .run ∧ s.examineDue = false ∧
      (chained true).takesNow .B = true ∧ (chained true).listeners 7 .stop = [10] := by decide

theorem test_release_chain : after (.releaseFault .B 1 7) (chained true)
    (fun t => [(t.fault 7).state, (t.fault 8).state, (t.fault 10).state]) = some [.done, .armed, .active] := by decide

/-- Record 7's END event fires record 10, for whose START event the repeat of record 7 would listen: the chain is resolved
before the re-arming (R84, R89, assumption 41). -/
theorem test_chain_before_rearm : after (.durationEnd 7)
    ((chained true).updFault 7 fun f => { f with trigger := .onFault 10 .start, repeats := 1 })
    (fun t => [(t.fault 7).state, (t.fault 10).state]) = some [.armed, .active] := by decide

theorem test_chain : (after (.atTimeTrigger 7) (chained false)
    (fun t => [(t.fault 8).state, (t.fault 9).state, (t.fault 10).state])) = some [.active, .active, .armed] := by decide

theorem witness_RelayRecordIsGranted :
    let s (inService : Bool) (kind : FaultKind) (holder : Option (Fin 64)) := withDue [.atTime 7]
      (withFault 7 { state := .armed, kind := kind, target := 5, trigger := .atTime 0 }
        ((inMode .run).updRelaySet 5 fun x => { x with inService := inService, holder := holder }))
    Event.atTime 7 ∈ (s true .shortGnd none).due ∧ (s true .shortGnd none).examineDue = false ∧
      ((s true .shortGnd none).fault 7).state = .armed ∧ ((s true .shortGnd none).fault 7).partner = none ∧
      ((s true .openWire none).fault 7).kind = .openWire ∧ ((s false .openWire none).relaySet 5).inService = false ∧
      ((s true .shortGnd none).relaySet 5).holder = none ∧ (s true .shortGnd none).waitList = [] ∧
      (s true .shortGnd none).joining = [] ∧ ((s true .shortGnd none).fault 7).kind.electronic = false ∧
      (s true .shortGnd none).run.mode = .run ∧
      ((s true .shortGnd none).relaySet 5).relays.path = { state := .closed } ∧
      ((s true .shortBat none).fault 7).kind = .shortBat ∧ (s true .shortBat none).battery.level = false ∧
      ({ s true .shortBat none with battery := ⟨true, 0⟩ } : State).battery.level = true ∧
      ((s true .shortGnd (some 3)).relaySet 5).holder ≠ none := by decide

/-- Record 7 fires on A5 behind record 20, which waits for A3, and behind record 23, a PIN_SHORT from A5 to A3. -/
def firing (kind : FaultKind) (partner : Option (Fin 24)) (l : List (Fin 64)) : State :=
  { withDue [.atTime 7] (withFault 7
      { state := .armed, kind := kind, target := 5, partner := partner, trigger := .atTime 0 }
      (withFault 23 { state := .waiting, kind := .pinShort, target := 5, partner := some 3 } (queued (inMode .run)))) with
    waitList := l }

theorem witness_RelayRecordIsGranted_waiting :
    (∀ j ∈ ([20, 23] : List (Fin 64)), (firing .openWire none [20, 23]).heldUp j) ∧
      (∀ j ∈ ([20] : List (Fin 64)), ¬((firing .openWire none [20]).fault j).onChannel 5 ∧
        ¬((firing .openWire none [20]).fault j).onChannel 6 ∧ ((firing .openWire none [20]).fault j).kind ≠ .pinShort) ∧
      ((firing .openWire none [20, 23]).fault 23).onChannel 5 ∧
      ((firing .pinShort (some 6) [20, 23]).fault 23).kind = .pinShort ∧
      ((firing .openWire none [20]).relaySet 5).holder = none ∧ (firing .openWire none [20]).joining = [] ∧
      ((firing .pinShort (some 6) [20]).relaySet 6).holder = none := by decide

/-- Record 7 joins alone, and between records 3 and 9 that have joined at the instant before it. -/
theorem witness_RelayRecordIsGranted_joins :
    (∃ r, (firing .openWire none []).joins 7 r) ∧ ∃ r, ({ firing .openWire none [] with joining := [3, 9] }).joins 7 r :=
  ⟨⟨_, [], [], rfl, by decide, by decide, rfl⟩, ⟨_, [3], [9], rfl, by decide, by decide, rfl⟩⟩

/-- An OPEN record that waits for angle 0 of any cycle at a tick that reaches it. -/
theorem witness_RelayRecordIsGranted_atAngle :
    let s := atAngle.updFault 7 fun f => { f with kind := .openWire }
    s.pins.resetLine = false ∧ s.due = [] ∧ s.halfDone = true ∧ s.examineDue = false ∧ s.joining = [] ∧
      s.run.mode = .run ∧ (s.fault 7).state = .armed ∧ (s.fault 7).trigger = .atAngle none 0 ∧
      (s.fault 7).kind.electronic = false ∧ ∀ j, j ≠ 7 → (s.fault j).state ≠ .armed := by decide

/-- R97: fired at the tick, with nothing else of the instant left, the record is granted at it. -/
theorem test_angle_grants : after (.rigTick []) (atAngle.updFault 7 fun f => { f with kind := .openWire })
    (fun t => ((t.fault 7).state, (t.relaySet 5).holder)) = some (.starting, some 7) := by decide

/-- Record 8, an OPEN of A6, listens for the START of 7, whose time has come, or for its END; both are given in and out
of service. -/
theorem witness_RelayRecordIsGranted_onFault :
    let s (ends : Bool) := (chained ends).updFault 8 fun f =>
      { f with kind := .openWire, trigger := .onFault 7 (if ends then .stop else .start) }
    (∀ ends, ((s ends).fault 7).kind.electronic = true ∧ ((s ends).fault 8).kind.electronic = false ∧
      (s ends).run.mode = .run ∧ (s ends).examineDue = false) ∧
    (s false).listeners 7 .start = [8] ∧ Event.atTime 7 ∈ (s false).due ∧ ((s false).fault 7).state = .armed ∧
      ((s false).fault 7).trigger = .atTime 0 ∧
      (((s true).updFault 10 fun _ => {}).listeners 7 .stop = [8]) ∧ Event.durationEnd 7 ∈ (s true).due ∧
      ((s true).fault 7).durationOver = true ∧ ((s true).relaySet 6).inService = true := by decide

/-- An instant that has a refresh left: record 8, an OPEN of A5, has joined at it, and record 3, another, listens for the
END of record 7, which lasts. -/
def joined (l : List (Fin 64)) : State :=
  { withDue [.refresh] (withFault 7 { state := .active, kind := .stuckAt, target := 6 }
      (withFault 8 { state := .waiting, target := 5 } (withFault 3
        { state := if l = [8] then .armed else .waiting, target := 5, trigger := .onFault 7 .stop } (inMode .run)))) with
    joining := l, examineDue := true }

/-- R93 and R97: a release at that instant has 3 join ahead of 8, and the pass after the last event grants 3. -/
theorem test_joins_of_an_instant :
    after (.releaseFault .B 1 7) (joined [8]) (fun t => (t.joining, (t.fault 3).state)) = some ([3, 8], .waiting) ∧
    after .analogRefresh (joined [3, 8]) (fun t => (t.waitList, t.joining, (t.fault 3).state)) =
      some ([8], [], .starting) := by decide

/-- R97: a record passes one that waits for another channel, and waits behind one that its channel is kept for. -/
theorem test_later_record_passes :
    after (.atTimeTrigger 7) (firing .openWire none [20]) (fun t => (t.waitList, (t.fault 7).state)) =
      some ([20], .starting) ∧
    after (.atTimeTrigger 7) (firing .openWire none [20, 23]) (fun t => (t.waitList, (t.fault 7).state)) =
      some ([20, 23, 7], .waiting) := by decide

/-- A PIN_SHORT from A5 to A6: both buses free, X0 taken, both taken. -/
theorem witness_RelayRecordIsGranted_pinShort :
    let s (b : BusHolders) : State := { withDue [.atTime 7]
      (withFault 7 { state := .armed, kind := .pinShort, target := 5, partner := some 6, trigger := .atTime 0 }
        (inMode .run)) with buses := b }
    ((s {}).fault 7).kind = .pinShort ∧ ((s {}).fault 7).partner = some 6 ∧ ((s {}).relaySet 5).holder = none ∧
      ((s {}).relaySet 6).holder = none ∧ ((s {}).relaySet 5).inService = true ∧ ((s {}).relaySet 6).inService = true ∧
      ((s {}).relaySet 6).relays.path = { state := .closed } ∧ (s {}).buses.x0 = none ∧
      (s ⟨some 3, none⟩).buses.x0 ≠ none ∧ (s ⟨some 3, none⟩).buses.x1 = none ∧
      ((s ⟨some 3, some 4⟩).buses.x0 ≠ none ∧ (s ⟨some 3, some 4⟩).buses.x1 ≠ none) ∧
      ((5 : Fin 24) ≠ 6 ∧ (s {}).waitList = [] ∧ (s {}).joining = []) := by decide

/-- R93: a PIN_SHORT from A5 to A6 with either channel out of service. -/
theorem witness_RelayRecordIsGranted_outOfService :
    let s (c : Fin 24) := (firing .pinShort (some 6) []).updRelaySet c fun x => { x with inService := false }
    Event.atTime 7 ∈ (s 5).due ∧ (s 5).examineDue = false ∧ (s 5).run.mode = .run ∧ ((s 5).fault 7).state = .armed ∧
      ((s 5).fault 7).kind = .pinShort ∧ ((s 5).fault 7).partner = some 6 ∧ ((s 5).relaySet 5).inService = false ∧
      ((s 6).relaySet 6).inService = false ∧
      after (.atTimeTrigger 7) (s 6) (fun t => ((t.fault 7).state, (t.fault 7).failReason, t.waitList)) =
        some (.failed, some .outOfService, []) := by decide

theorem witness_DurationEnds :
    let s (pending : Bool) (n : Nat) := withDue [.durationEnd 7]
      (withFault 7 { state := .active, kind := .offset, target := 5, duration := .time 50, durProgress := 50, repeats := n,
                     releasePending := pending } (inMode .run))
    Event.durationEnd 7 ∈ (s false 1).due ∧ (s false 1).examineDue = false ∧ ((s false 1).fault 7).state = .active ∧
      ((s false 1).fault 7).durationOver = true ∧ ((s false 1).fault 7).kind.electronic = true ∧
      (s false 1).listeners 7 .stop = [] ∧
      ((s false 1).fault 7).releasePending = false ∧ 0 < ((s false 1).fault 7).repeats ∧
      ((s true 1).fault 7).releasePending = true ∧ ((s false 0).fault 7).repeats = 0 := by decide

theorem witness_DurationEnds_pulse :
    let s := onPulse .wheel [.durationEnd 7]
    Event.durationEnd 7 ∈ s.due ∧ s.examineDue = false ∧ (s.fault 7).state = .active ∧
      (s.fault 7).durationOver = true ∧ (s.fault 7).kind.electronic = true ∧
      kindOf (s.fault 7).target = .pulse ∧ s.listeners 7 .stop = [] ∧ (s.fault 7).repeats = 0 := by decide

/-- Relay records whose duration is over, their relays at rest where the start sequence left them. -/
theorem witness_DurationEnds_relay :
    let s (kind : FaultKind) := onA2
      { relays := { normalRelays with
          path := { state := .opened }
          gnd := { state := if kind = .shortGnd then .closed else .opened }
          bat := { state := if kind = .shortBat then .closed else .opened } }, holder := some 5 } normalSense
      { state := .active, kind := kind, target := 2, duration := .time 1, durProgress := 1 } [.durationEnd 5]
    Event.durationEnd 5 ∈ (s .openWire).due ∧ (s .openWire).examineDue = false ∧
      ((s .openWire).fault 5).state = .active ∧ ((s .openWire).fault 5).durationOver = true ∧
      ((s .openWire).fault 5).target = 2 ∧ ((s .openWire).fault 5).kind = .openWire ∧
      ((s .openWire).relaySet 2).relays.path.state.moving = false ∧
      ((s .openWire).relaySet 2).relays.path.state ≠ Position.closed.rest ∧
      ((s .shortGnd).relaySet 2).relays.gnd.state ≠ Position.opened.rest ∧
      ((s .shortBat).relaySet 2).relays.bat.state ≠ Position.opened.rest := by decide

/-- An ACTIVE PIN_SHORT from A2 to A5 whose duration is over. -/
theorem witness_DurationEnds_pinShort :
    let s := (onA2 { relays := { normalRelays with x1 := { state := .closed } }, holder := some 5 } normalSense
      { state := .active, kind := .pinShort, target := 2, partner := some 5, bus := some .x1, duration := .time 1,
        durProgress := 1 } [.durationEnd 5]).updRelaySet 5 fun _ =>
        { relays := { normalRelays with path := { state := .opened }, x1 := { state := .closed } }, holder := some 5 }
    Event.durationEnd 5 ∈ s.due ∧ s.examineDue = false ∧ (s.fault 5).state = .active ∧
      (s.fault 5).durationOver = true ∧ (s.fault 5).kind = .pinShort ∧ (s.fault 5).partner = some 5 ∧
      (s.fault 5).bus = some .x1 ∧ (5 : Fin 24) ≠ (s.fault 5).target ∧
      (s.relaySet 2).relays.get Bus.x1.relay = { state := .closed } ∧
      (s.relaySet 5).relays.get Bus.x1.relay = { state := .closed } := by decide

theorem witness_DefineSegmentChecks :
    let s := withSegment 10 0 linked
    s.takesNow .B = true ∧ 32 ≤ (32 : Byte).toNat ∧ (5 : Byte).toNat = (5 : Fin 32).1 ∧
      (s.segment 4).defined = true ∧ (s.segment 5).defined = false ∧ (1 : Word).toNat < 2 ∧
      1048576 < (1048575 : Word).toNat + (2 : Word).toNat ∧ (1048574 : Word).toNat + (2 : Word).toNat ≤ 1048576 ∧
      (∃ a, (19 : Word).toNat ≤ a ∧ a < (19 : Word).toNat + (2 : Word).toNat ∧ (s.segment 4).base ≤ a ∧
        a < (s.segment 4).base + (s.segment 4).length) ∧
      ∀ h, h ≠ 5 → (s.segment h).defined = true →
        (s.segment h).base + (s.segment h).length ≤ (20 : Word).toNat ∨
          (20 : Word).toNat + (2 : Word).toNat ≤ (s.segment h).base := by
  refine ⟨by decide, by decide, by decide, by decide, by decide, by decide, by decide, by decide, ⟨19, by decide⟩, ?_⟩
  decide

theorem witness_FreeSegmentFrees :
    (withSegment 10 1 linked).takesNow .B = true ∧ 32 ≤ (32 : Byte).toNat ∧ (4 : Byte).toNat = (4 : Fin 32).1 ∧
      ((withSegment 10 1 linked).segment 4).defined = true ∧ 0 < ((withSegment 10 1 linked).segment 4).refs ∧
      ((withSegment 10 0 linked).segment 4).refs = 0 ∧ (linked.segment 4).defined = false := by decide

theorem witness_TransfersAreTaken :
    let s := withSegment 504 0 linked
    let m : State := { s with moving := some ⟨.M, 1, false, 4, 0, 10, 1, []⟩ }
    s.takesNow .B = true ∧ m.takesNow .B = true ∧ m.moving ≠ none ∧ s.moving = none ∧ (s.segment 4).defined = true ∧
      (s.segment 4).refs = 0 ∧ 0 < ((withSegment 504 1 linked).segment 4).refs ∧
      (0 : Word).toNat + (504 : Half).toNat ≤ (s.segment 4).length ∧ (504 : Half) ≠ 0 ∧
      (s.segment 4).length < (1 : Word).toNat + (504 : Half).toNat ∧ 504 < (505 : Half).toNat ∧
      (linked.segment 4).defined = false ∧ ([5] : List Half) ≠ [] ∧
      (0 : Word).toNat + ([5] : List Half).length ≤ (s.segment 4).length := by decide

theorem witness_TransfersEnd :
    let s (w : Bool) : State :=
      { linked with moving := some ⟨.B, 1, w, 4, 0, 1048575, 1, if w then [5] else []⟩, memory := [(3, 7)] }
    (s true).moving = some ⟨.B, 1, true, 4, 0, 1048575, 1, [5]⟩ ∧ ((s true).port .B).inbound = [] ∧
      Memory.wf (s true).memory ∧ (s false).moving = some ⟨.B, 1, false, 4, 0, 1048575, 1, []⟩ := by decide

/-- Good settings: A7, P = 1, gain 65535, offset -65536. -/
def someReplay : ReplayArgs := ⟨7, 0, true, 2, 1, 65535, 0xFFFF0000⟩

/-- R205: the codes of targets and pacings at the ends of their ranges. -/
theorem witness_SetReplayWritesSettings_codes :
    targetOf 0 = some (.analog 0) ∧ targetOf 11 = some (.analog 11) ∧ targetOf 255 = some .speed ∧
      pacingOf 0 65535 = some (.time 65535) ∧ pacingOf 1 8 = some (.angle 8) ∧
      pacingOf 1 4096 = some (.angle 4096) := by decide

theorem witness_SetReplayWritesSettings :
    linked.takesNow .B = true ∧ 4 ≤ (4 : Byte).toNat ∧ targetOf 12 = none ∧ pacingOf 1 7 = none ∧
      scaleGood { someReplay with gain := 65536 } = false ∧ (3 : Byte).toNat = (3 : Fin 4).1 ∧
      targetOf someReplay.target = some (.analog 7) ∧ pacingOf someReplay.pacing someReplay.rate = some (.time 1) ∧
      scaleGood someReplay = true ∧ (playing.engine 1).state ≠ .idle ∧ targetOf 255 = some .speed ∧
      linked.angle.source ≠ .replay 3 ∧ (linked.engine 3).state = .idle := by decide

theorem witness_DescriptorsQueuedAndDiscarded :
    let s := withSegment 2 0 (inMode .run)
    let full := s.updEngine 1 fun g => { g with queue := List.replicate 8 { aDescriptor 0 false with ready := true } }
    s.takesNow .B = true ∧ full.takesNow .B = true ∧ 8 ≤ (full.engine 1).queue.length ∧ (s.segment 4).defined = true ∧
      (s.segment 5).defined = false ∧ 2 ≤ (2 : Word).toNat ∧ (0 : Word).toNat + (2 : Word).toNat ≤ (s.segment 4).length ∧
      (255 : BitVec 12).toNat ≤ 255 ∧ 255 < (256 : BitVec 12).toNat ∧ (1 : Word).toNat < 2 ∧
      s.run.mode = .run ∧ (s.engine 1).current = none ∧ (s.engine 1).state = .idle ∧ (s.engine 1).queue = [] ∧
      (inMode .safe).run.mode ≠ .run ∧ (1 : Byte).toNat = (1 : Fin 4).1 ∧ (4 : Byte).toNat = (4 : Fin 32).1 := by decide

/-- Engine 1 is IDLE in RUN with one descriptor queued and none current. -/
def idleQueue : State :=
  (withSegment 2 1 (inMode .run)).updEngine 1 fun g => { g with queue := [{ aDescriptor 3 true with ready := true }] }

theorem witness_DescriptorsQueuedAndDiscarded_queued :
    idleQueue.takesNow .B = true ∧ idleQueue.run.mode = .run ∧ (idleQueue.engine 1).current = none ∧
      (idleQueue.engine 1).state = .idle ∧
      (idleQueue.engine 1).queue ++ [aDescriptor 0 false] =
        { aDescriptor 3 true with ready := true } :: [aDescriptor 0 false] := by decide

/-- R134 and R145: the descriptor that is queued already becomes current, and the new one waits. -/
theorem test_queue_takes_head :
    after (.queueReplay .B 1 1 ⟨4, false, 0, 0, 2⟩) idleQueue (fun t =>
      ((t.engine 1).state, (t.engine 1).current.map Descriptor.loops, (t.engine 1).queue.length)) =
      some (.running, some 3, 1) := by decide

/-- Engine 1 is about to advance from sample `k` of a descriptor. -/
def advancing (k loops : Nat) (final : Bool) (queue : List Descriptor) : State :=
  withDue [.replayAdvance 1] ((withSegment 10 1 (inMode .run)).updEngine 1 fun g =>
    { g with state := .running, pacing := .time 1, current := some (aDescriptor loops final), k := k, queue := queue })

theorem witness_ReplayAdvances :
    (Event.replayAdvance 1 ∈ (advancing 0 0 false []).due ∧ (advancing 0 0 false []).examineDue = false ∧
      ((advancing 0 0 false []).engine 1).state = .running ∧ ((advancing 0 0 false []).engine 1).pacing = .time 1 ∧
      1 ≤ ((advancing 0 0 false []).engine 1).e + 1 ∧
      ((advancing 0 0 false []).engine 1).current = some (aDescriptor 0 false) ∧
      (advancing 0 0 false []).due.count (.replayAdvance 1) = 1) ∧
      ((advancing 0 0 false []).engine 1).k + 1 < (aDescriptor 0 false).count ∧
      (aDescriptor 255 false).count ≤ ((advancing 1 255 false []).engine 1).k + 1 ∧ 0 < (aDescriptor 255 false).loops ∧
      (aDescriptor 0 true).final = true ∧ ((advancing 1 0 false []).engine 1).queue = [] ∧
      ((advancing 1 0 false [aDescriptor 0 true]).engine 1).queue = aDescriptor 0 true :: [] := by decide

/-- Engine 1 plays at 8 samples a cycle, from sample `k`, at a tick that leaves the cycle's last sample. -/
def pacedByAngle (k : Nat) (awaiting : Bool) : State :=
  { (withSegment 10 1 (inMode .run)).updEngine 1 fun g =>
      { g with state := .running, pacing := .angle 8, current := some (aDescriptor 0 false), k := k,
               awaiting := awaiting } with
    halfDone := true, angle := { phase := 0xFFFFFFFF, speed := 64000, target := 64000 } }

theorem witness_ReplayAdvances_angle :
    let s := pacedByAngle 1 false
    s.pins.resetLine = false ∧ s.due = [] ∧ s.halfDone = true ∧ s.run.mode = .run ∧ (s.engine 1).state = .running ∧
      (s.engine 1).pacing = .angle 8 ∧ s.angle.speed ≤ 64000 ∧ (s.engine 1).current = some (aDescriptor 0 false) ∧
      2 ^ 32 ≤ s.angle.phase.toNat + increment s.angle.speed ∧
      (0 : Nat) + increment 64000 < 2 ^ 32 ∧ (s.engine 1).awaiting = false ∧
      ((pacedByAngle 0 true).engine 1).awaiting = true := by decide

/-- R138: k rises by one at the wrap, which ends the descriptor of two samples; an engine that awaits the wrap starts. -/
theorem test_angle_pacing :
    after (.rigTick []) (pacedByAngle 1 false) (fun t => (t.engine 1).state) = some .underrun ∧
      after (.rigTick []) (pacedByAngle 0 true) (fun t => (t.engine 1).awaiting) = some false := by decide

/-- R122 and R145: no other engine paced by angle runs; the tick that finishes the descriptor drops its reference and sets
REPLAY_EVENT on Port B alone. -/
theorem witness_ReplayAdvances_angleEnds :
    let s := (pacedByAngle 1 false).updEngine 1 fun g => { g with notify := ⟨false, true⟩ }
    (∀ j : Fin 4, j ≠ 1 → (s.engine j).state = .running → (s.engine j).pacing.isAngle = false) ∧
      (s.segment 4).refs = 1 ∧
      after (.rigTick []) s (fun t =>
        ((t.segment 4).refs, t.portM.sticky.getLsbD 5, t.portB.sticky.getLsbD 5)) = some (0, false, true) := by decide

theorem witness_CaptureInputsConfigured :
    linked.takesNow .B = true ∧ 16 ≤ (16 : Byte).toNat ∧ (15 : Byte).toNat = (15 : Fin 16).1 ∧
      judgeCapture ⟨16, 1, 1, true, 0, 0, false, false⟩ = none ∧
      judgeCapture ⟨15, 8, 4, true, 2, 3, true, true⟩ =
        some { enabled := true, level := 15, divider := 8, agreement := 4, edges := .both, dest := ⟨true, true⟩,
               trip := true, width := true } ∧
      (judgeCapture ⟨0, 1, 2, false, 2, 0, false, false⟩).map CaptureSettings.enabled = some false ∧
      (linked.input 15).settings.level = 0 ∧
      ({ level := none } : CaptureInput).level = none ∧
      ({ level := some false, comparator := true } : CaptureInput).comparator ≠ false ∧
      0 + 1 < ({} : CaptureSettings).agreement ∧ ({} : CaptureSettings).agreement ≤ 1 + 1 := by decide

/-- Input C3 has agreed on a rise; record 7 waits for one rise of it and record 8 lasts two. -/
def edgeDue (trip : Bool) : State :=
  withDue [.captureReport 3]
    (withFault 7 { state := .armed, trigger := .onCapture 3 .rise 1 }
      (withFault 8 { state := .active, duration := .capture 3 .both 2, durProgress := 1 }
        ((inMode .run).updInput 3 fun x =>
          { x with settings := { enabled := true, dest := ⟨true, true⟩, trip := trip, width := true }, level := some false,
                   disagree := 1, runStamp := some aStamp, edge := some aStamp })))

theorem witness_CaptureEdgeIsReported :
    Event.captureReport 3 ∈ (edgeDue false).due ∧ (∀ j, j < 3 → Event.captureReport j ∉ (edgeDue false).due) ∧
      (edgeDue false).examineDue = false ∧ ((edgeDue false).input 3).level = some false ∧
      ((edgeDue false).input 3).edge = some aStamp ∧
      ((edgeDue false).input 3).disagree < ((edgeDue false).input 3).settings.agreement ∧
      ((edgeDue false).input 3).settings.trip = false ∧ ((edgeDue true).input 3).settings.trip = true ∧
      ((edgeDue true).input 3).settings.edges.selects true = true ∧ (edgeDue true).run.mode = .run ∧
      ((edgeDue false).fault 7).fresh = false ∧ ((edgeDue false).fault 7).trigger = .onCapture 3 .rise 1 ∧
      ((edgeDue false).fault 7).trigProgress < 1 ∧ ((edgeDue false).fault 8).state = .active ∧
      ((edgeDue false).fault 8).duration = .capture 3 .both 2 ∧ ((edgeDue false).fault 9).state ≠ .armed ∧
      (((edgeDue false).input 3).settings.dest.has .M) = true ∧ ((edgeDue false).port .M).captures.length < 128 := by
  decide

/-- Records that the edge of C3 does not count for: another input, another direction, another kind, and one that
completes a duration. -/
theorem witness_CaptureEdgeIsReported_others :
    let s := withFault 10 { state := .armed, trigger := .onCapture 2 .rise 1 }
      (withFault 11 { state := .armed, trigger := .onCapture 3 .fall 1 }
        (withFault 12 { state := .active, duration := .capture 3 .fall 1 }
          (withFault 13 { state := .active, duration := .time 9 } (edgeDue false))))
    ((s.fault 10).fresh = false ∧ (s.fault 10).state = .armed ∧ (s.fault 10).trigger = .onCapture 2 .rise 1 ∧
      (2 : Fin 16) ≠ 3) ∧
      ((s.fault 11).state = .armed ∧ (s.fault 11).trigger = .onCapture 3 .fall 1 ∧ EdgeSel.fall.selects true = false) ∧
      ((s.fault 12).state = .active ∧ (s.fault 12).duration = .capture 3 .fall 1) ∧
      ((s.fault 13).state = .active ∧ (s.fault 13).duration = .time 9) ∧
      ((s.fault 7).trigProgress + 1 = 1 ∧ (s.fault 8).durProgress + 1 = 2 ∧ EdgeSel.both.selects true = true) := by
  decide

/-- R82 and R88: record 7 counts the rise of C3, and a record that names C2 does not. -/
theorem test_edge_counts_its_own :
    after (.captureEdgeReport 3) (withFault 10 { state := .armed, trigger := .onCapture 2 .rise 1 } (edgeDue false))
      (fun t => ((t.fault 7).trigProgress, (t.fault 10).trigProgress, t.due)) =
      some (1, 0, [.onCapture 7, .durationEnd 8]) := by decide

theorem witness_TakeCapturesRemovesOldest :
    (withB (fun q => { q with captures := [aRecord] }) linked).takesNow .B = true ∧
      ((withB (fun q => { q with captures := [aRecord] }) linked).port .B).captures ≠ [] ∧
      (linked.port .M).captures = [] ∧ linked.takesNow .M = true := by decide

theorem witness_CaptureQueueAndReady :
    ({ captures := List.replicate 127 aRecord } : PortState).captures.length < 128 ∧
      128 ≤ ({ captures := List.replicate 128 aRecord } : PortState).captures.length ∧
      (placeRecord ⟨1, true, ⟨50005, 0, 0⟩, false, none⟩ [aRecord]).getLast? ≠ some aRecord := by
  refine ⟨by simp, by simp, by decide⟩

theorem witness_StartAndResumeEnterRun :
    (inMode .config).takesNow .B = true ∧ (inMode .config).run.mode = .config ∧
      (inMode .config).run.safe.level = false ∧ linked.run.safe.level = true ∧ (inMode .safe).run.mode = .safe ∧
      (∀ k, ((inMode .safe).fault k).state ≠ .starting ∧ ((inMode .safe).fault k).state ≠ .stopping) ∧
      ((withFault 3 { state := .stopping } (inMode .safe)).fault 3).state = .stopping ∧
      ((inMode .config).channel 12).mode = .free ∧ ((inMode .config).channel 12).gen = none ∧
      ((inMode .config).channel 12).source = .live ∧ (playing.engine 1).current.isSome = true ∧
      ((inMode .config).engine 0).queue = [] ∧
      (((inMode .config).updChannel 12 fun ch => { ch with live := ⟨2000, 0⟩ }).channel 12).live.value ≠ 0 ∧
      ((inMode .config).channel 12).wait = 0 ∧ (inMode .config).due = [] ∧
      (((inMode .config).updChannel 12 fun ch => { ch with wait := 1 }).channel 12).wait = 1 := by decide

theorem witness_StopEntersConfig :
    (inMode .safe).takesNow .B = true ∧ (∀ k, Event.onCapture k ∉ (inMode .safe).due) ∧
      (inMode .config).run.mode = .config ∧ (inMode .safe).run.mode ≠ .config ∧
      (∀ k, ((inMode .safe).fault k).state.passing = false) ∧
      (∀ c, RelayName.all.all (fun r => !(((inMode .safe).relaySet c).relays.get r).state.moving) = true) ∧
      ((withFault 3 { state := .active } (inMode .run)).fault 3).state.passing = true ∧
      (((starting .openWire 0 true (.moveFail 2 .path)).relaySet 2).relays.get .path).state.moving = true := by decide

theorem witness_EnterSafeStopsTheRun :
    (inMode .run).takesNow .B = true ∧ (∀ k, Event.onCapture k ∉ (inMode .run).due) ∧ (inMode .run).run.mode = .run ∧
      (inMode .config).run.mode = .config ∧ (inMode .safe).run.mode = .safe ∧
      ((recordIn .active).fault 7).kind.electronic = true ∧ (recordIn .active).run.mode = .run ∧
      (recordIn .waiting).recordLaw := by
  refine ⟨by decide, by decide, by decide, by decide, by decide, by decide, by decide, ?_⟩
  unfold State.recordLaw; decide

theorem witness_SetDeadlineWritesSettings :
    (inMode .config).takesNow .B = true ∧ (inMode .config).run.mode = .config ∧ (inMode .run).run.mode ≠ .config ∧
      (9 : Half).toNat < 10 ∧ 10 ≤ (10 : Half).toNat ∧ (1 : BitVec 4) ≠ 0 := by decide

theorem witness_DeadlineExpires :
    let s (n : Nat) := withDue [.deadline]
      { inMode .run with run := { mode := .run, monitor := { limit := 3, misses := n, state := .late, timer := some 0 } } }
    Event.deadline ∈ (s 1).due ∧ (s 1).run.mode = .run ∧ (s 1).run.monitor.timer = some 0 ∧ (s 1).examineDue = false ∧
      (s 1).run.monitor.misses + 1 < (s 1).run.monitor.limit ∧ (s 2).run.monitor.limit ≤ (s 2).run.monitor.misses + 1 ∧
      Event.deadline ∉ linked.due ∧ linked.run.monitor.timer = none := by decide

/-- A5 out of service with a failed PATH, ready to recover. -/
def outOfService : State :=
  linked.updRelaySet 5 fun x =>
    { x with inService := false, relays := { x.relays with path := { state := .closed, failed := true } } }

theorem witness_NoticesClearedAndEnabled :
    outOfService.takesNow .B = true ∧ 512 ≤ (512 : Word).toNat ∧ (511 : Word).toNat < 512 ∧
      ((8 : Word).getLsbD 3 = true ∧ (8 : Word).getLsbD 4 = false) ∧
      ((16 : Word).getLsbD 3 = false ∧ (16 : Word).getLsbD 4 = true) ∧
      ((24 : Word).getLsbD 3 = true ∧ (24 : Word).getLsbD 4 = true) ∧
      (outOfService.relaySet 5).inService = false ∧ (outOfService.channel 5).keepOut = false ∧
      (outOfService.relaySet 5).normalising = none ∧ (outOfService.relaySet 5).holder = none ∧
      (outOfService.relaySet 5).relays.path = { state := .closed, failed := true } ∧
      (outOfService.relaySet 5).relays.gnd = { state := .opened } ∧
      (outOfService.relaySet 4).inService = true := by decide

/-- Out-of-service channels that recover: A5's GND is failed, A6's PATH is open, A7's X0 is closed. -/
def recovering : State :=
  let s (c : Fin 24) (r : PerRelay Relay) (s : State) := s.updRelaySet c fun _ => { relays := r, inService := false }
  s 5 { normalRelays with gnd := { state := .opened, failed := true } }
    (s 6 { normalRelays with path := { state := .opened } }
      (s 7 { normalRelays with x0 := { state := .closed, failed := true } } linked))

theorem witness_NoticesClearedAndEnabled_recovers :
    recovering.takesNow .B = true ∧ ∀ c ∈ [(5 : Fin 24), 6, 7], (recovering.relaySet c).inService = false ∧
      (recovering.channel c).keepOut = false ∧ (recovering.relaySet c).normalising = none ∧
      (recovering.relaySet c).holder = none := by decide

/-- R57 and R60: GND and X0 are moved open again, and a PATH that is open alone is moved closed. -/
theorem test_recovery_begins : after (.clearNotices .B 1 8) recovering (fun t =>
    ((t.relaySet 5).normalising, (t.relaySet 6).normalising, (t.relaySet 7).relays.x0.state)) =
      some (some .breaking, some .joining, .movingOpen) := by decide

/-! The laws of the last statements hold in states that are not at rest; such a state takes a step. -/

/-- A run at full speed with a crank window, drivers driving and a P0 period running. -/
def running : State :=
  { (inMode .run).updChannel 12 fun ch => { ch with gen := some ⟨20, 20, 3, true⟩ } with
    angle := { speed := 64000, target := 64000, active := ⟨[⟨0, 48⟩, ⟨96, 5760⟩], [], []⟩ }
    channels := mapV (fun c ch => { ch with
      driver := .driving, lastOutput := 1, gen := if c = 12 then some ⟨20, 20, 3, true⟩ else none }) (inMode .run).channels
    run := { mode := .run, monitor := { state := .late, timer := some 0 } } }

theorem witness_StepKeepsRanges : running.speedLaw ∧ running.codeLaw ∧ running.noiseLaw ∧ running.tableLaw ∧
    step running = .next running := by
  refine ⟨by unfold State.speedLaw; decide, by unfold State.codeLaw; decide, by unfold State.noiseLaw; decide, ?_, rfl⟩
  intro q
  refine ⟨?_, fun l h => ?_⟩
  · cases q <;> (unfold tableGood; decide)
  · cases q <;> cases h

/-- P2 starts at the next grid point, the tick. -/
theorem witness_StepKeepsModeLaws_start :
    ({ (inMode .run).updChannel 14 fun ch => { ch with live := ⟨2000, 500⟩, wait := 1 } with
      halfDone := true, place := 1 } : State).startLaw := by unfold State.startLaw; decide

theorem witness_StepKeepsModeLaws : running.driverLaw ∧ running.timerLaw ∧ running.startLaw ∧ running.inputLaw ∧
    running.generatorLaw := by
  refine ⟨by unfold State.driverLaw; decide, by unfold State.timerLaw; decide, by unfold State.startLaw; decide,
    by unfold State.inputLaw; decide, fun c g h => ?_⟩
  have hg : ∀ c, (running.channel c).gen = if c = 12 then some ⟨20, 20, 3, true⟩ else none := by decide
  rw [hg] at h
  split at h
  · subst c; cases h; decide
  · cases h

/-- A write that is being moved, over a segment in use and two samples. -/
def transferring : State :=
  { withSegment 10 1 linked with
    moving := some ⟨.B, 1, true, 4, 8, 18, 2, [5, 0]⟩, memory := [(3, 7), (1048575, 0xFFFF)] }

theorem witness_StepKeepsSampleMemory : transferring.memoryLaw ∧ transferring.segmentLaw := by
  refine ⟨⟨by decide, fun x h => ?_, fun x h => ?_, by decide⟩, by decide, by decide⟩
  · obtain rfl : _ = x := Option.some.inj h
    unfold Transfer.within; decide
  · cases (show (none : Option Transfer) = some x from h)

theorem witness_StepKeepsReferenceCounts : playing.refLaw := by unfold State.refLaw; decide

/-- A queue of at most one record is in order. -/
theorem short_order (l : List CaptureRecord) (h : l.length ≤ 1) : captureOrder l := by
  refine ⟨by omega, fun a x y b e => ?_⟩
  rw [e] at h
  simp at h
  omega

theorem witness_StepKeepsQueues : playing.playLaw ∧ playing.engineLaw ∧ playing.captureLaw ∧ playing.queueLaw := by
  refine ⟨by unfold State.playLaw; decide, fun n => ⟨?_, ?_, fun d h => ?_⟩, ⟨short_order _ (by decide),
    short_order _ (by decide)⟩,
    by unfold State.queueLaw; decide⟩
  · revert n; decide
  · revert n; decide
  · have hd : ∀ n, (playing.engine n).current = if n = 1 then some (aDescriptor 0 false) else none := by decide
    rw [hd] at h
    split at h <;> cases h
    rfl

theorem witness_StepKeepsFaultRecords : (recordIn .waiting).recordLaw := by unfold State.recordLaw; decide

/-- Record 5 shorts A2 to GND: ACTIVE, or with the PATH of A2 on its way open. -/
def granted (active : Bool) : State :=
  if active then
    onA2 { relays := { normalRelays with path := { state := .opened }, gnd := { state := .closed } }, holder := some 5 }
      { normalSense with path := false, gnd := true } { state := .active, kind := .shortGnd, target := 2 } []
  else starting .shortGnd 10 true (.moveComplete 2 .path)

theorem granted_fault (a : Bool) (k : Fin 64) : (granted a).fault k =
    if k = 5 then { state := if a then .active else .starting, kind := .shortGnd, target := 2,
                    seq := if a then none else some ⟨false, 0⟩ } else {} := by
  revert a k; decide

theorem granted_relaySet (a : Bool) (c : Fin 24) : (granted a).relaySet c =
    if c = 2 then
      { relays := { normalRelays with
          path := if a then { state := .opened } else turning .opened 10
          gnd := { state := if a then .closed else .opened } }, holder := some 5 }
    else { relays := normalRelays } := by
  revert a c; decide

theorem granted_holder {a : Bool} {c : Fin 24} {k : Fin 64} (h : ((granted a).relaySet c).holder = some k) :
    c = 2 ∧ k = 5 := by
  rw [granted_relaySet] at h
  split at h
  · exact ⟨‹_›, (Option.some.inj h).symm⟩
  · cases h

theorem granted_laws (a : Bool) : (granted a).recordLaw ∧ (granted a).matrixLaw := by
  refine ⟨by cases a <;> (unfold State.recordLaw; decide), ⟨fun c k h => ?_, fun b k h => ?_, fun c b h => ?_⟩,
    fun c => ⟨?_, ?_, ?_⟩,
    fun k => ?_, fun k => ?_, fun k h => ?_, fun k h => ?_, fun k h => ?_, fun c n => ?_, fun c k h => ?_, fun c k h => ?_,
    fun c k h => ?_, fun c => ?_, fun c h => ?_, fun c h => ?_, fun c h => ?_, fun c h => ?_⟩
  · obtain ⟨rfl, rfl⟩ := granted_holder h
    cases a
    · exact ⟨.inl rfl, .inl ⟨rfl, .inl rfl⟩⟩
    · exact ⟨.inl rfl, .inl ⟨rfl, .inr (.inl rfl)⟩⟩
  · cases a <;> cases b <;> cases (show none = some k from h)
  · rw [granted_relaySet] at h
    split at h <;> cases a <;> cases b <;> cases h
  · intro r r' _ _ _
    rw [granted_relaySet]
    split <;> cases a <;> cases r <;> cases r' <;> first | contradiction | exact .inl rfl | exact .inr rfl
  · intro r hr h
    rw [granted_relaySet] at h ⊢
    obtain rfl | rfl := hr <;> split at h <;> rename_i hc <;>
      first
      | exact absurd rfl h
      | (rw [if_pos hc]; cases a <;> first | rfl | exact absurd rfl h)
  · intro _ h _ r
    rw [granted_relaySet] at h ⊢
    split at h
    · cases h
    · rw [if_neg ‹_›]
      cases r <;> rfl
  · rw [granted_fault]
    split <;> cases a <;> decide
  · rw [granted_fault]
    split <;> cases a <;> decide
  · rw [granted_fault] at h ⊢
    split at h
    · rw [if_pos ‹_›]
      cases a
      · exact ⟨0, rfl, by decide⟩
      · cases h
    · cases h
  · rw [granted_fault] at h
    split at h <;> cases a <;> cases h
  · obtain ⟨_, hs⟩ := h
    rw [granted_fault] at hs ⊢
    by_cases hk : k = 5
    · subst hk
      cases a <;> exact ⟨by decide, by decide⟩
    · rw [if_neg hk] at hs
      exact absurd hs (by decide)
  · rw [granted_relaySet]
    split <;> cases a <;> cases n <;> decide
  · obtain ⟨rfl, rfl⟩ := granted_holder h
    cases a <;> exact fun _ _ => ⟨by decide, fun n => by cases n <;> decide⟩
  · rw [granted_relaySet]
    split <;> exact nofun
  · obtain ⟨rfl, rfl⟩ := granted_holder h
    cases a <;> exact fun _ h => by cases h
  · rw [granted_relaySet]
    split <;> exact nofun
  · rw [granted_relaySet] at h
    split at h <;> cases h
  · rw [granted_relaySet] at h
    split at h <;> cases h
  · rw [granted_relaySet] at h
    split at h <;> cases h
  · rw [granted_relaySet] at h
    split at h <;> cases h

theorem witness_StepKeepsRelayMatrix : (granted false).recordLaw ∧ (granted false).matrixLaw := granted_laws false

/-- An ACTIVE relay record, whose stop sequence begins with GND. -/
theorem witness_EnterSafeStopsTheRun_relay :
    ((granted true).recordLaw ∧ (granted true).matrixLaw) ∧ (granted true).takesNow .B = true ∧
      (granted true).run.mode = .run ∧ (∀ k, Event.onCapture k ∉ (granted true).due) ∧
      ((granted true).fault 5).state = .active ∧ ((granted true).fault 5).kind.electronic = false ∧
      ((2 : Fin 24), RelayName.gnd, Position.opened) ∈ (stopSteps ((granted true).fault 5)).headD [] :=
  ⟨granted_laws true, by decide⟩

/-- R113: the record enters STOPPING, and its GND relay is commanded open. -/
theorem test_safe_stops_relay :
    let t := (granted true).safeRecord 5
    ((t.fault 5).state, (t.fault 5).releasePending, ((t.relaySet 2).relays.get .gnd).state) =
      (.stopping, true, .movingOpen) := by decide

end Sys2Proof.Tests
end

section
/-! Requests that a port takes at once (R191): the response to what a block answers. -/

namespace Sys2Proof.Machine

/-- A request carried out is answered OK (R201). -/
@[simp] theorem deliver_okay (p : Port) (k : RequestKind) (t : Byte) (u : State) (b : Body) :
    deliver p k.code t (okay u b) = u.answerOk p k t b := rfl

/-- A request that its block refuses is answered with the status alone (R201). -/
@[simp] theorem deliver_refuse (p : Port) (k : RequestKind) (t : Byte) (u : State) (c : Status) :
    deliver p k.code t (refuse u c) = u.answerNo p k t c := rfl

end Sys2Proof.Machine
end

section
/-! The Angle Base's requests: SET_SPEED (R11), SET_ANGLE_BASE (R13) and LOAD_PATTERN (R15 to R17). -/

namespace Sys2Proof.Machine

variable {s : State} {p : Port} {t : Byte}

/-! ## SET_SPEED -/

theorem exec_setSpeed_of_takesNow {x : Word} {r : Half} (hn : s.takesNow p = true) :
    exec (.setSpeed p t x r) s =
      .next (deliver p RequestKind.setSpeed.code t (handleSetSpeed p x r s)) :=
  request_of_takesNow (i := .setSpeed p t x r) rfl (by simp) rfl hn

/-- The port that sets the target speed under each source (R11). -/
theorem maySet_eq_true_iff {x : SpeedSource} :
    maySet p x = true ↔ x = .model ∧ p = .M ∨ x = .bench ∧ p = .B := by
  cases x <;> simp [maySet]

/-- Who is refused with NOT_SOURCE under each source (R11). -/
theorem maySet_eq_false_iff {x : SpeedSource} :
    maySet p x = false ↔ x = .model ∧ p = .B ∨ x = .bench ∧ p = .M ∨ ∃ n, x = .replay n := by
  cases x <;> cases p <;> simp [maySet]

theorem handleSetSpeed_of_notSource {x : Word} {r : Half} (h : maySet p s.angle.source = false) :
    handleSetSpeed p x r s = refuse s .notSource := if_pos h

theorem handleSetSpeed_of_safe {x : Word} {r : Half} (h : maySet p s.angle.source = true)
    (hm : s.run.mode = .safe) : handleSetSpeed p x r s = refuse s .wrongMode := by
  simp [handleSetSpeed, h, hm]

theorem handleSetSpeed_of_maySet {x : Word} {r : Half} (h : maySet p s.angle.source = true)
    (hm : s.run.mode ≠ .safe) :
    handleSetSpeed p x r s =
      okay { s with angle := { s.angle with target := min x.toNat 64000, ramp := r.toNat } }
        (.speed (min x.toNat 64000) s.angle.speed (decide (64000 < x.toNat))) := by
  simp [handleSetSpeed, h, hm, State.updAngle]

/-- Settles O16: the source check comes before the check of the mode, and what passes both is stored. -/
theorem setSpeedSetsTarget : Obligations.SetSpeedSetsTarget := by
  intro s p tag x r hn
  rw [exec_setSpeed_of_takesNow hn]
  refine ⟨fun hsource => ?_, fun hsource => ⟨fun hsafe => ?_, fun hmode => ?_⟩⟩
  · rw [handleSetSpeed_of_notSource (maySet_eq_false_iff.2 hsource), deliver_refuse]
  · rw [handleSetSpeed_of_safe (maySet_eq_true_iff.2 hsource) hsafe, deliver_refuse]
  · rw [handleSetSpeed_of_maySet (maySet_eq_true_iff.2 hsource) hmode, deliver_okay]

/-! ## SET_ANGLE_BASE -/

/-- The code of each speed source (R203). -/
def sourceCode : SpeedSource → Nat
  | .model => 0
  | .bench => 1
  | .replay n => 4 + n.1

/-- Each source is named by its own code and by no other. -/
theorem sourceOf_eq_some_iff {code : Byte} {x : SpeedSource} :
    sourceOf code = some x ↔ code.toNat = sourceCode x := by
  have h0 : code = 0 ↔ code.toNat = 0 := BitVec.toNat_inj.symm
  have h1 : code = 1 ↔ code.toNat = 1 := BitVec.toNat_inj.symm
  simp only [sourceOf, h0, h1]
  split_ifs with hmodel hbench hreplay
  · cases x <;> simp [sourceCode] <;> omega
  · cases x <;> simp [sourceCode] <;> omega
  · cases x <;> simp [sourceCode, Fin.ext_iff] <;> omega
  · cases x <;> simp [sourceCode] <;> omega

/-- The codes that name no source (R13). -/
theorem sourceOf_eq_none_iff {code : Byte} :
    sourceOf code = none ↔ code.toNat ≠ 0 ∧ code.toNat ≠ 1 ∧ ∀ n : Fin 4, code.toNat ≠ 4 + n.1 := by
  simp only [Option.eq_none_iff_forall_ne_some, ne_eq, sourceOf_eq_some_iff]
  exact ⟨fun h => ⟨h .model, h .bench, fun n => h (.replay n)⟩,
    fun ⟨hmodel, hbench, hreplay⟩ => fun
      | .model => hmodel
      | .bench => hbench
      | .replay n => hreplay n⟩

theorem exec_setAngleBase_of_takesNow {code : Byte} {r : Half} (hn : s.takesNow .B = true) :
    exec (.setAngleBase .B t code r) s =
      .next (deliver .B RequestKind.setAngleBase.code t (handleSetAngleBase code r s)) :=
  request_of_takesNow (i := .setAngleBase .B t code r) rfl (by simp) rfl hn

theorem handleSetAngleBase_of_bad {code : Byte} {r : Half} (h : r = 0 ∨ sourceOf code = none) :
    handleSetAngleBase code r s = refuse s .badValue := by
  unfold handleSetAngleBase
  cases hc : sourceOf code with
  | none => rfl
  | some x =>
    have hr : r = 0 := h.resolve_right (by simp [hc])
    simp [hr]

theorem handleSetAngleBase_of_good {code : Byte} {r : Half} {x : SpeedSource} (hr : r ≠ 0)
    (hx : sourceOf code = some x) :
    handleSetAngleBase code r s =
      okay { s with angle := { s.angle with source := x, safeRamp := r.toNat } } .nothing := by
  have hr' : r.toNat ≠ 0 := fun h => hr (BitVec.eq_of_toNat_eq h)
  simp [handleSetAngleBase, hx, hr', State.updAngle]

/-! ## LOAD_PATTERN -/

/-- The code of each pattern (R203, R205). -/
def patternCode : Pattern → Nat
  | .crank => 0
  | .cam0 => 1
  | .cam1 => 2

theorem patternOf_patternCode (q : Pattern) : patternOf (patternCode q) = some q := by
  cases q <;> rfl

theorem patternOf_eq_none {n : Nat} (h : 2 < n) : patternOf n = none := by
  rw [patternOf, if_neg (by omega), if_neg (by omega), if_neg (by omega)]

@[simp] theorem windowsOf_length (l : List WindowWord) : (windowsOf l).length = l.length :=
  List.length_map _

/-- R16 for a list with a first window: that window is within the pattern's range, the next one begins beyond its end,
and the rest is good. -/
theorem windowsGood_cons {q : Pattern} {w : Window} {l : List Window} :
    windowsGood q (w :: l) = true ↔
      w.start < w.stop ∧ w.stop ≤ q.span ∧ (∀ v ∈ l.head?, w.stop < v.start) ∧ windowsGood q l = true := by
  cases l <;> simp [windowsGood, and_assoc]

/-- R16 compares each window with the next alone; since every start lies below its end, each window then ends before
every later one. -/
theorem windowsGood_iff (q : Pattern) (l : List Window) : windowsGood q l = true ↔
    (∀ w ∈ l, w.start < w.stop ∧ w.stop ≤ q.span) ∧ l.Pairwise fun a b => a.stop < b.start := by
  induction l with
  | nil => simp [windowsGood]
  | cons w l ih =>
    rw [windowsGood_cons, ih, List.forall_mem_cons, List.pairwise_cons]
    constructor
    · rintro ⟨hw, hspan, hnext, hrange, hapart⟩
      refine ⟨⟨⟨hw, hspan⟩, hrange⟩, ?_, hapart⟩
      cases l with
      | nil => exact nofun
      | cons v l =>
        have hwv : w.stop < v.start := hnext v rfl
        have hv : v.start < v.stop := (hrange v List.mem_cons_self).1
        have hlater : ∀ b ∈ l, v.stop < b.start := (List.pairwise_cons.1 hapart).1
        exact List.forall_mem_cons.2 ⟨hwv, fun b hb => hwv.trans (hv.trans (hlater b hb))⟩
    · rintro ⟨⟨⟨hw, hspan⟩, hrange⟩, hlater, hapart⟩
      exact ⟨hw, hspan, fun v hv => hlater v (List.mem_of_mem_head? hv), hrange, hapart⟩

theorem exec_loadPattern_of_takesNow {code : Byte} {l : List WindowWord} (hn : s.takesNow .B = true)
    (hl : l.length ≤ 254) :
    exec (.loadPattern .B t code l) s =
      .next (deliver .B RequestKind.loadPattern.code t (handleLoadPattern code l s)) :=
  request_of_takesNow (i := .loadPattern .B t code l) rfl (by simp; omega) rfl hn

theorem handleLoadPattern_of_noPattern {code : Byte} {l : List WindowWord} (h : 2 < code.toNat) :
    handleLoadPattern code l s = refuse s .badValue := by
  rw [handleLoadPattern, patternOf_eq_none h]

/-- LOAD_PATTERN of a pattern: the list is judged whole, and a good one is placed in the active table in CONFIG and
staged in every other mode (R17). -/
theorem handleLoadPattern_of_pattern {code : Byte} {l : List WindowWord} {q : Pattern}
    (hq : code.toNat = patternCode q) :
    handleLoadPattern code l s =
      if l.length ≤ q.most ∧ windowsGood q (windowsOf l) = true then
        if s.run.mode = .config then
          okay { s with angle := { s.angle with active := s.angle.active.put q (windowsOf l) } } (.placed false)
        else
          okay { s with angle := { s.angle with staged := s.angle.staged.put q (some (windowsOf l)) } }
            (.placed true)
      else refuse s .badValue := by
  rw [handleLoadPattern, hq, patternOf_patternCode]
  simp only [windowsOf_length, State.updAngle]

/-- Settles O17: the codes, the window list, and where a good list goes. -/
theorem angleBaseSettings : Obligations.AngleBaseSettings := by
  refine ⟨fun s tag code r hn => ?_, windowsGood_iff, fun s tag code l hn hl => ?_⟩
  · rw [exec_setAngleBase_of_takesNow hn]
    refine ⟨fun hbad => ?_, fun hr x hx => ?_⟩
    · rw [handleSetAngleBase_of_bad (hbad.imp_right sourceOf_eq_none_iff.2), deliver_refuse]
    · rw [handleSetAngleBase_of_good hr (sourceOf_eq_some_iff.2 hx), deliver_okay]
  · rw [exec_loadPattern_of_takesNow hn hl]
    refine ⟨fun hcode => ?_, fun q hq => ?_⟩
    · rw [handleLoadPattern_of_noPattern hcode, deliver_refuse]
    · rw [handleLoadPattern_of_pattern hq]
      refine ⟨fun hbad => ?_, fun hmost hgood => ⟨fun hconfig => ?_, fun hmode => ?_⟩⟩
      · have hnot : ¬ (l.length ≤ q.most ∧ windowsGood q (windowsOf l) = true) := by
          rintro ⟨hmost, hgood⟩
          rcases hbad with hlong | hlist
          · exact hlong.not_ge hmost
          · exact absurd (hlist.symm.trans hgood) (by decide)
        rw [if_neg hnot, deliver_refuse]
      · rw [if_pos ⟨hmost, hgood⟩, if_pos hconfig, deliver_okay]
      · rw [if_pos ⟨hmost, hgood⟩, if_neg hmode, deliver_okay]

end Sys2Proof.Machine
end

section
/-! The Relay Matrix's requests and commands: SET_RELAY_TIMING (R50) and the relays that a step wants (R51). -/

namespace Sys2Proof.Machine

variable {s : State} {t : Byte}

/-! ## SET_RELAY_TIMING -/

theorem exec_setRelayTiming_of_takesNow {settle timeout : Byte} (hn : s.takesNow .B = true) :
    exec (.setRelayTiming .B t settle timeout) s =
      .next (deliver .B RequestKind.setRelayTiming.code t (handleSetRelayTiming settle timeout s)) :=
  request_of_takesNow (i := .setRelayTiming .B t settle timeout) rfl (by simp) rfl hn

theorem handleSetRelayTiming_of_outOfRange {settle timeout : Byte}
    (h : settle.toNat < 1 ∨ 4 < settle.toNat ∨ timeout.toNat < 5 ∨ 50 < timeout.toNat) :
    handleSetRelayTiming settle timeout s = refuse s .badValue :=
  if_neg (by omega)

theorem handleSetRelayTiming_of_inRange {settle timeout : Byte} (hs : 1 ≤ settle.toNat) (hs' : settle.toNat ≤ 4)
    (ht : 5 ≤ timeout.toNat) (ht' : timeout.toNat ≤ 50) :
    handleSetRelayTiming settle timeout s =
      okay { s with timing := ⟨settle.toNat, timeout.toNat⟩ } (.timing ⟨settle.toNat, timeout.toNat⟩) :=
  if_pos ⟨hs, hs', ht, ht'⟩

/-! ## The settings after a reset -/

@[simp] theorem powerOn_timing : s.powerOn.timing = ⟨3, 20⟩ := rfl

@[simp] theorem rigReset_timing : s.rigReset.timing = ⟨3, 20⟩ := rfl

/-! ## A relay that a step wants in a position -/

section Want

variable {x : Relay} {pos : Position} {r : RelayTiming}

/-- A relay confirmed at rest in the position is not commanded (R51). -/
theorem want_of_confirmed (hm : x.state.moving = false) (hrest : x.state = pos.rest) (hf : x.failed = false) :
    x.want r pos = x := by
  rw [Relay.want, if_neg (by simp [hm]), if_pos ⟨hrest, hf⟩]

/-- A relay at rest in the other position, or whose last movement failed, is commanded (R51). -/
theorem want_of_not_confirmed (hm : x.state.moving = false) (h : x.state ≠ pos.rest ∨ x.failed = true) :
    x.want r pos = x.command r pos := by
  have hnot : ¬ (x.state = pos.rest ∧ x.failed = false) := by
    rintro ⟨hrest, hf⟩
    rcases h with hother | hfailed
    · exact hother hrest
    · exact absurd (hfailed.symm.trans hf) (by decide)
  rw [Relay.want, if_neg (by simp [hm]), if_neg hnot]

/-- A movement records the settings in force at its command (R50). -/
theorem command_eq : x.command r pos =
    { state := pos.moving, failed := false, movement := some ⟨0, r.settle, r.timeout⟩ } := rfl

end Want

/-- Settles O28: the ranges of the settings, their values after a reset, and what a commanded movement records. -/
theorem relayTimingIsSet : Obligations.RelayTimingIsSet := by
  refine ⟨fun s tag x y hn => ?_, fun s => ⟨powerOn_timing, rigReset_timing⟩, fun t pos x hm => ⟨?_, fun h => ?_⟩⟩
  · rw [exec_setRelayTiming_of_takesNow hn]
    refine ⟨fun hout => ?_, fun hs hs' ht ht' => ?_⟩
    · rw [handleSetRelayTiming_of_outOfRange hout, deliver_refuse]
    · rw [handleSetRelayTiming_of_inRange hs hs' ht ht', deliver_okay]
  · exact want_of_confirmed hm
  · rw [want_of_not_confirmed hm h, command_eq]

end Sys2Proof.Machine
end

section
/-! The Segment Table's requests: DEFINE_SEGMENT (R118, R119) and FREE_SEGMENT (R120). -/

namespace Sys2Proof.Machine

variable {s : State} {t x : Byte} {g : Fin 32} {base length : Word}

/-! ## Indices of a table -/

section Index

variable {n w : Nat} {b : BitVec w}

/-- An index past the end of its table names no record. -/
theorem indexIn_eq_none (h : n ≤ b.toNat) : indexIn n b = none :=
  dif_neg h.not_gt

theorem indexIn_eq_some {i : Fin n} (h : b.toNat = i.1) : indexIn n b = some i := by
  simp [indexIn, h]

end Index

/-! ## Stretches that share an address -/

theorem stretchesMeet_iff {b l b' l' : Nat} : stretchesMeet b l b' l' = true ↔ b < b' + l' ∧ b' < b + l := by
  simp [stretchesMeet]

/-- R118, case 4: two stretches that both cover an address meet. -/
theorem stretchesMeet_of_shared {b l b' l' a : Nat} (ha : b ≤ a) (ha' : a < b + l) (hb : b' ≤ a) (hb' : a < b' + l') :
    stretchesMeet b l b' l' = true :=
  stretchesMeet_iff.2 ⟨ha.trans_lt hb', hb.trans_lt ha'⟩

/-- R118: two stretches do not meet where one ends before the other's first address, which may be the very next. -/
theorem stretchesMeet_eq_false_iff {b l b' l' : Nat} :
    stretchesMeet b l b' l' = false ↔ b' + l' ≤ b ∨ b + l ≤ b' := by
  rw [← Bool.not_eq_true, stretchesMeet_iff, not_and_or, not_lt, not_lt]

theorem overlaps_iff {b l : Nat} : s.overlaps g b l = true ↔
    ∃ h, h ≠ g ∧ (s.segment h).defined = true ∧
      stretchesMeet b l (s.segment h).base (s.segment h).length = true := by
  simp [State.overlaps, and_assoc]

theorem overlaps_eq_false_iff {b l : Nat} : s.overlaps g b l = false ↔
    ∀ h, h ≠ g → (s.segment h).defined = true →
      stretchesMeet b l (s.segment h).base (s.segment h).length = false := by
  simp only [← Bool.not_eq_true, overlaps_iff, not_exists, not_and]

/-! ## DEFINE_SEGMENT -/

theorem exec_defineSegment_of_takesNow (hn : s.takesNow .B = true) :
    exec (.defineSegment .B t x base length) s =
      .next (deliver .B RequestKind.defineSegment.code t (handleDefineSegment x base length s)) :=
  request_of_takesNow (i := .defineSegment .B t x base length) rfl (by simp) rfl hn

theorem handleDefineSegment_of_noRecord (h : 32 ≤ x.toNat) :
    handleDefineSegment x base length s = refuse s .badValue := by
  rw [handleDefineSegment, indexIn_eq_none h]

/-- DEFINE_SEGMENT of a record: cases 2 to 4 of R118 in their order, and the write of R119. -/
theorem handleDefineSegment_of_record (h : x.toNat = g.1) :
    handleDefineSegment x base length s =
      if (s.segment g).defined then refuse s .busy
      else if ¬ (2 ≤ length.toNat ∧ base.toNat + length.toNat ≤ memorySize) then refuse s .badValue
      else if s.overlaps g base.toNat length.toNat then refuse s .overlap
      else okay (s.updSegment g fun _ => ⟨true, base.toNat, length.toNat, 0⟩)
        (.segment ⟨true, base.toNat, length.toNat, 0⟩) := by
  rw [handleDefineSegment, indexIn_eq_some h]

/-- The four ranges that R118, case 3, names are those of a stretch too short or past the end of Sample Memory. -/
theorem not_inMemory_of_badStretch {b l : Nat} (h : l < 2 ∨ 1048576 < l ∨ 1048575 < b ∨ 1048576 < b + l) :
    ¬ (2 ≤ l ∧ b + l ≤ memorySize) := by
  unfold memorySize; omega

/-- Settles O37: an index past the table, then the record's state, the stretch and the other segments, in that order. -/
theorem defineSegmentChecks : Obligations.DefineSegmentChecks := by
  intro s tag x b l hn
  rw [exec_defineSegment_of_takesNow hn]
  refine ⟨fun hx => ?_, fun g hg => ?_⟩
  · rw [handleDefineSegment_of_noRecord hx, deliver_refuse]
  rw [handleDefineSegment_of_record hg]
  refine ⟨fun hdef => ?_, fun hfree hbad => ?_, fun hfree hl hend => ⟨?_, fun hapart => ?_⟩⟩
  · rw [if_pos hdef, deliver_refuse]
  · rw [if_neg (by simp [hfree]), if_pos (not_inMemory_of_badStretch hbad), deliver_refuse]
  · rintro ⟨h, hne, hdef, a, ha, ha', hb, hb'⟩
    have hover : s.overlaps g b.toNat l.toNat = true :=
      overlaps_iff.2 ⟨h, hne, hdef, stretchesMeet_of_shared ha ha' hb hb'⟩
    rw [if_neg (by simp [hfree]), if_neg (not_not.2 ⟨hl, hend⟩), if_pos hover, deliver_refuse]
  · have hover : s.overlaps g b.toNat l.toNat = false :=
      overlaps_eq_false_iff.2 fun h hne hdef => stretchesMeet_eq_false_iff.2 (hapart h hne hdef)
    rw [if_neg (by simp [hfree]), if_neg (not_not.2 ⟨hl, hend⟩), if_neg (by simp [hover]), deliver_okay]

/-! ## FREE_SEGMENT -/

theorem exec_freeSegment_of_takesNow (hn : s.takesNow .B = true) :
    exec (.freeSegment .B t x) s =
      .next (deliver .B RequestKind.freeSegment.code t (handleFreeSegment x s)) :=
  request_of_takesNow (i := .freeSegment .B t x) rfl (by simp) rfl hn

theorem handleFreeSegment_of_noRecord (h : 32 ≤ x.toNat) : handleFreeSegment x s = refuse s .badValue := by
  rw [handleFreeSegment, indexIn_eq_none h]

theorem handleFreeSegment_of_referenced (h : x.toNat = g.1) (hdef : (s.segment g).defined = true)
    (hrefs : 0 < (s.segment g).refs) : handleFreeSegment x s = refuse s .busy := by
  simp [handleFreeSegment, indexIn_eq_some h, hdef, hrefs]

theorem handleFreeSegment_of_unreferenced (h : x.toNat = g.1) (hdef : (s.segment g).defined = true)
    (hrefs : (s.segment g).refs = 0) :
    handleFreeSegment x s = okay (s.updSegment g fun _ => ⟨false, 0, 0, 0⟩) (.segment ⟨false, 0, 0, 0⟩) := by
  simp [handleFreeSegment, indexIn_eq_some h, hdef, hrefs]

/-- A segment record written with itself. -/
theorem updSegment_segment_eq_self : (s.updSegment g fun _ => s.segment g) = s := by
  rw [State.updSegment, updV_self rfl]

theorem handleFreeSegment_of_free (h : x.toNat = g.1) (hfree : (s.segment g).defined = false) :
    handleFreeSegment x s = okay s (.segment (s.segment g)) := by
  simp [handleFreeSegment, indexIn_eq_some h, hfree, updSegment_segment_eq_self]

/-- Settles O38: an index past the table, then the record's reference count and state. -/
theorem freeSegmentFrees : Obligations.FreeSegmentFrees := by
  intro s tag x hn
  rw [exec_freeSegment_of_takesNow hn]
  refine ⟨fun hx => ?_, fun g hg => ⟨fun hdef hrefs => ?_, fun hdef hrefs => ?_, fun hfree => ?_⟩⟩
  · rw [handleFreeSegment_of_noRecord hx, deliver_refuse]
  · rw [handleFreeSegment_of_referenced hg hdef hrefs, deliver_refuse]
  · rw [handleFreeSegment_of_unreferenced hg hdef hrefs, deliver_okay]
  · rw [handleFreeSegment_of_free hg hfree, deliver_okay]

end Sys2Proof.Machine
end

section
/-! The replay engines' requests: SET_REPLAY (R131, R132) and the codes of its settings (R205). -/

namespace Sys2Proof.Machine

variable {s : State} {t x : Byte} {g : ReplayArgs} {n : Fin 4} {a : Target} {y : Pacing}

/-! ## The codes of target and pacing, and the ranges of gain and offset -/

theorem targetOf_analog {b : Byte} {c : Fin 12} (h : b.toNat = c.1) : targetOf b = some (.analog c) := by
  rw [targetOf, indexIn_eq_some h]

/-- Above the channels A0 to A11 only the code of SPEED names a target (R205). -/
theorem targetOf_above {b : Byte} (h : 12 ≤ b.toNat) :
    targetOf b = if b = 255 then some .speed else none := by
  rw [targetOf, indexIn_eq_none h]

theorem targetOf_speed : targetOf 255 = some .speed := targetOf_above (by decide)

theorem targetOf_eq_none_iff {b : Byte} : targetOf b = none ↔ 12 ≤ b.toNat ∧ b.toNat ≠ 255 := by
  have h255 : b = 255 ↔ b.toNat = 255 := BitVec.toNat_inj.symm
  rcases Nat.lt_or_ge b.toNat 12 with hlow | habove
  · simp [targetOf_analog (c := ⟨b.toNat, hlow⟩) rfl, hlow]
  · rw [targetOf_above habove, ne_eq, ← h255]
    simp [habove]

theorem pacingOf_time {r : Half} (h : r ≠ 0) : pacingOf 0 r = some (.time r.toNat) := by
  have hr : r.toNat ≠ 0 := fun h0 => h (BitVec.eq_of_toNat_eq h0)
  rw [pacingOf, if_pos rfl, if_pos (Nat.one_le_iff_ne_zero.2 hr)]

theorem pacingOf_angle {r : Half} (h : 8 ≤ r.toNat) (h' : r.toNat ≤ 4096) : pacingOf 1 r = some (.angle r.toNat) := by
  rw [pacingOf, if_neg (by decide), if_pos rfl, if_pos ⟨h, h'⟩]

theorem pacingOf_eq_none_iff {b : BitVec 4} {r : Half} : pacingOf b r = none ↔
    2 ≤ b.toNat ∨ (b = 0 ∧ r = 0) ∨ (b = 1 ∧ (r.toNat < 8 ∨ 4096 < r.toNat)) := by
  have h0 : b = 0 ↔ b.toNat = 0 := BitVec.toNat_inj.symm
  have h1 : b = 1 ↔ b.toNat = 1 := BitVec.toNat_inj.symm
  have hr : r = 0 ↔ r.toNat = 0 := BitVec.toNat_inj.symm
  simp only [pacingOf, h0, h1, hr]
  split_ifs with htime hperiod hangle hrate <;> simp <;> omega

theorem scaleGood_eq_false_iff : scaleGood g = false ↔
    65535 < g.gain.toNat ∨ g.offset.toInt < -65536 ∨ 65535 < g.offset.toInt := by
  rw [scaleGood, Bool.and_eq_false_iff, Bool.and_eq_false_iff, decide_eq_false_iff_not, decide_eq_false_iff_not,
    decide_eq_false_iff_not, Nat.not_le, Int.not_le, Int.not_le, or_assoc]

/-! ## The settings written -/

theorem isSpeed_eq_true_iff : isSpeed a = true ↔ a = .speed := by
  cases a <;> simp [isSpeed]

theorem isSpeed_eq_false_iff : isSpeed a = false ↔ a ≠ .speed := by
  rw [← Bool.not_eq_true, isSpeed_eq_true_iff]

/-- R132: the settings are replaced, the last SPEED output is forgotten as SPEED is given up, and a descriptor that is
current starts over. -/
theorem writeSettings_eq (a : Target) (y : Pacing) (g : ReplayArgs) (e : Engine) :
    writeSettings a y g e =
      { e with
        target := a, pacing := y, interp := g.interp, gain := g.gain.toNat,
        offset := g.offset.toInt, notify := ⟨g.notify.getLsbD 0, g.notify.getLsbD 1⟩,
        lastOut := if e.target = .speed ∧ a ≠ .speed then none else e.lastOut,
        k := if e.current.isSome then 0 else e.k,
        e := if e.current.isSome then 0 else e.e,
        awaiting := if e.current.isSome then y.isAngle else e.awaiting } := by
  simp only [writeSettings, portSetOf, isSpeed_eq_true_iff, isSpeed_eq_false_iff]

/-! ## SET_REPLAY -/

theorem exec_setReplay_of_takesNow (hn : s.takesNow .B = true) :
    exec (.setReplay .B t x g) s =
      .next (deliver .B RequestKind.setReplay.code t (handleSetReplay x g s)) :=
  request_of_takesNow (i := .setReplay .B t x g) rfl (by simp) rfl hn

/-- R131, case 1: a value out of its range. -/
theorem handleSetReplay_of_badValue
    (h : 4 ≤ x.toNat ∨ targetOf g.target = none ∨ pacingOf g.pacing g.rate = none ∨ scaleGood g = false) :
    handleSetReplay x g s = refuse s .badValue := by
  unfold handleSetReplay
  split
  next n a y hx ha hy =>
    have hrecord : ¬ 4 ≤ x.toNat := fun habove => by simp [indexIn_eq_none habove] at hx
    have hscale : scaleGood g = false := by simpa [hrecord, ha, hy] using h
    rw [if_pos hscale]
  next => rfl

/-- SET_REPLAY of good values: the engine's state and the speed source, in the order of R131, and the write of R132. -/
theorem handleSetReplay_of_good (hx : x.toNat = n.1) (ha : targetOf g.target = some a)
    (hy : pacingOf g.pacing g.rate = some y) (hg : scaleGood g = true) :
    handleSetReplay x g s =
      if (s.engine n).state ≠ .idle then refuse s .wrongMode
      else if a = .speed ∧ s.angle.source ≠ .replay n then refuse s .wrongState
      else okay (s.updEngine n fun _ => writeSettings a y g (s.engine n))
        (.engine (writeSettings a y g (s.engine n))) := by
  rw [handleSetReplay, indexIn_eq_some hx, ha, hy]
  exact if_neg (by simp [hg])

/-- Settles O41: the codes and ranges, then the values, the engine's state and the speed source in the order of R131. -/
theorem setReplayWritesSettings : Obligations.SetReplayWritesSettings := by
  refine ⟨fun g => ⟨targetOf_eq_none_iff, pacingOf_eq_none_iff, scaleGood_eq_false_iff⟩,
    ⟨fun b c => targetOf_analog, targetOf_speed, fun r => pacingOf_time, fun r => pacingOf_angle⟩,
    fun s tag x g hn => ?_⟩
  rw [exec_setReplay_of_takesNow hn]
  refine ⟨fun hbad => ?_, fun n a y hx ha hy hg => ?_⟩
  · rw [handleSetReplay_of_badValue hbad, deliver_refuse]
  rw [handleSetReplay_of_good hx ha hy hg]
  refine ⟨fun hbusy => ?_, fun hidle hspeed hsource => ?_, fun hidle hsource =>
    ⟨writeSettings a y g (s.engine n), writeSettings_eq a y g _, ?_⟩⟩
  · rw [if_pos hbusy, deliver_refuse]
  · rw [if_neg (not_not.2 hidle), if_pos ⟨hspeed, hsource⟩, deliver_refuse]
  · rw [if_neg (not_not.2 hidle), if_neg fun h => h.2 (hsource h.1), deliver_okay]

end Sys2Proof.Machine
end

section
/-! The two capture queues: the order of a queue (R157), its notices (R158, R159) and TAKE_CAPTURES (R160). -/

namespace Sys2Proof

variable {q : PortState} {r : CaptureRecord} {l : List CaptureRecord}

/-! ## A record offered to a queue -/

/-- A time is later than another when it follows it by 1 to 2^47 (R157). -/
theorem laterThan_iff {u t : RigTime} :
    Machine.laterThan u t = true ↔ 1 ≤ (u - t).toNat ∧ (u - t).toNat ≤ 2 ^ 47 := by
  rw [Machine.laterThan, Bool.and_eq_true, decide_eq_true_iff, decide_eq_true_iff, Machine.timeSince]

/-- Whether a queued record is later than one that is offered (R157). -/
def CaptureRecord.laterBy (r x : CaptureRecord) : Bool := Machine.laterThan x.stamp.time r.stamp.time

/-- From the tail, the records passed over are the later ones that no earlier record interrupts. -/
theorem placeFromTail_eq (r : CaptureRecord) (l : List CaptureRecord) :
    placeFromTail r l = l.takeWhile r.laterBy ++ r :: l.dropWhile r.laterBy := by
  induction l with
  | nil => rfl
  | cons x l ih =>
    rw [placeFromTail, ← CaptureRecord.laterBy, List.takeWhile_cons, List.dropWhile_cons]
    split_ifs with hlater
    · rw [ih, List.cons_append]
    · rfl

/-- R157: the record stands before the later records at the queue's tail and behind all others. -/
theorem placeRecord_eq (r : CaptureRecord) (l : List CaptureRecord) :
    placeRecord r l = l.rdropWhile r.laterBy ++ r :: l.rtakeWhile r.laterBy := by
  simp [placeRecord, placeFromTail_eq, List.rdropWhile, List.rtakeWhile]

@[simp] theorem placeRecord_length : (placeRecord r l).length = l.length + 1 := by
  have hparts := congrArg List.length (List.rdropWhile_append_rtakeWhile (p := r.laterBy) (l := l))
  rw [List.length_append] at hparts
  rw [placeRecord_eq, List.length_append, List.length_cons]
  omega

theorem PortState.offer_of_room (h : q.captures.length < 128) :
    q.offer r = { q with captures := placeRecord { r with gap := q.gap } q.captures, gap := false } := if_pos h

/-- R158: a full queue drops the record and owes its next one the gap mark. -/
theorem PortState.offer_of_full (h : 128 ≤ q.captures.length) :
    q.offer r = { q with gap := true, sticky := q.sticky ||| 2 } :=
  if_neg h.not_gt

/-! ## The notices of a queue -/

/-- R159: CAPTURE_READY is no sticky flag; it reads as the queue has it. -/
theorem flags_captureReady_iff : q.flags.getLsbD 0 = true ↔ q.captures ≠ [] := by
  cases hq : q.captures <;> simp [PortState.flags, PortState.readyBit, hq]

/-- CAPTURE_GAP reads as its sticky flag, whatever the queue holds (R195). -/
theorem flags_captureGap_eq : q.flags.getLsbD 1 = q.sticky.getLsbD 1 := by
  cases hq : q.captures <;> simp [PortState.flags, PortState.readyBit, hq]

/-- Settles O47: the level of R159, the two outcomes of an offer, the place of R157, and its order of times. -/
theorem captureQueueAndReady : Obligations.CaptureQueueAndReady := by
  refine ⟨fun q => flags_captureReady_iff, fun q r hroom => ⟨PortState.offer_of_room hroom, ?_, ?_⟩,
    fun q r hfull => ⟨PortState.offer_of_full hfull, ?_⟩, fun r l => ?_, fun u t => laterThan_iff⟩
  · rw [PortState.offer_of_room hroom, placeRecord_length]
  · rw [flags_captureReady_iff, PortState.offer_of_room hroom]
    exact List.ne_nil_of_length_pos (by simp)
  · rw [flags_captureGap_eq, PortState.offer_of_full hfull, BitVec.getLsbD_or]
    simp
  · refine ⟨l.rdropWhile r.laterBy, l.rtakeWhile r.laterBy, List.rdropWhile_append_rtakeWhile.symm,
      placeRecord_eq r l, fun x hx => List.mem_rtakeWhile_imp (p := r.laterBy) hx, fun x hx => ?_⟩
    obtain ⟨hne, rfl⟩ := List.mem_getLast?_eq_getLast hx
    exact Bool.eq_false_of_not_eq_true (List.rdropWhile_last_not _ l hne)

namespace Machine

variable {s : State} {p : Port} {t n : Byte}

/-! ## TAKE_CAPTURES -/

theorem exec_takeCaptures_of_takesNow (hn : s.takesNow p = true) :
    exec (.takeCaptures p t n) s =
      .next (deliver p RequestKind.takeCaptures.code t (handleTakeCaptures p n s)) :=
  request_of_takesNow (i := .takeCaptures p t n) rfl (by simp) (by cases p <;> rfl) hn

/-- TAKE_CAPTURES is never refused: what it takes off the head of the queue it answers (R160). -/
theorem handleTakeCaptures_eq : handleTakeCaptures p n s =
    okay (s.updPort p fun q => { q with captures := q.captures.drop (min n.toNat 63) })
      (.captures ((s.port p).captures.take (min n.toNat 63))
        ((s.port p).captures.length - min n.toNat 63) (s.port p).gap) := by
  rw [handleTakeCaptures, List.length_drop]

/-- An update that leaves a port as it is leaves the state as it is. -/
theorem updPort_eq_self {f : PortState → PortState} (h : f (s.port p) = s.port p) : s.updPort p f = s := by
  cases p
  · exact congrArg (fun q => { s with portM := q }) h
  · exact congrArg (fun q => { s with portB := q }) h

/-- R160: a request for no record, or to an empty queue, removes nothing. -/
theorem handleTakeCaptures_of_nothing (h : n = 0 ∨ (s.port p).captures = []) :
    handleTakeCaptures p n s = okay s (.captures [] (s.port p).captures.length (s.port p).gap) := by
  have htake : (s.port p).captures.take (min n.toNat 63) = [] := by
    rcases h with rfl | hempty
    · rfl
    · rw [hempty, List.take_nil]
  have hdrop : (s.port p).captures.drop (min n.toNat 63) = (s.port p).captures := by
    simpa [htake] using List.take_append_drop (min n.toNat 63) (s.port p).captures
  rw [handleTakeCaptures_eq, ← List.length_drop, htake, hdrop, updPort_eq_self (by rw [hdrop])]

/-- Settles O46: the records off the head of the queue, and the requests that find nothing to remove. -/
theorem takeCapturesRemovesOldest : Obligations.TakeCapturesRemovesOldest := by
  intro s p tag n hn
  rw [exec_takeCaptures_of_takesNow hn]
  refine ⟨?_, List.length_take, fun hnothing => ?_⟩
  · rw [handleTakeCaptures_eq, deliver_okay]
  · rw [handleTakeCaptures_of_nothing hnothing, deliver_okay]

end Machine

end Sys2Proof
end

section
/-! The capture inputs: comparator (R151), sampling and filter (R152, R153), and SET_CAPTURE (R163, R164). -/

namespace Sys2Proof

/-! ## One sample of the filter -/

section Sample

variable {x : CaptureInput} {st : Stamp} {l : Bool}

/-- The first sample of an input gives an UNKNOWN level its value (R152). -/
theorem CaptureInput.sample_of_unknown (h : x.level = none) : x.sample st = { x with level := some x.comparator } := by
  simp [CaptureInput.sample, h]

theorem CaptureInput.sample_of_agreeing (h : x.level = some l) (hc : x.comparator = l) :
    x.sample st = { x with disagree := 0, runStamp := none, edge := none } := by
  simp [CaptureInput.sample, h, hc, CaptureInput.restartFilter]

/-- A sample that disagrees carries the stamp of the run's first one; at the agreement count that stamp is the edge's
(R153). -/
theorem CaptureInput.sample_of_disagreeing {first : Option Stamp} (h : x.level = some l) (hc : x.comparator ≠ l)
    (hf : first = if x.disagree = 0 then some st else x.runStamp) :
    x.sample st =
      if x.settings.agreement ≤ x.disagree + 1 then { x with edge := first }
      else { x with disagree := x.disagree + 1, runStamp := first } := by
  simp [CaptureInput.sample, h, hc, hf]

end Sample

/-! ## The edge codes -/

theorem edgeOf_eq_none_iff {n : Nat} : Machine.edgeOf n = none ↔ 3 ≤ n := by
  unfold Machine.edgeOf
  split_ifs <;> simp <;> omega

namespace Machine

variable {s : State} {t b : Byte} {g : CaptureArgs} {y : CaptureSettings} {mv : Int} {x : CaptureInput} {i : Fin 16}

/-! ## The settings a request carries -/

/-- With an edge selection, R163 judges the ranges of the other values. -/
theorem judgeCapture_of_edge {e : EdgeSel} (he : edgeOf g.edges.toNat = some e) :
    judgeCapture g =
      if g.level.toNat ≤ 15 ∧ g.divider.toNat ∈ [1, 2, 4, 8] ∧ g.agreement.toNat ∈ [1, 2, 4] ∧
          g.dest.toNat ≤ 3 then
        some ⟨g.enabled, g.level.toNat, g.divider.toNat, g.agreement.toNat, e,
          ⟨g.dest.getLsbD 0, g.dest.getLsbD 1⟩, g.trip, g.width⟩
      else none := by
  have hdest : g.dest.toNat / 4 = 0 ↔ g.dest.toNat ≤ 3 := by omega
  simp [judgeCapture, he, hdest]

theorem judgeCapture_eq_none_iff : judgeCapture g = none ↔ 15 < g.level.toNat ∨ 3 < g.dest.toNat ∨ g.edges = 3 ∨
    g.divider.toNat ∉ [1, 2, 4, 8] ∨ g.agreement.toNat ∉ [1, 2, 4] := by
  have hedge : g.edges = 3 ↔ edgeOf g.edges.toNat = none := by
    rw [edgeOf_eq_none_iff, ← BitVec.toNat_inj]
    have hlt : g.edges.toNat < 4 := g.edges.isLt
    exact ⟨ge_of_eq, fun h => Nat.le_antisymm (Nat.le_of_lt_succ hlt) h⟩
  rw [hedge]
  cases he : edgeOf g.edges.toNat with
  | none => simp [judgeCapture, he]
  | some e =>
    rw [judgeCapture_of_edge he, ite_eq_right_iff]
    simp only [reduceCtorEq, imp_false, not_and_or, not_le, false_or]
    tauto

/-- Good values are stored as the request carries them (R163). -/
theorem judgeCapture_eq_some (h : judgeCapture g = some y) :
    y.level = g.level.toNat ∧ y.divider = g.divider.toNat ∧ y.agreement = g.agreement.toNat ∧
      y.enabled = g.enabled ∧ y.trip = g.trip ∧ y.width = g.width ∧
      y.dest = ⟨g.dest.getLsbD 0, g.dest.getLsbD 1⟩ ∧ edgeOf g.edges.toNat = some y.edges := by
  cases he : edgeOf g.edges.toNat with
  | none => simp [judgeCapture, he] at h
  | some e =>
    rw [judgeCapture_of_edge he] at h
    split_ifs at h
    cases h
    exact ⟨rfl, rfl, rfl, rfl, rfl, rfl, rfl, rfl⟩

/-! ## The input with its new settings -/

theorem filterDiffers_eq_true_iff {a b : CaptureSettings} : filterDiffers a b = true ↔
    a.level ≠ b.level ∨ a.divider ≠ b.divider ∨ a.agreement ≠ b.agreement := by
  simp [filterDiffers, or_assoc]

theorem filterDiffers_eq_false_iff {a b : CaptureSettings} : filterDiffers a b = false ↔
    a.level = b.level ∧ a.divider = b.divider ∧ a.agreement = b.agreement := by
  simp [filterDiffers, and_assoc]

@[simp] theorem configureInput_settings : (configureInput y mv x).settings = y := by
  unfold configureInput
  split_ifs <;> rfl

/-- A new level is judged against the voltage at once (R151). -/
@[simp] theorem configureInput_comparator : (configureInput y mv x).comparator =
    if y.level = x.settings.level then x.comparator else comparatorNext y.level mv x.comparator := by
  unfold configureInput
  split_ifs <;> rfl

/-- A disabled input has no live state (R164). -/
theorem configureInput_of_disabled (h : y.enabled = false) :
    (configureInput y mv x).level = none ∧ (configureInput y mv x).disagree = 0 ∧
      (configureInput y mv x).runStamp = none ∧ (configureInput y mv x).lastEdge = none ∧
      (configureInput y mv x).edge = none := by
  simp [configureInput, h, CaptureInput.clearLive]

/-- An enabled input keeps its filtered level and its last edge (R164). -/
theorem configureInput_of_enabled (h : y.enabled = true) :
    (configureInput y mv x).level = x.level ∧ (configureInput y mv x).lastEdge = x.lastEdge := by
  simp only [configureInput, h, if_true]
  split_ifs <;> exact ⟨rfl, rfl⟩

/-- R164: under the same filter settings an agreement in progress goes on. -/
theorem configureInput_of_sameFilter (h : y.enabled = true) (hf : filterDiffers y x.settings = false) :
    (configureInput y mv x).disagree = x.disagree ∧ (configureInput y mv x).runStamp = x.runStamp ∧
      (configureInput y mv x).edge = x.edge := by
  simp [configureInput, h, hf]

/-- R164: other filter settings discard an agreement in progress. -/
theorem configureInput_of_otherFilter (h : y.enabled = true) (hf : filterDiffers y x.settings = true) :
    (configureInput y mv x).disagree = 0 ∧ (configureInput y mv x).runStamp = none ∧
      (configureInput y mv x).edge = none := by
  simp [configureInput, h, hf, CaptureInput.restartFilter]

/-! ## SET_CAPTURE -/

theorem exec_setCapture_of_takesNow (hn : s.takesNow .B = true) :
    exec (.setCapture .B t b g) s =
      .next (deliver .B RequestKind.setCapture.code t (handleSetCapture b g s)) :=
  request_of_takesNow (i := .setCapture .B t b g) rfl (by simp) rfl hn

theorem handleSetCapture_of_bad (h : 16 ≤ b.toNat ∨ judgeCapture g = none) :
    handleSetCapture b g s = refuse s .badValue := by
  rcases h with hindex | hvalues
  · rw [handleSetCapture, indexIn_eq_none hindex]
  · cases hi : indexIn 16 b <;> simp [handleSetCapture, hi, hvalues]

theorem handleSetCapture_of_good (hi : b.toNat = i.1) (hy : judgeCapture g = some y) :
    handleSetCapture b g s =
      okay (s.updInput i fun _ => configureInput y (s.pins.captureMv.get i) (s.input i))
        (.capture (configureInput y (s.pins.captureMv.get i) (s.input i))) := by
  rw [handleSetCapture, indexIn_eq_some hi, hy]

/-- Settles O44: the comparator, one sample by the level and the comparator, and SET_CAPTURE by its values, the input
enabled or not, and the filter settings. -/
theorem captureInputsConfigured : Obligations.CaptureInputsConfigured := by
  refine ⟨fun level mv old => rfl, fun s i mv => rfl,
    fun x st => ⟨CaptureInput.sample_of_unknown,
      fun l hl => ⟨CaptureInput.sample_of_agreeing hl, fun first hc hf => ?_⟩⟩,
    ⟨rfl, rfl, rfl, fun n => edgeOf_eq_none_iff.2⟩, fun g => judgeCapture_eq_none_iff, fun s tag b g hn => ?_⟩
  · rw [CaptureInput.sample_of_disagreeing hl hc hf]
    exact ⟨fun hshort => if_neg hshort.not_ge, fun hreached => if_pos hreached⟩
  rw [exec_setCapture_of_takesNow hn]
  refine ⟨fun hbad => ?_, fun i y hi hy => ⟨judgeCapture_eq_some hy,
    configureInput y (s.pins.captureMv.get i) (s.input i), ?_, configureInput_settings, configureInput_comparator,
    configureInput_of_disabled, fun henabled => ?_⟩⟩
  · rw [handleSetCapture_of_bad hbad, deliver_refuse]
  · rw [handleSetCapture_of_good hi hy, deliver_okay]
  · obtain ⟨hlevel, hlast⟩ := configureInput_of_enabled henabled
    exact ⟨hlevel, hlast,
      fun hsame => configureInput_of_sameFilter henabled (filterDiffers_eq_false_iff.2 hsame),
      fun hother => configureInput_of_otherFilter henabled (filterDiffers_eq_true_iff.2 hother)⟩

end Machine

end Sys2Proof
end

section
/-! START and RESUME (R171, R176): the refusals, and what the entry to RUN does to the monitor (R178), the drivers
(R40), the FREE generators (R34) and the replay engines (R146, R147). -/

namespace Sys2Proof

/-- A channel as the part enters RUN from mode `m`, before its generator starts: at START an OFF driver drives, and a
TRIPPED one has no measurement (R40, R41). -/
def Channel.enteringRun (m : Mode) (x : Channel) : Channel :=
  { x with
    driver := if m = .config ∧ x.driver = .off then .driving else x.driver
    limitTicks := if m = .config ∧ x.driver = .tripped then none else x.limitTicks }

/-- `Channel.enteringRun` at START is what `State.mapDrivers` does with `Driver.start`. -/
theorem Channel.enteringRun_config (x : Channel) :
    x.enteringRun .config =
      { x with driver := x.driver.start, limitTicks := if x.driver.start = .driving then x.limitTicks else none } := by
  cases h : x.driver <;> simp [enteringRun, h, Driver.start]

/-- At RESUME every driver is kept (R40). -/
theorem Channel.enteringRun_safe (x : Channel) : x.enteringRun .safe = x := by
  simp [enteringRun]

/-- An engine once the part has started it: a held current descriptor goes on, and an IDLE or UNDERRUN engine without
one takes the head of its queue (R146, R147). -/
def Engine.started (g : Engine) : Engine :=
  match g.current, g.queue with
  | some _, _ => { g with state := .running }
  | none, [] => g
  | none, d :: rest =>
    if g.state = .idle ∨ g.state = .underrun then
      { g with
        state := .running, current := some { d with ready := false }, queue := rest, k := 0, e := 0,
        awaiting := g.pacing.isAngle }
    else g

section EngineStarted

variable {g : Engine}

theorem Engine.started_of_current (h : g.current.isSome = true) : g.started = { g with state := .running } := by
  obtain ⟨q, hq⟩ := Option.isSome_iff_exists.1 h
  simp [started, hq]

theorem Engine.started_of_nothing (hc : g.current = none)
    (h : g.queue = [] ∨ (g.state ≠ .idle ∧ g.state ≠ .underrun)) : g.started = g := by
  rcases h with hq | hs
  · simp [started, hc, hq]
  · cases hq : g.queue <;> simp [started, hc, hq, hs]

theorem Engine.started_of_queued {q : Descriptor} {rest : List Descriptor} (hc : g.current = none)
    (hq : g.queue = q :: rest) (hs : g.state = .idle ∨ g.state = .underrun) :
    g.started = { g with
      state := .running, current := some { q with ready := false }, queue := rest, k := 0, e := 0,
      awaiting := g.pacing.isAngle } := by
  simp [started, hc, hq, hs]

end EngineStarted

namespace Machine

variable {s u : State} {w : Nat} {c d : Fin 24} {n : Fin 4} {b : Value}

/-! ## A fold that visits each index once -/

section Fold

variable {α σ γ : Type} {f : σ → α → σ} {g : σ → α → γ} {l : List α} {x : α}

/-- A fold that does not come to an index leaves its record as it was. -/
theorem foldl_skips (hf : ∀ s x y, x ≠ y → g (f s x) y = g s y) (hx : x ∉ l) (s : σ) :
    g (l.foldl f s) x = g s x := by
  induction l generalizing s with
  | nil => rfl
  | cons y l ih =>
    obtain ⟨hne, hl⟩ := List.ne_and_not_mem_of_not_mem_cons hx
    rw [List.foldl_cons, ih hl, hf s y x hne.symm]

/-- A fold that comes to an index once finds its record as it was, and leaves it as that one step does. -/
theorem foldl_visits (hf : ∀ s x y, x ≠ y → g (f s x) y = g s y) (hl : l.Nodup) (hx : x ∈ l) (s : σ) :
    ∃ a r, l = a ++ x :: r ∧ g (a.foldl f s) x = g s x ∧ g (l.foldl f s) x = g (f (a.foldl f s) x) x := by
  obtain ⟨a, r, rfl⟩ := List.append_of_mem hx
  obtain ⟨ha, hr⟩ : x ∉ a ∧ x ∉ r := by
    rw [List.nodup_middle, List.nodup_cons, List.mem_append, not_or] at hl
    exact hl.1
  refine ⟨a, r, rfl, foldl_skips hf ha s, ?_⟩
  rw [List.foldl_append, List.foldl_cons, foldl_skips hf hr]

end Fold

/-! ## The period start of a FREE channel -/

theorem drawsNoise_eq (e : Option FaultRecord) : drawsNoise e = e.any fun f => f.kind == .noise := by
  cases e <;> rfl

/-- The effective record follows the Fault Table alone (R111). -/
theorem effectiveRecord_congr (h : u.faults = s.faults) : u.effectiveRecord = s.effectiveRecord := by
  have hfault : u.fault = s.fault := by simp only [funext_iff, State.fault, h, implies_true]
  have hbetter : betterRecord u = betterRecord s := by simp only [funext_iff, betterRecord, hfault, implies_true]
  simp only [funext_iff, State.effectiveRecord, State.effective, hbetter, hfault, implies_true]

theorem periodOpens_congr (h : u.faults = s.faults) : u.periodOpens = s.periodOpens := by
  simp only [funext_iff, State.periodOpens, effectiveRecord_congr h, implies_true]

theorem showFree_channel : (s.showFree c).channel c = shownThrough c (s.effectiveRecord c) (s.channel c) := by
  unfold State.showFree shownThrough
  split
  next h =>
    rw [State.updChannel_channel_self]
    cases hg : (s.channel c).gen <;> simp [showPulse, State.pulseActive, h.2, hg]
  next => rfl

@[simp] theorem shownThrough_mode (e : Option FaultRecord) (x : Channel) : (shownThrough c e x).mode = x.mode := by
  unfold shownThrough; split <;> rfl

theorem keepOutput_channel_of_free (hc : kindOf c = .pulse) (hm : (s.channel c).mode = .free) :
    (s.keepOutput c).channel c = { s.channel c with lastOutput := (s.channel c).pin } := by
  simp [State.keepOutput, keepLevel, hc, hm]

theorem showFree_channel_ne (h : c ≠ d) : (s.showFree c).channel d = s.channel d := by
  unfold State.showFree; split <;> simp [h]

theorem openPeriod_channel_ne (h : c ≠ d) : (s.openPeriod c b).channel d = s.channel d := by
  simp [State.openPeriod, State.keepOutput, showFree_channel_ne h, h]

/-- The period start of the model is the one of R32, R107 and R110. -/
theorem openPeriod_opens (hc : kindOf c = .pulse) (hm : (s.channel c).mode = .free) :
    s.periodOpens c b (s.channel c) ((s.openPeriod c b).channel c) := by
  refine ⟨drawsNoise (s.effectiveRecord c), s.nextNoise c, _,
    (effectivePair (s.effectiveRecord c) (s.nextNoise c) b).1, _, _, drawsNoise_eq _, rfl, rfl, ?_, rfl, rfl, ?_⟩
  · exact Int.toNat_of_nonneg (le_trans (by decide) (le_max_left _ _))
  · unfold State.openPeriod
    rw [keepOutput_channel_of_free hc (by simp [showFree_channel, hm]), showFree_channel,
      effectiveRecord_congr (State.updChannel_faults ..), State.updChannel_channel_self]
    simp [effectivePair]

/-! ## Starts of the FREE generators -/

theorem mayStart_eq_true_iff : s.mayStart c = true ↔
    kindOf c = .pulse ∧ (s.channel c).mode = .free ∧ s.run.mode = .run ∧ (s.channel c).gen = none ∧
      (s.channel c).wait = 0 ∧ (s.channel c).ownBase.value ≠ 0 := by
  simp [State.mayStart, and_assoc]

theorem mayStart_congr (hch : u.channel c = s.channel c) (hrun : u.run = s.run) : u.mayStart c = s.mayStart c := by
  simp only [State.mayStart, hch, hrun]

theorem startRequested_of_not_mayStart (h : s.mayStart c = false) : s.startRequested w c = s := by
  simp [State.startRequested, h]

theorem startRequested_channel_ne (s : State) (c d : Fin 24) (h : c ≠ d) :
    (s.startRequested w c).channel d = s.channel d := by
  simp only [State.startRequested, State.startGenerator]
  (repeat' split) <;> simp [openPeriod_channel_ne h, h]

/-- The start that a request brings about (R32 to R34). -/
theorem startRequested_startsAt (h : s.mayStart c = true) :
    s.startsAt (s.startRequested w c) c (s.channel c).ownBase (s.channel c) w := by
  obtain ⟨hc, hm, -⟩ := mayStart_eq_true_iff.1 h
  refine ⟨by simp [State.startRequested, h], fun hw => ?_, fun hw => ?_⟩
  · simpa [State.startRequested, State.startGenerator, h, hw] using openPeriod_opens hc hm
  · simp [State.startRequested, State.startGenerator, h, hw.ne']

/-- The starts come to a pulse channel once, with the channel, Run Control and the Fault Table as they were; and a place
that is kept then is kept to the end. -/
theorem startGenerators_visits (hc : kindOf c = .pulse) :
    ∃ v : State, v.channel c = s.channel c ∧ v.run = s.run ∧ v.faults = s.faults ∧
      s.startGenerators.channel c = (v.startRequested s.startPlace c).channel c ∧
      ((v.startRequested s.startPlace c).place = s.startPlace → s.startGenerators.place = s.startPlace) := by
  obtain ⟨a, r, hl, hbefore, hafter⟩ := foldl_visits (g := State.channel) (l := pulseChannels) (x := c)
    (startRequested_channel_ne (w := s.startPlace)) ((List.nodup_finRange 24).filter _)
    (by simp [pulseChannels, hc]) s
  refine ⟨_, hbefore, foldl_keeps State.run _ (fun u x => by simp) a s,
    foldl_keeps State.faults _ (fun u x => by simp) a s, hafter, fun hplace => ?_⟩
  rw [State.startGenerators, hl, List.foldl_append, List.foldl_cons]
  have hrest := foldl_place (f := State.startRequested s.startPlace) (w := s.startPlace)
    (fun u c => by rw [State.startRequested_place]; split <;> simp) r
    ((a.foldl (State.startRequested s.startPlace) s).startRequested s.startPlace c)
  exact hrest.elim (·.trans hplace) id

theorem startGenerators_channel_of_not_mayStart (h : s.mayStart c = false) :
    s.startGenerators.channel c = s.channel c := by
  by_cases hc : kindOf c = .pulse
  · obtain ⟨v, hch, hrun, -, hvisit, -⟩ := startGenerators_visits (s := s) hc
    rw [hvisit, startRequested_of_not_mayStart ((mayStart_congr hch hrun).trans h), hch]
  · exact foldl_skips (g := State.channel) startRequested_channel_ne (by simp [pulseChannels, hc]) s

theorem startGenerators_startsAt (h : s.mayStart c = true) :
    s.startsAt s.startGenerators c (s.channel c).ownBase (s.channel c) s.startPlace := by
  obtain ⟨v, hch, hrun, hfaults, hvisit, hkept⟩ := startGenerators_visits (s := s) (mayStart_eq_true_iff.1 h).1
  obtain ⟨hplace, hnow, hlater⟩ :=
    startRequested_startsAt (w := s.startPlace) ((mayStart_congr hch hrun).trans h)
  rw [hch, ← hvisit] at hnow hlater
  rw [periodOpens_congr hfaults] at hnow
  exact ⟨hkept hplace, hnow, hlater⟩

/-! ## The replay engines -/

theorem promote_of_cons {q : Descriptor} {rest : List Descriptor} (hq : (s.engine n).queue = q :: rest) :
    s.promote n = { s.updEngine n fun g => { g with
        state := .running, current := some { q with ready := false }, queue := rest, k := 0, e := 0,
        awaiting := g.pacing.isAngle } with due := s.due.erase (.replayAdvance n) } := by
  simp [State.promote, hq]

theorem promote_engine_ne {m : Fin 4} (h : n ≠ m) : (s.promote n).engine m = s.engine m := by
  cases hq : (s.engine n).queue with
  | nil => simp [State.promote, hq]
  | cons q rest => rw [promote_of_cons hq]; exact State.updEngine_engine_ne _ _ h

theorem startEngine_engine_ne (s : State) (n m : Fin 4) (h : n ≠ m) : (s.startEngine n).engine m = s.engine m := by
  simp only [State.startEngine]
  split_ifs with hcurrent hidle
  · exact State.updEngine_engine_ne _ _ h
  · exact promote_engine_ne h
  · rfl

/-- The engine's record and the model's start of it agree. -/
theorem startEngine_engine_self (s : State) (n : Fin 4) : (s.startEngine n).engine n = (s.engine n).started := by
  cases hc : (s.engine n).current with
  | some d => simp [State.startEngine, Engine.started, hc]
  | none =>
    cases hq : (s.engine n).queue with
    | nil => simp [State.startEngine, State.promote, Engine.started, hc, hq]
    | cons d rest =>
      simp only [State.startEngine, Engine.started, hc, hq, Option.isSome_none, Bool.false_eq_true, if_false]
      split
      · rw [promote_of_cons hq]; exact State.updEngine_engine_self ..
      · rfl

theorem filter_erase_of_eq_false {α : Type} [DecidableEq α] {p : α → Bool} {x : α} (h : p x = false) (l : List α) :
    (l.erase x).filter p = l.filter p := by
  by_cases hm : x ∈ l
  · obtain ⟨a, r, -, rfl, her⟩ := List.exists_erase_eq hm
    simp [her, h]
  · rw [List.erase_of_not_mem hm]

/-- Of the events due, an engine that starts removes its own advance alone (R146, R147). -/
theorem startEngine_due (s : State) (n : Fin 4) :
    ((s.startEngine n).due.filter fun e => !e.isAdvance) = s.due.filter fun e => !e.isAdvance := by
  simp only [State.startEngine]
  split_ifs with hcurrent hidle
  · rfl
  · cases hq : (s.engine n).queue with
    | nil => simp [State.promote, hq]
    | cons q rest => rw [promote_of_cons hq]; exact filter_erase_of_eq_false rfl _
  · rfl

theorem startEngines_due (s : State) :
    (s.startEngines.due.filter fun e => !e.isAdvance) = s.due.filter fun e => !e.isAdvance :=
  foldl_keeps (fun u : State => u.due.filter fun e => !e.isAdvance) _ startEngine_due _ s

theorem startEngines_engine (s : State) (n : Fin 4) : s.startEngines.engine n = (s.engine n).started := by
  obtain ⟨a, r, -, hbefore, hafter⟩ := foldl_visits (g := State.engine) startEngine_engine_ne
    (List.nodup_finRange 4) (List.mem_finRange n) s
  rw [State.startEngines, hafter, startEngine_engine_self, hbefore]

/-! ## The entry to RUN -/

/-- The part as it enters RUN, before its generators and engines start. -/
def State.enteringRun (s : State) : State :=
  { s with
    run := { s.run with mode := .run, monitor := s.run.monitor.start }
    channels := mapV (fun _ x => x.enteringRun s.run.mode) s.channels }

/-- The part that has entered RUN. -/
def State.enteredRun (s : State) : State := s.enteringRun.startGenerators.startEngines

/-- START enters RUN (R171). -/
theorem startRun_eq (h : s.run.mode = .config) : s.startRun = s.enteredRun := by
  simp only [State.startRun, State.enteredRun, State.enteringRun, State.mapDrivers, State.updRun, h,
    Channel.enteringRun_config]

/-- RESUME enters RUN (R176). -/
theorem resumeRun_eq (h : s.run.mode = .safe) : s.resumeRun = s.enteredRun := by
  have hkept : mapV (fun _ x => Channel.enteringRun .safe x) s.channels = s.channels :=
    vector_ext_get fun i => (mapV_get ..).trans (Channel.enteringRun_safe _)
  simp only [State.resumeRun, State.enteredRun, State.enteringRun, State.updRun, h, hkept]

@[simp] theorem enteringRun_channel : s.enteringRun.channel c = (s.channel c).enteringRun s.run.mode := mapV_get ..

@[simp] theorem enteringRun_place : s.enteringRun.place = s.place := by simp only [State.enteringRun]

@[simp] theorem enteringRun_due : s.enteringRun.due = s.due := by simp only [State.enteringRun]

@[simp] theorem enteringRun_halfDone : s.enteringRun.halfDone = s.halfDone := by simp only [State.enteringRun]

@[simp] theorem enteringRun_faults : s.enteringRun.faults = s.faults := by simp only [State.enteringRun]

theorem enteredRun_run : s.enteredRun.run = { s.run with mode := .run, monitor := s.run.monitor.start } := by
  simp [State.enteredRun, State.enteringRun]

theorem enteredRun_frame (s : State) :
    s.enteredRun = { s with
      run := s.enteredRun.run, channels := s.enteredRun.channels, engines := s.enteredRun.engines,
      due := s.enteredRun.due, freeCount := s.enteredRun.freeCount, place := s.enteredRun.place } := by
  apply State.ext <;> simp [State.enteredRun, State.enteringRun]

theorem enteredRun_due (s : State) :
    (s.enteredRun.due.filter fun e => !e.isAdvance) = s.due.filter fun e => !e.isAdvance := by
  rw [State.enteredRun, startEngines_due]
  simp [State.enteringRun]

theorem enteredRun_channel : s.enteredRun.channel c = s.enteringRun.startGenerators.channel c := by
  simp [State.channel, State.enteredRun]

theorem enteredRun_place : s.enteredRun.place = s.enteringRun.startGenerators.place := by
  simp [State.enteredRun]

/-- The grid point of the starts is one that is open as the request is taken (assumption 23). -/
theorem enteringRun_startPlace_allowed (s : State) : s.mayOpenAt s.enteringRun.startPlace := by
  have h := s.enteringRun.startPlace_allowed
  have hevent (c) : gridEvent c (s.enteringRun.channel c) = gridEvent c (s.channel c) := by
    rw [enteringRun_channel]; rfl
  simpa only [State.mayOpenAt, hevent, enteringRun_place, enteringRun_due, enteringRun_halfDone] using h

theorem enteringRun_mayStart : s.enteringRun.mayStart c = true ↔
    kindOf c = .pulse ∧ (s.channel c).mode = .free ∧ (s.channel c).gen = none ∧ (s.channel c).wait = 0 ∧
      (s.channel c).ownBase.value ≠ 0 := by
  rw [mayStart_eq_true_iff, enteringRun_channel]
  simp [State.enteringRun, Channel.enteringRun, Channel.ownBase]

theorem enteringRun_mayStart_eq_false (h : kindOf c ≠ .pulse ∨ (s.channel c).mode = .wheel ∨
      (s.channel c).gen.isSome = true ∨ 0 < (s.channel c).wait ∨ (s.channel c).ownBase.value = 0) :
    s.enteringRun.mayStart c = false := by
  rw [← Bool.not_eq_true, enteringRun_mayStart]
  rintro ⟨hpulse, hfree, hgen, hwait, hbase⟩
  simp [hpulse, hfree, hgen, hwait, hbase] at h

theorem enteredRun_channel_of_not_mayStart (h : s.enteringRun.mayStart c = false) :
    s.enteredRun.channel c = (s.channel c).enteringRun s.run.mode := by
  rw [enteredRun_channel, startGenerators_channel_of_not_mayStart h, enteringRun_channel]

theorem enteredRun_startsAt (h : s.enteringRun.mayStart c = true) :
    s.startsAt s.enteredRun c (s.channel c).ownBase ((s.channel c).enteringRun s.run.mode)
      s.enteringRun.startPlace := by
  have hstart := startGenerators_startsAt h
  rw [enteringRun_channel] at hstart
  obtain ⟨hplace, hnow, hlater⟩ := hstart
  rw [← enteredRun_channel] at hnow hlater
  rw [periodOpens_congr enteringRun_faults] at hnow
  exact ⟨enteredRun_place.trans hplace, hnow, hlater⟩

theorem enteredRun_place_cases : s.enteredRun.place = s.place ∨ s.enteredRun.place = s.enteringRun.startPlace := by
  simpa only [enteredRun_place, enteringRun_place] using s.enteringRun.startGenerators_place

theorem enteredRun_engine : s.enteredRun.engine n = (s.engine n).started := by
  rw [State.enteredRun, startEngines_engine]
  simp [State.engine, State.enteringRun]

/-! ## START and RESUME -/

section Requests

variable {t : Byte}

theorem exec_start_of_takesNow (hn : s.takesNow .B = true) :
    exec (.start .B t) s = .next (deliver .B RequestKind.start.code t (handleStart s)) :=
  request_of_takesNow (i := .start .B t) rfl (by simp) rfl hn

theorem exec_resume_of_takesNow (hn : s.takesNow .B = true) :
    exec (.resume .B t) s = .next (deliver .B RequestKind.resume.code t (handleResume s)) :=
  request_of_takesNow (i := .resume .B t) rfl (by simp) rfl hn

theorem handleStart_of_wrongMode (h : s.run.mode ≠ .config ∨ s.run.safe.level = true) :
    handleStart s = refuse s .wrongMode := if_pos h

theorem handleResume_of_wrongMode (h : s.run.mode ≠ .safe ∨ s.run.safe.level = true) :
    handleResume s = refuse s .wrongMode := if_pos h

theorem any_resumeBusy_eq_true_iff : ((List.finRange 64).any fun k => resumeBusy (s.fault k)) = true ↔
    ∃ k, (s.fault k).state = .starting ∨ (s.fault k).state = .stopping := by
  simp [resumeBusy]

theorem handleResume_of_busy (hm : s.run.mode = .safe) (hl : s.run.safe.level = false)
    (h : ∃ k, (s.fault k).state = .starting ∨ (s.fault k).state = .stopping) :
    handleResume s = refuse s .busy := by
  rw [handleResume, if_neg (by simp [hm, hl]), if_pos (any_resumeBusy_eq_true_iff.2 h)]

/-- The mode and the monitor's state of the OK response (R171, R176, R178). -/
theorem okay_enteredRun : okay s.enteredRun (.mode s.enteredRun.run.mode s.enteredRun.run.monitor.state) =
    okay s.enteredRun (.mode .run (if s.run.monitor.enabled then .onTime else .off)) := by
  rw [enteredRun_run]
  cases he : s.run.monitor.enabled <;> simp [Monitor.start, he]

theorem handleStart_of_taken (hm : s.run.mode = .config) (hl : s.run.safe.level = false) :
    handleStart s = okay s.enteredRun (.mode .run (if s.run.monitor.enabled then .onTime else .off)) := by
  rw [← okay_enteredRun, ← startRun_eq hm]
  exact if_neg (by simp [hm, hl])

theorem handleResume_of_taken (hm : s.run.mode = .safe) (hl : s.run.safe.level = false)
    (h : ∀ k, (s.fault k).state ≠ .starting ∧ (s.fault k).state ≠ .stopping) :
    handleResume s = okay s.enteredRun (.mode .run (if s.run.monitor.enabled then .onTime else .off)) := by
  rw [← okay_enteredRun, ← resumeRun_eq hm, handleResume, if_neg (by simp [hm, hl]), if_neg]
  rw [any_resumeBusy_eq_true_iff]
  rintro ⟨k, hk⟩
  exact hk.elim (h k).1 (h k).2

/-- Both requests, once taken, enter RUN in the same way. -/
theorem exec_of_entersRun {i : Instr} {kind : RequestKind} (hn : s.takesNow .B = true)
    (h : i = .start .B t ∧ kind = .start ∧ s.run.mode = .config ∨
      i = .resume .B t ∧ kind = .resume ∧ s.run.mode = .safe ∧
        ∀ k, (s.fault k).state ≠ .starting ∧ (s.fault k).state ≠ .stopping)
    (hl : s.run.safe.level = false) :
    exec i s = .next (s.enteredRun.answerOk .B kind t
      (.mode .run (if s.run.monitor.enabled then .onTime else .off))) := by
  obtain ⟨rfl, rfl, hm⟩ | ⟨rfl, rfl, hm, hfaults⟩ := h
  · rw [exec_start_of_takesNow hn, handleStart_of_taken hm hl, deliver_okay]
  · rw [exec_resume_of_takesNow hn, handleResume_of_taken hm hl hfaults, deliver_okay]

end Requests

/-- Settles O48: the refusals, then the entry to RUN that both requests share: Run Control, the events due, each
channel by whether its generator starts, and each engine by what it holds. -/
theorem startAndResumeEnterRun : Obligations.StartAndResumeEnterRun := by
  intro s tag hn
  refine ⟨fun hmode => ?_, fun hmode => ?_, fun hsafe hline hbusy => ?_, fun i kind hi hline => ?_⟩
  · rw [exec_start_of_takesNow hn, handleStart_of_wrongMode hmode, deliver_refuse]
  · rw [exec_resume_of_takesNow hn, handleResume_of_wrongMode hmode, deliver_refuse]
  · rw [exec_resume_of_takesNow hn, handleResume_of_busy hsafe hline hbusy, deliver_refuse]
  refine ⟨s.enteredRun, s.enteringRun.startPlace, exec_of_entersRun hn hi hline, enteredRun_frame s,
    enteringRun_startPlace_allowed s, enteredRun_place_cases, enteredRun_run, enteredRun_due s,
    fun d => ⟨_, _, rfl, rfl, fun hstays => ?_, fun hpulse hfree hgen hwait hbase => ?_⟩, fun n => ?_⟩
  · exact enteredRun_channel_of_not_mayStart (enteringRun_mayStart_eq_false hstays)
  · exact enteredRun_startsAt (enteringRun_mayStart.2 ⟨hpulse, hfree, hgen, hwait, hbase⟩)
  · rw [enteredRun_engine]
    exact ⟨Engine.started_of_current, Engine.started_of_nothing, fun d rest => Engine.started_of_queued⟩

end Machine

end Sys2Proof
end

section
/-! What the Fault Table and the Relay Matrix leave of a channel and of a port: only its pin with the FREEZE mark, its
current-limit measurement, and its sticky flags change. -/

namespace Sys2Proof

/-- A channel without its pin and its current-limit measurement. -/
def Channel.core (ch : Channel) : Channel := { ch with pin := 0, pinHeld := false, limitTicks := none }

namespace Machine

/-- What no activation, no relay sequence and no pass of the wait list touches of the channels and the capture queues. -/
def State.steady (s : State) : (Fin 24 → Channel) × (List CaptureRecord × Bool) × List CaptureRecord × Bool :=
  (fun c => (s.channel c).core, (s.portM.captures, s.portM.gap), s.portB.captures, s.portB.gap)

variable {s u : State}

theorem core_of_steady (h : u.steady = s.steady) (c : Fin 24) : (u.channel c).core = (s.channel c).core :=
  congrFun (congrArg Prod.fst h) c

theorem captures_of_steady (h : u.steady = s.steady) (p : Port) : (u.port p).captures = (s.port p).captures := by
  cases p
  · exact congrArg (fun x => x.2.1.1) h
  · exact congrArg (fun x => x.2.2.1) h

/-- An operation that leaves the channels and the capture queues is steady. -/
theorem steady_of_fields (hc : u.channels = s.channels) (hm : u.portM = s.portM) (hb : u.portB = s.portB) :
    u.steady = s.steady := by
  simp [State.steady, State.channel, hc, hm, hb]

@[simp] theorem steady_updFault (s : State) (k : Fin 64) (f : FaultRecord → FaultRecord) :
    (s.updFault k f).steady = s.steady := rfl

@[simp] theorem steady_updRelaySet (s : State) (c : Fin 24) (f : RelaySet → RelaySet) :
    (s.updRelaySet c f).steady = s.steady := rfl

@[simp] theorem steady_updRun (s : State) (f : RunControl → RunControl) : (s.updRun f).steady = s.steady := rfl
@[simp] theorem steady_updAngle (s : State) (f : AngleBase → AngleBase) : (s.updAngle f).steady = s.steady := rfl
@[simp] theorem steady_dropDue (s : State) (p : Event → Bool) : (s.dropDue p).steady = s.steady := rfl
@[simp] theorem steady_addDue (s : State) (l : List Event) : (s.addDue l).steady = s.steady := rfl
@[simp] theorem steady_took (s : State) (e : Event) : (s.took e).steady = s.steady := rfl

/-- A change of a channel that leaves its core is steady. -/
theorem steady_updChannel {c : Fin 24} {f : Channel → Channel} (h : (f (s.channel c)).core = (s.channel c).core) :
    (s.updChannel c f).steady = s.steady := by
  have hcore (d : Fin 24) : ((s.updChannel c f).channel d).core = (s.channel d).core := by
    by_cases hd : c = d
    · subst hd; simpa using h
    · simp [hd]
  simp [State.steady, hcore]

@[simp] theorem steady_raiseBoth (s : State) (n : Notice) : (s.raiseBoth n).steady = s.steady := rfl

@[simp] theorem steady_raiseSet (s : State) (ps : PortSet) (n : Notice) : (s.raiseSet ps n).steady = s.steady := by
  obtain ⟨_ | _, _ | _⟩ := ps <;> rfl

@[simp] theorem steady_showFree (s : State) (c : Fin 24) : (s.showFree c).steady = s.steady := by
  unfold State.showFree
  split
  · exact steady_updChannel rfl
  · rfl

/-! ## The replay engines -/

@[simp] theorem steady_updEngine (s : State) (n : Fin 4) (f : Engine → Engine) : (s.updEngine n f).steady = s.steady := rfl

@[simp] theorem steady_dropRef (s : State) (g : Fin 32) : (s.dropRef g).steady = s.steady := rfl

@[simp] theorem steady_promote (s : State) (n : Fin 4) : (s.promote n).steady = s.steady := by
  unfold State.promote
  split <;> rfl

@[simp] theorem steady_endDescriptor (s : State) (n : Fin 4) (b : Bool) : (s.endDescriptor n b).steady = s.steady := by
  unfold State.endDescriptor
  split
  · rfl
  · split
    · rfl
    · dsimp only
      split_ifs <;> simp

@[simp] theorem steady_movePosition (s : State) (n : Fin 4) (d : Nat) (b : Bool) :
    (s.movePosition n d b).steady = s.steady := by
  unfold State.movePosition
  dsimp only
  split
  · split <;> simp
  · simp

@[simp] theorem steady_tickEngine (x : BitVec 32) (b : Bool) (s : State) (n : Fin 4) :
    (s.tickEngine x b n).steady = s.steady := by
  unfold State.tickEngine
  dsimp only
  (repeat' split) <;> simp

@[simp] theorem steady_tickEngines (s : State) (x : BitVec 32) (b : Bool) : (s.tickEngines x b).steady = s.steady := by
  unfold State.tickEngines
  split
  · exact foldl_keeps State.steady _ (fun u n => steady_tickEngine x b u n) _ _
  · rfl

@[simp] theorem steady_takeReplayAdvance (s : State) (n : Fin 4) : (s.takeReplayAdvance n).steady = s.steady := by
  unfold State.takeReplayAdvance
  dsimp only
  (repeat' split) <;> simp

/-! ## The Fault Table -/

@[simp] theorem steady_tickFaults (s : State) (d : Nat) (b : Bool) : (s.tickFaults d b).steady = s.steady :=
  steady_of_fields (by simp) (by simp) (by simp)

@[simp] theorem steady_noteAtTime (s : State) : s.noteAtTime.steady = s.steady :=
  steady_of_fields (by simp) (by simp) (by simp)

@[simp] theorem steady_sampleBattery (s : State) : s.sampleBattery.steady = s.steady := rfl

@[simp] theorem steady_enterDone (s : State) (k : Fin 64) : (s.enterDone k).steady = s.steady := by
  simp [State.enterDone]

@[simp] theorem steady_enterFailed (s : State) (k : Fin 64) (why : FailReason) :
    (s.enterFailed k why).steady = s.steady := by
  simp [State.enterFailed]

@[simp] theorem steady_enterActive (s : State) (k : Fin 64) : (s.enterActive k).steady = s.steady := by
  unfold State.enterActive
  dsimp only
  split <;> simp

@[simp] theorem steady_fireFuel (n : Nat) (s : State) (k : Fin 64) : (fireFuel n s k).steady = s.steady := by
  induction n generalizing s k with
  | zero => rfl
  | succ n ih =>
    unfold fireFuel
    dsimp only
    split_ifs
    · rw [foldl_keeps State.steady (fireFuel n) ih, steady_enterActive]
    · exact steady_enterFailed s k _
    · rfl
    · rfl

@[simp] theorem steady_fire (s : State) (k : Fin 64) : (s.fire k).steady = s.steady := steady_fireFuel 65 s k

@[simp] theorem steady_produce (s : State) (k : Fin 64) (e : FaultEvent) : (s.produce k e).steady = s.steady :=
  foldl_keeps State.steady State.fire steady_fire _ _

@[simp] theorem steady_endActivation (s : State) (k : Fin 64) : (s.endActivation k).steady = s.steady := by
  unfold State.endActivation
  dsimp only
  split_ifs <;> simp

@[simp] theorem steady_takeAtTime (s : State) (k : Fin 64) : (s.takeAtTime k).steady = s.steady := by
  unfold State.takeAtTime
  dsimp only
  (repeat' split) <;> simp

@[simp] theorem steady_takeOnCapture (s : State) (k : Fin 64) : (s.takeOnCapture k).steady = s.steady := by
  unfold State.takeOnCapture
  split <;> simp

@[simp] theorem steady_fireAtAngle (s : State) (a d : Nat) (c c' : Half) :
    (s.fireAtAngle a d c c').steady = s.steady := by
  unfold State.fireAtAngle
  split
  · exact foldl_keeps State.steady State.fire steady_fire _ _
  · rfl

@[simp] theorem steady_takeCaptureTrigger (s : State) (e : Event) : (takeCaptureTrigger s e).steady = s.steady := by
  cases e <;> simp [takeCaptureTrigger]

@[simp] theorem steady_fireCounted (s : State) : s.fireCounted.steady = s.steady := by
  unfold State.fireCounted
  split
  · exact foldl_keeps State.steady takeCaptureTrigger steady_takeCaptureTrigger _ _
  · rfl

/-! ## The Relay Matrix -/

/-- Only the relay records change as steps run. -/
theorem runSteps_eq (s : State) (i : Nat) (l : List (List Wish)) :
    (runSteps s i l).1 = { s with relays := (runSteps s i l).1.relays } := by
  apply State.ext <;> simp

@[simp] theorem steady_runSteps (s : State) (i : Nat) (l : List (List Wish)) :
    (runSteps s i l).1.steady = s.steady :=
  steady_of_fields (by simp) (by simp) (by simp)

@[simp] theorem steady_releaseHolders (s : State) (k : Fin 64) : (s.releaseHolders k).steady = s.steady :=
  steady_of_fields (by simp) (by simp) (by simp)

@[simp] theorem steady_stopComplete (s : State) (k : Fin 64) : (s.stopComplete k).steady = s.steady := by
  simp [State.stopComplete]

/-- A sequence that goes on is steady where its completion is. -/
theorem steady_goOn {done : State → Fin 64 → State} (h : ∀ u k, (done u k).steady = u.steady) (s : State)
    (k : Fin 64) (b : Bool) (i : Nat) : (s.goOn k b i done).steady = s.steady := by
  unfold State.goOn
  dsimp only
  split
  · simp
  · rw [h, steady_runSteps]

@[simp] theorem steady_beginStop (s : State) (k : Fin 64) : (s.beginStop k).steady = s.steady :=
  (steady_goOn steady_stopComplete _ k true 0).trans (steady_updFault s k _)

@[simp] theorem steady_startComplete (s : State) (k : Fin 64) : (s.startComplete k).steady = s.steady := by
  unfold State.startComplete
  dsimp only
  split <;> simp

@[simp] theorem steady_beginStart (s : State) (k : Fin 64) : (s.beginStart k).steady = s.steady :=
  (steady_goOn steady_startComplete _ k false 0).trans (steady_updFault s k _)

@[simp] theorem steady_normEnded (s : State) (c : Fin 24) : (s.normEnded c).steady = s.steady :=
  steady_of_fields (by simp) (by simp) (by simp)

@[simp] theorem steady_normFails (s : State) (c : Fin 24) : (s.normFails c).steady = s.steady := by
  unfold State.normFails
  rw [steady_normEnded, steady_raiseBoth, steady_updChannel rfl, steady_updRelaySet]

@[simp] theorem steady_normFrom (s : State) (c : Fin 24) (i : Nat) : (s.normFrom c i).steady = s.steady :=
  steady_of_fields (by simp) (by simp) (by simp)

@[simp] theorem steady_beginNorms (s : State) (l : List (Fin 24)) : (s.beginNorms l).steady = s.steady :=
  steady_of_fields (by simp) (by simp) (by simp)

@[simp] theorem steady_recover (s : State) : s.recover.steady = s.steady := steady_beginNorms s _

@[simp] theorem steady_sequenceFailed (s : State) (k : Fin 64) : (s.sequenceFailed k).steady = s.steady := by
  simp [State.sequenceFailed]

@[simp] theorem steady_normAdvance (s : State) (c : Fin 24) (n : NormStep) : (s.normAdvance c n).steady = s.steady := by
  unfold State.normAdvance
  dsimp only
  split_ifs <;> simp

@[simp] theorem steady_seqAdvance (s : State) (k : Fin 64) (q : Sequence) : (s.seqAdvance k q).steady = s.steady := by
  unfold State.seqAdvance
  dsimp only
  split_ifs
  · rfl
  · exact steady_sequenceFailed s k
  · exact steady_goOn steady_stopComplete ..
  · exact steady_goOn steady_startComplete ..

@[simp] theorem steady_movementEnded (s : State) (c : Fin 24) : (s.movementEnded c).steady = s.steady := by
  unfold State.movementEnded
  (repeat' split) <;> simp

@[simp] theorem steady_takeMoveComplete (s : State) (c : Fin 24) (r : RelayName) :
    (s.takeMoveComplete c r).steady = s.steady := by
  unfold State.takeMoveComplete
  split <;> simp

@[simp] theorem steady_takeMoveFail (s : State) (c : Fin 24) (r : RelayName) :
    (s.takeMoveFail c r).steady = s.steady := by
  unfold State.takeMoveFail
  split <;> simp

@[simp] theorem steady_tickRelays (s : State) : s.tickRelays.steady = s.steady :=
  steady_of_fields (by simp) (by simp) (by simp)

@[simp] theorem steady_takeDurationEnd (s : State) (k : Fin 64) : (s.takeDurationEnd k).steady = s.steady := by
  unfold State.takeDurationEnd
  dsimp only
  split_ifs <;> simp

/-! ## The wait list -/

/-- Only the relay records, a fault record and the buses change as a record takes what it needs. -/
@[simp] theorem steady_take (s : State) (k : Fin 64) : (s.take k).steady = s.steady := by
  unfold State.take
  dsimp only
  split_ifs
  · simp
  · simp
  · split <;> exact (steady_beginStart _ k).trans (steady_of_fields (by simp) (by simp) (by simp))
  · exact (steady_beginStart _ k).trans (steady_of_fields (by simp) (by simp) (by simp))

@[simp] theorem steady_examine (s : State) : s.examine.steady = s.steady := by
  unfold State.examine
  refine (foldl_keeps (fun acc : State × List (Fin 64) => acc.1.steady) examineOne ?_ s.wholeList _).trans rfl
  rintro ⟨u, l⟩ k
  simp only [examineOne]
  split <;> simp

@[simp] theorem steady_settleFuel (n : Nat) (s : State) : (settleFuel n s).steady = s.steady := by
  induction n generalizing s with
  | zero => rfl
  | succ n ih =>
    unfold settleFuel
    split
    · rw [ih, steady_examine]
    · rfl

@[simp] theorem steady_settle (s : State) : s.settle.steady = s.steady := steady_settleFuel 65 s

@[simp] theorem steady_leaveList (s : State) (k : Fin 64) : (s.leaveList k).steady = s.steady := rfl

@[simp] theorem steady_safeRecord (s : State) (k : Fin 64) : (s.safeRecord k).steady = s.steady := by
  unfold State.safeRecord
  split
  · simp
  · simp
  · rfl
  · rfl
  · dsimp only
    split <;> simp
  all_goals rfl

@[simp] theorem steady_safeFaults (s : State) : s.safeFaults.steady = s.steady :=
  foldl_keeps State.steady State.safeRecord steady_safeRecord _ _

@[simp] theorem steady_release (s : State) (k : Fin 64) : (s.release k).steady = s.steady := steady_safeRecord s k

end Machine

end Sys2Proof
end

section
/-! What a request can leave, said once: one case for each request that changes anything but its port's response
queue. -/

namespace Sys2Proof.Machine

/-- The channel of a SET_CHANNEL with the present fields written, its generator stopped where a mode was (R44). -/
def State.fieldsWritten (s : State) (c : Fin 24) (g : ChannelArgs) : State :=
  if g.wheel.isSome then (s.updChannel c (writeFields (kindOf c) g s.run.mode)).stopGenerator c
  else s.updChannel c (writeFields (kindOf c) g s.run.mode)

/-- A forced value written, with the use of the free draw of the response counted (R31). -/
def State.forcedWritten (s : State) (c : Fin 24) (v : Value) : State :=
  let t := s.updChannel c fun ch => { ch with forced := v }
  if t.needsDraw c then t.useFree else t

/-- A STEP_MARK's copies, and the monitor's mark in RUN (R29, R179). -/
def State.marked (s : State) : State :=
  if s.run.mode = .run then s.copySlots.updRun fun r => { r with monitor := r.monitor.mark } else s.copySlots

/-- The state in which a STOP is judged: the triggers counted at the instant have fired (assumption 6). -/
def State.judgedForStop (s : State) : State :=
  if s.due.any Event.isOnCapture then s.fireCounted.settle else s

/-- A descriptor queued with its reference, and the engine started where it starts on it (R134). -/
def State.enqueue (s : State) (n : Fin 4) (d : Descriptor) : State :=
  let t := (s.updSegment d.segment fun y => { y with refs := y.refs + 1 }).updEngine n fun e =>
    { e with queue := e.queue ++ [d] }
  if s.startsOnQueue n then t.promote n else t

/-- An engine with every descriptor and its reference gone (R135). -/
def State.discardAll (s : State) (n : Fin 4) : State :=
  ((heldDescriptors (s.engine n)).foldl (fun s d => s.dropRef d.segment) s).updEngine n fun e =>
    { e with state := .idle, current := none, queue := [], k := 0, e := 0, awaiting := false }

/-- What a request can leave of the state `s`, before its response is placed. -/
inductive Leaves (s : State) : State → Prop
  | same : Leaves s s
  | start (hm : s.run.mode = .config) : Leaves s s.startRun
  | resume (hm : s.run.mode = .safe) (hf : ∀ k, resumeBusy (s.fault k) = false) : Leaves s s.resumeRun
  | counted : Leaves s s.judgedForStop
  | stop (hm : s.judgedForStop.run.mode ≠ .config) (hf : ∀ k, stopBusy (s.judgedForStop.fault k) = false)
      (hr : s.judgedForStop.anyMoving = false) : Leaves s s.judgedForStop.stopRun
  | enterSafe (hm : s.run.mode = .run) : Leaves s (s.enterSafe .request).settle
  | reset : Leaves s s.rigReset
  | deadline (m : Monitor) (hm : s.run.mode = .config) (ht : m.timer = s.run.monitor.timer) :
      Leaves s (s.updRun fun r => { r with monitor := m })
  | speed (v r : Nat) (hv : v ≤ 64000) : Leaves s (s.updAngle fun a => { a with target := v, ramp := r })
  | angleBase (x : SpeedSource) (r : Nat) : Leaves s (s.updAngle fun a => { a with source := x, safeRamp := r })
  | active (q : Pattern) (l : List Window) (h : tableGood q l) :
      Leaves s (s.updAngle fun a => { a with active := a.active.put q l })
  | staged (q : Pattern) (l : List Window) (h : tableGood q l) :
      Leaves s (s.updAngle fun a => { a with staged := a.staged.put q (some l) })
  | live (l : List GoodEntry) : Leaves s ((l.foldl State.applyEntry s).pairsWritten (writesLive l))
  | stepMark : Leaves s s.marked
  | channel (c : Fin 24) (g : ChannelArgs)
      (hm : (g.wheel.isSome || g.pattern.isSome) = true → s.run.mode = .config) :
      Leaves s (if ((s.fieldsWritten c g).channel c).source = (s.channel c).source then s.fieldsWritten c g
        else (s.fieldsWritten c g).basePairChanged s.startPlace c)
  | force (c : Fin 24) (v : Value) : Leaves s ((s.forcedWritten c v).basePairChanged s.startPlace c)
  | timing (t : RelayTiming) : Leaves s { s with timing := t }
  | arm (k : Fin 64) (g : FaultArgs) (r : FaultRecord) (hk : s.recordBusy k = false)
      (hr : judgeFault s k g = some r) : Leaves s (s.updFault k fun _ => r)
  | release (k : Fin 64) : Leaves s (s.release k).settle
  | clear (k : Fin 64) (hk : s.recordBusy k = false) : Leaves s (s.updFault k fun _ => {})
  | define (g : Fin 32) (b l : Nat) (hg : (s.segment g).defined = false) (hl : 2 ≤ l ∧ b + l ≤ memorySize)
      (ho : s.overlaps g b l = false) : Leaves s (s.updSegment g fun _ => ⟨true, b, l, 0⟩)
  | free (g : Fin 32) (hg : (s.segment g).defined = true) (hr : (s.segment g).refs = 0) :
      Leaves s (s.updSegment g fun _ => {})
  | transfer (x : Transfer) (hx : x.address = (s.segment x.segment).base + x.offset)
      (hg : (s.segment x.segment).defined = true)
      (hr : rangeGood (s.segment x.segment) x.offset x.count = true)
      (hw : x.write = true → x.samples.length = x.count) : Leaves s (s.beginTransfer x)
  | setReplay (n : Fin 4) (x : Target) (y : Pacing) (g : ReplayArgs) (hn : (s.engine n).state = .idle) :
      Leaves s (s.updEngine n fun _ => writeSettings x y g (s.engine n))
  | queueReplay (n : Fin 4) (d : Descriptor) (hq : (s.engine n).queue.length < 8)
      (hg : (s.segment d.segment).defined = true) (hd : d.ready = true) : Leaves s (s.enqueue n d)
  | stopReplay (n : Fin 4) : Leaves s ((s.discardAll n).took (.replayAdvance n)).settle
  | setCapture (i : Fin 16) (g : CaptureArgs) (x : CaptureSettings) (hx : judgeCapture g = some x) :
      Leaves s (s.updInput i fun _ => configureInput x (s.pins.captureMv.get i) (s.input i))
  | takeCaptures (p : Port) (n : Nat) :
      Leaves s (s.updPort p fun q => { q with captures := q.captures.drop n })
  | clearNotices (p : Port) (w : BitVec 9) :
      Leaves s ((s.updPort p fun q => { q with sticky := q.sticky &&& ~~~w }).recoveries p w)
  | enables (p : Port) (w : BitVec 9) : Leaves s (s.updPort p fun q => { q with enables := w })

variable (s : State)

@[simp] theorem refuse_state (c : Status) : (refuse s c).state = s := rfl
@[simp] theorem okay_state (b : Body) : (okay s b).state = s := rfl

/-! ## What the parts of a request leave unchanged -/

/-- A release has the effect of an entry to SAFE on its record (R75, R113). -/
theorem release_eq_safeRecord (k : Fin 64) : s.release k = s.safeRecord k := rfl

theorem judgedForStop_frame : s.judgedForStop = { s with
    channels := s.judgedForStop.channels, relays := s.judgedForStop.relays, buses := s.judgedForStop.buses,
    faults := s.judgedForStop.faults, waitList := s.judgedForStop.waitList, joining := s.judgedForStop.joining,
    examineDue := s.judgedForStop.examineDue, portM := s.judgedForStop.portM, portB := s.judgedForStop.portB,
    due := s.judgedForStop.due } := by
  unfold State.judgedForStop
  split
  · apply State.ext <;> simp
  · rfl

@[simp] theorem steady_judgedForStop : s.judgedForStop.steady = s.steady := by
  unfold State.judgedForStop
  split <;> simp

theorem applyEntries_frame (l : List GoodEntry) : l.foldl State.applyEntry s = { s with
    channels := (l.foldl State.applyEntry s).channels, lastEcho := (l.foldl State.applyEntry s).lastEcho } := by
  induction l generalizing s with
  | nil => rfl
  | cons g l ih =>
    have hstep : s.applyEntry g = { s with
        channels := (s.applyEntry g).channels, lastEcho := (s.applyEntry g).lastEcho } := by
      unfold State.applyEntry
      split <;> apply State.ext <;> simp
    rw [List.foldl_cons]
    refine (ih _).trans ?_
    rw [hstep]

theorem liveUpdated_frame (l : List GoodEntry) (q : Fin 24 → Bool) :
    (l.foldl State.applyEntry s).pairsWritten q = { s with
      channels := ((l.foldl State.applyEntry s).pairsWritten q).channels
      lastEcho := ((l.foldl State.applyEntry s).pairsWritten q).lastEcho
      freeCount := ((l.foldl State.applyEntry s).pairsWritten q).freeCount
      place := ((l.foldl State.applyEntry s).pairsWritten q).place } := by
  have h := applyEntries_frame s l
  generalize l.foldl State.applyEntry s = u at h
  apply State.ext <;> simp <;> rw [h]

theorem marked_frame : s.marked = { s with
    channels := s.marked.channels, lastEcho := s.marked.lastEcho, freeCount := s.marked.freeCount,
    place := s.marked.place, run := s.marked.run } := by
  unfold State.marked
  split <;> apply State.ext <;> simp

theorem fieldsWritten_frame (c : Fin 24) (g : ChannelArgs) :
    s.fieldsWritten c g = { s with channels := (s.fieldsWritten c g).channels } := by
  unfold State.fieldsWritten
  split <;> apply State.ext <;> simp

theorem forcedWritten_frame (c : Fin 24) (v : Value) : s.forcedWritten c v = { s with
    channels := (s.forcedWritten c v).channels, freeCount := (s.forcedWritten c v).freeCount } := by
  unfold State.forcedWritten
  dsimp only
  split <;> rfl

theorem enqueue_frame (n : Fin 4) (d : Descriptor) : s.enqueue n d = { s with
    segments := (s.enqueue n d).segments, engines := (s.enqueue n d).engines, due := (s.enqueue n d).due } := by
  unfold State.enqueue
  dsimp only
  split <;> apply State.ext <;> simp

theorem dropRefs_frame (l : List Descriptor) : l.foldl (fun s d => s.dropRef d.segment) s =
    { s with segments := (l.foldl (fun s d => s.dropRef d.segment) s).segments } := by
  induction l generalizing s with
  | nil => rfl
  | cons d l ih => rw [List.foldl_cons]; exact ih _

theorem discardAll_frame (n : Fin 4) : s.discardAll n = { s with
    segments := (s.discardAll n).segments, engines := (s.discardAll n).engines } := by
  unfold State.discardAll
  rw [dropRefs_frame]
  rfl

theorem recoveries_frame (p : Port) (w : BitVec 9) : s.recoveries p w = { s with
    channels := (s.recoveries p w).channels, relays := (s.recoveries p w).relays, buses := (s.recoveries p w).buses,
    examineDue := (s.recoveries p w).examineDue } := by
  cases p with
  | M => rfl
  | B =>
    unfold State.recoveries
    dsimp only
    split_ifs <;> apply State.ext <;> simp

/-- A transfer that is taken begins, or waits (R124). -/
theorem beginTransfer_frame (x : Transfer) : s.beginTransfer x = { s with
    moving := (s.beginTransfer x).moving, queued := (s.beginTransfer x).queued } := by
  unfold State.beginTransfer
  split <;> rfl

/-! ## A reported edge -/

/-- The report of an edge up to the entry to SAFE that a trip input brings about (R153 to R161). -/
def State.edgeRecorded (s : State) (i : Fin 16) (l : Bool) (st : Stamp) : State :=
  let x := s.input i
  let t := s.updInput i fun x => { x.restartFilter with level := some !l, lastEdge := some st }
  (if x.settings.edges.selects !l then t.offer x.settings.dest ⟨i, !l, st, false, x.edgeWidth st⟩
    else t).countEdge i !l

/-- The report's edge is one that the input selects, and the input trips (R162). -/
abbrev State.trips (s : State) (i : Fin 16) (l : Bool) : Prop :=
  (s.input i).settings.edges.selects (!l) = true ∧ (s.input i).settings.trip = true ∧ s.run.mode = .run

theorem edgeRecorded_frame (i : Fin 16) (l : Bool) (st : Stamp) : s.edgeRecorded i l st = { s with
    inputs := (s.edgeRecorded i l st).inputs, faults := (s.edgeRecorded i l st).faults,
    due := (s.edgeRecorded i l st).due, portM := (s.edgeRecorded i l st).portM,
    portB := (s.edgeRecorded i l st).portB } := by
  unfold State.edgeRecorded
  dsimp only
  split <;> apply State.ext <;> simp

/-- What the report of an agreed edge does. -/
theorem takeCaptureReport_cases (i : Fin 16) : s.takeCaptureReport i = s ∨
    ∃ l st, (s.input i).level = some l ∧ (s.input i).edge = some st ∧
      (¬ s.trips i l ∧ s.takeCaptureReport i = s.edgeRecorded i l st ∨
        s.trips i l ∧ s.takeCaptureReport i = (s.edgeRecorded i l st).enterSafe (.trip i)) := by
  cases hl : (s.input i).level with
  | none => exact .inl (by simp [State.takeCaptureReport, hl])
  | some l =>
    cases he : (s.input i).edge with
    | none => exact .inl (by simp [State.takeCaptureReport, hl, he])
    | some st =>
      refine .inr ⟨l, st, rfl, rfl, ?_⟩
      have hrun : (s.edgeRecorded i l st).run = s.run := by rw [edgeRecorded_frame]
      have heq : s.takeCaptureReport i =
          if (s.input i).settings.edges.selects (!l) = true ∧ (s.input i).settings.trip = true ∧
              (s.edgeRecorded i l st).run.mode = .run then
            (s.edgeRecorded i l st).enterSafe (.trip i) else s.edgeRecorded i l st := by
        simp only [State.takeCaptureReport, hl, he, State.edgeRecorded]
      rw [heq, hrun]
      by_cases h : s.trips i l
      · exact .inr ⟨h, if_pos h⟩
      · exact .inl ⟨h, if_neg h⟩

/-! ## Run Control and the Angle Base -/

theorem handleStart_leaves : Leaves s (handleStart s).state := by
  by_cases h : s.run.mode ≠ .config ∨ s.run.safe.level = true
  · rw [handleStart, if_pos h, refuse_state]
    exact .same
  · rw [handleStart, if_neg h, okay_state]
    exact .start (not_not.1 (not_or.1 h).1)

/-- STOP judges the state in which the counted triggers have fired. -/
theorem handleStop_eq : handleStop s =
    if s.judgedForStop.run.mode = .config then refuse s.judgedForStop .wrongMode
    else if (List.finRange 64).any (fun k => stopBusy (s.judgedForStop.fault k)) then refuse s.judgedForStop .busy
    else if s.judgedForStop.anyMoving then refuse s.judgedForStop .busy
    else okay s.judgedForStop.stopRun (.modeOnly s.judgedForStop.stopRun.run.mode) := by
  rw [handleStop, ← State.judgedForStop]

theorem handleStop_leaves : Leaves s (handleStop s).state := by
  rw [handleStop_eq]
  by_cases hm : s.judgedForStop.run.mode = .config
  · rw [if_pos hm, refuse_state]
    exact .counted
  rw [if_neg hm]
  by_cases hf : (List.finRange 64).any (fun k => stopBusy (s.judgedForStop.fault k)) = true
  · rw [if_pos hf, refuse_state]
    exact .counted
  rw [if_neg hf]
  by_cases hr : s.judgedForStop.anyMoving = true
  · rw [if_pos hr, refuse_state]
    exact .counted
  · rw [if_neg hr, okay_state]
    exact .stop hm (by simpa using hf) (by simpa using hr)

theorem handleEnterSafe_leaves : Leaves s (handleEnterSafe s).state := by
  unfold handleEnterSafe
  split
  · exact .same
  next hm =>
    rw [okay_state]
    exact .enterSafe hm
  · exact .same

theorem handleResume_leaves : Leaves s (handleResume s).state := by
  by_cases h : s.run.mode ≠ .safe ∨ s.run.safe.level = true
  · rw [handleResume, if_pos h, refuse_state]
    exact .same
  rw [handleResume, if_neg h]
  by_cases hf : (List.finRange 64).any (fun k => resumeBusy (s.fault k)) = true
  · rw [if_pos hf, refuse_state]
    exact .same
  · rw [if_neg hf, okay_state]
    exact .resume (not_not.1 (not_or.1 h).1) (by simpa using hf)

theorem handleSetDeadline_leaves (en : Bool) (l : BitVec 4) (d : Half) :
    Leaves s (handleSetDeadline en l d s).state := by
  unfold handleSetDeadline
  by_cases hm : s.run.mode ≠ .config
  · rw [if_pos hm]
    exact .same
  rw [if_neg hm]
  split
  · rw [okay_state]
    exact .deadline _ (not_not.1 hm) (by split <;> rfl)
  · exact .same

theorem handleSetSpeed_leaves (p : Port) (x : Word) (r : Half) : Leaves s (handleSetSpeed p x r s).state := by
  unfold handleSetSpeed
  split_ifs
  · exact .same
  · exact .same
  · exact .speed _ _ (Nat.min_le_right _ _)

theorem handleSetAngleBase_leaves (x : Byte) (r : Half) : Leaves s (handleSetAngleBase x r s).state := by
  unfold handleSetAngleBase
  split
  · exact .same
  · split
    · exact .same
    · exact .angleBase _ _

theorem handleLoadPattern_leaves (x : Byte) (l : List WindowWord) : Leaves s (handleLoadPattern x l s).state := by
  unfold handleLoadPattern
  split
  · exact .same
  · dsimp only
    split_ifs with hl hm
    · exact .active _ _ hl
    · exact .staged _ _ hl
    · exact .same

theorem handleReadPattern_leaves (x : Byte) (g : Bool) : Leaves s (handleReadPattern x g s).state := by
  unfold handleReadPattern
  split
  · exact .same
  · dsimp only
    split <;> exact .same

/-! ## The Output Stage and the Relay Matrix -/

theorem handleLiveUpdate_leaves (l : List LiveEntry) : Leaves s (handleLiveUpdate l s).state := by
  unfold handleLiveUpdate
  split
  · exact .same
  · exact .live _

theorem handleStepMark_leaves : Leaves s (handleStepMark s).state := .stepMark

theorem handleSetChannel_leaves (c : Byte) (g : ChannelArgs) : Leaves s (handleSetChannel c g s).state := by
  unfold handleSetChannel
  split
  · exact .same
  next c' _ =>
    dsimp only
    split
    · exact .same
    by_cases hmode : (g.wheel.isSome || g.pattern.isSome) = true ∧ s.run.mode ≠ .config
    · rw [if_pos hmode]
      exact .same
    rw [if_neg hmode]
    split
    · exact .same
    · rw [okay_state, ← State.fieldsWritten]
      exact .channel c' g fun hheld => not_not.1 fun hne => hmode ⟨hheld, hne⟩

theorem handleForce_leaves (c : BitVec 6) (x : BitVec 24) (v : Word) : Leaves s (handleForce c x v s).state := by
  unfold handleForce
  split
  · exact .same
  · dsimp only
    split
    · exact .same
    · split
      · exact .same
      · exact .force _ _

theorem handleReadChannel_leaves (c : Byte) : Leaves s (handleReadChannel c s).state := by
  unfold handleReadChannel
  split <;> exact .same

theorem handleSetRelayTiming_leaves (x y : Byte) : Leaves s (handleSetRelayTiming x y s).state := by
  unfold handleSetRelayTiming
  split
  · exact .timing _
  · exact .same

theorem handleReadRelays_leaves (c : Byte) : Leaves s (handleReadRelays c s).state := by
  unfold handleReadRelays
  split <;> exact .same

/-! ## The Fault Table -/

theorem handleArmFault_leaves (k : Byte) (g : FaultArgs) : Leaves s (handleArmFault k g s).state := by
  unfold handleArmFault
  split
  · exact .same
  · split_ifs with hk
    · exact .same
    · split
      · exact .same
      · next hr => exact .arm _ g _ (by simpa using hk) hr

theorem handleReleaseFault_leaves (k : Byte) : Leaves s (handleReleaseFault k s).state := by
  unfold handleReleaseFault
  split
  · exact .same
  · split
    · exact .release _
    · exact .same

theorem handleClearFault_leaves (k : Byte) : Leaves s (handleClearFault k s).state := by
  unfold handleClearFault
  split
  · exact .same
  · split_ifs with hk
    · exact .same
    · exact .same
    · exact .clear _ (by simpa using hk)

theorem handleReadFault_leaves (k : Byte) : Leaves s (handleReadFault k s).state := by
  unfold handleReadFault
  split <;> exact .same

/-! ## Sample Memory, segments and engines -/

theorem handleDefineSegment_leaves (g : Byte) (b l : Word) : Leaves s (handleDefineSegment g b l s).state := by
  unfold handleDefineSegment
  split
  · exact .same
  next g' _ =>
    dsimp only
    split_ifs with hd hr ho
    · exact .same
    · exact .same
    · rw [okay_state]
      exact .define _ _ _ (by simpa using hd) hr (by simpa using ho)
    · exact .same

theorem handleFreeSegment_leaves (g : Byte) : Leaves s (handleFreeSegment g s).state := by
  unfold handleFreeSegment
  split
  · exact .same
  · next g' _ =>
    split_ifs with hr hd
    · exact .same
    · exact .free g' hd (by simpa [hd] using hr)
    · rw [okay_state, updSegment_segment_eq_self]
      exact .same

theorem handleReadSegment_leaves (g : Byte) : Leaves s (handleReadSegment g s).state := by
  unfold handleReadSegment
  split <;> exact .same

theorem handleWriteSamples_leaves (p : Port) (t g : Byte) (o : Word) (l : List Half) :
    Leaves s (handleWriteSamples p t g o l s).state := by
  unfold handleWriteSamples
  split
  · exact .same
  · dsimp only
    split_ifs with hd hr hb
    · exact .same
    · exact .same
    · exact .same
    · exact .transfer ⟨p, t, true, _, o.toNat, _, l.length, l⟩ rfl (by simpa using hd) (by simpa using hr) fun _ => rfl

theorem handleReadSamples_leaves (p : Port) (t g : Byte) (o : Word) (n : Half) :
    Leaves s (handleReadSamples p t g o n s).state := by
  unfold handleReadSamples
  split
  · exact .same
  · dsimp only
    split_ifs with hd hr
    · exact .same
    · exact .same
    · exact .transfer ⟨p, t, false, _, o.toNat, _, n.toNat, []⟩ rfl (by simpa using hd) (by simpa using hr) nofun

theorem handleSetReplay_leaves (n : Byte) (g : ReplayArgs) : Leaves s (handleSetReplay n g s).state := by
  unfold handleSetReplay
  split
  · split_ifs with hg hn hx
    · exact .same
    · exact .same
    · exact .same
    · exact .setReplay _ _ _ g (not_not.1 hn)
  · exact .same

theorem handleQueueReplay_leaves (n : Byte) (g : DescriptorArgs) : Leaves s (handleQueueReplay n g s).state := by
  unfold handleQueueReplay
  split
  · next n' x _ _ =>
    split_ifs with hq hg hd
    · exact .same
    · exact .same
    · exact .same
    all_goals
      convert Leaves.queueReplay n' ⟨x, g.first.toNat, g.count.toNat, g.loops.toNat, g.final, true⟩
        (not_le.1 hq) (by simpa using hg) rfl using 1
      simp only [State.enqueue, *, if_true, Bool.false_eq_true, if_false, okay_state]
  · exact .same

theorem handleStopReplay_leaves (n : Byte) : Leaves s (handleStopReplay n s).state := by
  unfold handleStopReplay
  split
  · exact .same
  · exact .stopReplay _

theorem handleReadReplay_leaves (n : Byte) : Leaves s (handleReadReplay n s).state := by
  unfold handleReadReplay
  split <;> exact .same

/-! ## The Capture Unit and the notices -/

theorem handleSetCapture_leaves (i : Byte) (g : CaptureArgs) : Leaves s (handleSetCapture i g s).state := by
  unfold handleSetCapture
  split
  · next hx => exact .setCapture _ g _ hx
  · exact .same

theorem handleReadCaptureState_leaves (i : Byte) : Leaves s (handleReadCaptureState i s).state := by
  unfold handleReadCaptureState
  split <;> exact .same

theorem handleClearNotices_leaves (p : Port) (w : Word) : Leaves s (handleClearNotices p w s).state := by
  unfold handleClearNotices
  split
  · exact .clearNotices p _
  · exact .same

theorem handleSetNoticeEnable_leaves (p : Port) (w : Word) : Leaves s (handleSetNoticeEnable p w s).state := by
  unfold handleSetNoticeEnable
  split
  · exact .enables p _
  · exact .same

/-- What a request leaves is one of the cases of `Leaves`. -/
theorem handle_leaves (i : Instr) : Leaves s (handle i s).state := by
  cases i with
  | start _ _ => exact handleStart_leaves s
  | stop _ _ => exact handleStop_leaves s
  | enterSafe _ _ => exact handleEnterSafe_leaves s
  | resume _ _ => exact handleResume_leaves s
  | resetRig _ _ => exact .reset
  | setDeadline _ _ en l d => exact handleSetDeadline_leaves s en l d
  | setSpeed p _ x r => exact handleSetSpeed_leaves s p x r
  | setAngleBase _ _ x r => exact handleSetAngleBase_leaves s x r
  | loadPattern _ _ x l => exact handleLoadPattern_leaves s x l
  | readPattern _ _ x g => exact handleReadPattern_leaves s x g
  | liveUpdate _ _ l => exact handleLiveUpdate_leaves s l
  | stepMark _ _ => exact handleStepMark_leaves s
  | setChannel _ _ c g => exact handleSetChannel_leaves s c g
  | force _ _ c x v => exact handleForce_leaves s c x v
  | readChannel _ _ c => exact handleReadChannel_leaves s c
  | setRelayTiming _ _ x y => exact handleSetRelayTiming_leaves s x y
  | readRelays _ _ c => exact handleReadRelays_leaves s c
  | armFault _ _ k g => exact handleArmFault_leaves s k g
  | releaseFault _ _ k => exact handleReleaseFault_leaves s k
  | clearFault _ _ k => exact handleClearFault_leaves s k
  | readFault _ _ k => exact handleReadFault_leaves s k
  | defineSegment _ _ g b l => exact handleDefineSegment_leaves s g b l
  | freeSegment _ _ g => exact handleFreeSegment_leaves s g
  | writeSamples p t g o l => exact handleWriteSamples_leaves s p t g o l
  | readSamples p t g o n => exact handleReadSamples_leaves s p t g o n
  | readSegment _ _ g => exact handleReadSegment_leaves s g
  | setReplay _ _ n g => exact handleSetReplay_leaves s n g
  | queueReplay _ _ n g => exact handleQueueReplay_leaves s n g
  | stopReplay _ _ n => exact handleStopReplay_leaves s n
  | readReplay _ _ n => exact handleReadReplay_leaves s n
  | setCapture _ _ i g => exact handleSetCapture_leaves s i g
  | takeCaptures p _ n => exact .takeCaptures p _
  | readCaptureState _ _ i => exact handleReadCaptureState_leaves s i
  | clearNotices p _ w => exact handleClearNotices_leaves s p w
  | setNoticeEnable p _ w => exact handleSetNoticeEnable_leaves s p w
  | _ => exact .same

end Sys2Proof.Machine
end

section
/-! What a step can do to the Angle Base, and with it the ranges of the speeds (R7) and of the pattern tables (R15). -/

namespace Sys2Proof

/-- What an operation can do to the Angle Base. -/
inductive AngleMove (a : AngleBase) : AngleBase → Prop
  | advance : AngleMove a a.advance
  | target (v r : Nat) (hv : v ≤ 64000) : AngleMove a { a with target := v, ramp := r }
  | ramp : AngleMove a a.rampStep
  | safeRamp : AngleMove a a.safeStep
  | stop : AngleMove a a.stop
  | settings (x : SpeedSource) (r : Nat) : AngleMove a { a with source := x, safeRamp := r }
  | active (q : Pattern) (l : List Window) (h : Machine.tableGood q l) :
      AngleMove a { a with active := a.active.put q l }
  | staged (q : Pattern) (l : List Window) (h : Machine.tableGood q l) :
      AngleMove a { a with staged := a.staged.put q (some l) }
  | rigReset : AngleMove a { active := a.active }
  | powerOn : AngleMove a {}

namespace Machine

open Relation

variable {s : State} {a : AngleBase}

/-- An operation that changes nothing makes no move. -/
theorem moves_of_eq {α : Type} {r : α → α → Prop} {x y : α} (h : y = x) : ReflTransGen r x y := h ▸ .refl

/-- The output of a SPEED engine lies in 0..64000 (R140). -/
theorem computeOutput_speed {g : Engine} (ht : g.target = .speed) (hc : (computeOutput s g).computes = true) :
    ((computeOutput s g).lastOut.getD 0).toNat ≤ 64000 := by
  unfold computeOutput at hc ⊢
  split at hc
  · simp only [Engine.output, ht, Target.top, clampInt, Option.getD_some]
    omega
  next hne =>
    have hrun : g.state = .running ∧ g.awaiting = false ∧ g.current.isSome = true := by
      simpa [Engine.computes, and_assoc] using hc
    obtain ⟨hr, hw, hd⟩ := hrun
    obtain ⟨d, hd⟩ := Option.isSome_iff_exists.1 hd
    exact absurd hd (hne d hr hw)

@[simp] theorem computeOutput_target (g : Engine) : (computeOutput s g).target = g.target := by
  unfold computeOutput
  split <;> rfl

theorem computeSpeed_moves : ReflTransGen AngleMove s.angle s.computeSpeed.angle := by
  unfold State.computeSpeed
  dsimp only
  split
  next n _ =>
    split
    next h =>
      refine .single (.target _ _ ?_)
      rw [mapV_get] at h ⊢
      cases ht : (s.engines.get n).target with
      | speed =>
        simp only [ht] at h ⊢
        exact computeOutput_speed ht h.2
      | analog c => simp [ht] at h
    · exact .refl
  · exact .refl
  · exact .refl

theorem rampBoundary_moves : ReflTransGen AngleMove s.angle s.rampBoundary.angle := by
  unfold State.rampBoundary
  split
  · exact .refl
  · split
    · exact .refl
    · exact .single .ramp
  · exact .single .safeRamp

theorem takeMillisecond_moves : ReflTransGen AngleMove s.angle s.takeMillisecond.angle := by
  unfold State.takeMillisecond
  split
  · exact computeSpeed_moves.trans rampBoundary_moves
  · exact rampBoundary_moves

theorem enterSafe_moves (why : SafeCause) : ReflTransGen AngleMove s.angle (s.enterSafe why).angle := by
  unfold State.enterSafe
  split
  · simpa using ReflTransGen.single (AngleMove.target (a := s.angle) 0 s.angle.ramp (Nat.zero_le _))
  · exact .refl

theorem takeSafeLine_moves : ReflTransGen AngleMove s.angle s.takeSafeLine.angle := by
  unfold State.takeSafeLine
  dsimp only
  split_ifs
  · exact enterSafe_moves (s := s.updRun _) _
  · exact .refl
  · exact .refl

theorem takeDeadline_moves : ReflTransGen AngleMove s.angle s.takeDeadline.angle := by
  unfold State.takeDeadline
  dsimp only
  split_ifs
  · simpa using enterSafe_moves (s := (s.updRun _).raiseBoth _) _
  · simp [ReflTransGen.refl]
  · exact .refl

theorem takeCaptureReport_moves (i : Fin 16) : ReflTransGen AngleMove s.angle (s.takeCaptureReport i).angle := by
  obtain h | ⟨l, st, -, -, ⟨-, h⟩ | ⟨-, h⟩⟩ := takeCaptureReport_cases s i <;> rw [h]
  · exact moves_of_eq (by rw [edgeRecorded_frame])
  · exact (moves_of_eq (by rw [edgeRecorded_frame])).trans (enterSafe_moves _)

theorem perform_moves (e : Event) : ReflTransGen AngleMove s.angle (s.perform e).angle := by
  cases e with
  | millisecond => exact takeMillisecond_moves
  | captureReport i => exact takeCaptureReport_moves i
  | deadline => exact takeDeadline_moves
  | safeLine => exact takeSafeLine_moves
  | _ => simp [State.perform, ReflTransGen.refl]

theorem makeTick_moves : ReflTransGen AngleMove s.angle s.makeTick.angle := by
  have h : s.makeTick.angle = if s.run.mode ≠ .config then s.angle.advance else s.angle := by
    simp [State.makeTick]
  rw [h]
  split
  · exact .single .advance
  · exact .refl

theorem stopRun_moves : ReflTransGen AngleMove s.angle s.stopRun.angle := by
  have h : s.stopRun.angle = s.angle.stop := by simp [State.stopRun]
  rw [h]
  exact .single .stop

/-- What a request can do to the Angle Base. -/
theorem leaves_moves {t : State} (h : Leaves s t) : ReflTransGen AngleMove s.angle t.angle := by
  cases h with
  | stop _ _ _ => exact (moves_of_eq (by rw [judgedForStop_frame])).trans stopRun_moves
  | enterSafe _ => simpa using enterSafe_moves .request
  | reset => exact .single .rigReset
  | speed v r hv => exact .single (.target v r hv)
  | angleBase x r => exact .single (.settings x r)
  | active q l h => exact .single (.active q l h)
  | staged q l h => exact .single (.staged q l h)
  | counted => exact moves_of_eq (by rw [judgedForStop_frame])
  | live l => exact moves_of_eq (by rw [liveUpdated_frame])
  | stepMark => exact moves_of_eq (by rw [marked_frame])
  | channel c g _ =>
    have h : (s.fieldsWritten c g).angle = s.angle := by rw [fieldsWritten_frame]
    split
    · exact moves_of_eq h
    · simpa using moves_of_eq h
  | force c v => 
    have h : (s.forcedWritten c v).angle = s.angle := by rw [forcedWritten_frame]
    simpa using moves_of_eq h
  | release k => exact moves_of_eq (by simp [release_eq_safeRecord])
  | transfer x _ _ _ _ => exact moves_of_eq (by rw [beginTransfer_frame])
  | queueReplay n d _ _ _ => exact moves_of_eq (by rw [enqueue_frame])
  | stopReplay n => 
    have h : (s.discardAll n).angle = s.angle := by rw [discardAll_frame]
    simpa using moves_of_eq h
  | clearNotices p w => exact moves_of_eq (by rw [recoveries_frame]; simp)
  | start _ | resume _ _ | same | deadline _ _ _ | timing _ | arm _ _ _ _ _ | clear _ _ | define _ _ _ _ _ _
  | free _ _ _ | setReplay _ _ _ _ _ | setCapture _ _ _ _ | takeCaptures _ _ | enables _ _ =>
    exact moves_of_eq (by simp)

/-- What a step can do to the Angle Base. -/
theorem kept_angleMoves (a : AngleBase) : Kept fun u => ReflTransGen AngleMove a u.angle where
  pending _ _ h := h
  port s p f _ h := by simpa using h
  request i s h := h.trans (leaves_moves (handle_leaves s i))
  transfer _ _ _ h := h
  perform s e h := h.trans (perform_moves e)
  settle s h := by simpa using h
  due _ _ h := h
  pins _ _ h := h
  count s b h := by simpa using h
  tick s h := h.trans makeTick_moves
  voltage s i v h := by simpa using h
  powerOn _ h := h.tail .powerOn
  rigReset _ h := h.tail .rigReset

theorem step_angleMoves {t : State} (h : step s = .next t) : ReflTransGen AngleMove s.angle t.angle :=
  (kept_angleMoves s.angle).step .refl h

/-- A property of the Angle Base that each of its moves keeps is kept by every step. -/
theorem step_keeps_angle {Q : AngleBase → Prop} (hQ : ∀ a b, AngleMove a b → Q a → Q b) {s t : State}
    (hs : Q s.angle) (ht : step s = .next t) : Q t.angle := by
  have hmoves := step_angleMoves ht
  generalize t.angle = b at hmoves ⊢
  induction hmoves with
  | refl => exact hs
  | tail _ hmove ih => exact hQ _ _ hmove ih

/-! ## The speeds (R7) -/

/-- The phase addition of a tick (R4). -/
def nextPhase (a : AngleBase) : BitVec 32 := BitVec.ofNat 32 (a.phase.toNat + increment a.speed)

theorem advance_of_carries (h : a.carries = true) :
    a.advance = { a.swapTables with phase := nextPhase a, cycle := a.cycle + 1 } := by
  simp only [AngleBase.advance, h, if_true, nextPhase]

theorem advance_of_not_carries (h : a.carries = false) : a.advance = { a with phase := nextPhase a } := by
  simp only [AngleBase.advance, h, Bool.false_eq_true, if_false, nextPhase]

theorem angleMove_keeps_speeds {a b : AngleBase} (h : AngleMove a b) (ha : a.speed ≤ 64000 ∧ a.target ≤ 64000) :
    b.speed ≤ 64000 ∧ b.target ≤ 64000 := by
  obtain ⟨hspeed, htarget⟩ := ha
  cases h with
  | advance =>
    cases hc : a.carries
    · rw [advance_of_not_carries hc]; exact ⟨hspeed, htarget⟩
    · rw [advance_of_carries hc]; exact ⟨hspeed, htarget⟩
  | target v r hv => exact ⟨hspeed, hv⟩
  | ramp =>
    unfold AngleBase.rampStep
    split_ifs
    · exact ⟨htarget, htarget⟩
    · exact ⟨(Nat.min_le_left _ _).trans htarget, htarget⟩
    · exact ⟨Nat.max_le.2 ⟨htarget, (Nat.sub_le _ _).trans hspeed⟩, htarget⟩
  | safeRamp => exact ⟨(Nat.sub_le _ _).trans hspeed, htarget⟩
  | stop => simp [AngleBase.stop]
  | settings x r => exact ⟨hspeed, htarget⟩
  | active q l h => exact ⟨hspeed, htarget⟩
  | staged q l h => exact ⟨hspeed, htarget⟩
  | rigReset => simp
  | powerOn => simp

/-! ## The pattern tables (R15) -/

/-- Active and staged tables keep the limits of R15. -/
def tablesGood (x : PerPattern (List Window)) (y : PerPattern (Option (List Window))) : Prop :=
  ∀ q, tableGood q (x.get q) ∧ ∀ l, y.get q = some l → tableGood q l

theorem tableGood_nil (q : Pattern) : tableGood q [] := ⟨Nat.zero_le _, rfl⟩

/-- Each staged table that is present takes the place of the active one (R5). -/
theorem swapTables_active_get (a : AngleBase) (q : Pattern) :
    a.swapTables.active.get q = (a.staged.get q).getD (a.active.get q) := by
  cases q <;> rfl

theorem swapTables_tables {a : AngleBase} (ha : tablesGood a.active a.staged) :
    tablesGood a.swapTables.active a.swapTables.staged := by
  refine fun q => ⟨?_, ?_⟩
  · rw [swapTables_active_get]
    cases hq : a.staged.get q with
    | none => exact (ha q).1
    | some l => exact (ha q).2 l hq
  · cases q <;> exact nofun

theorem perPattern_get_put {α : Type} (x : PerPattern α) (q r : Pattern) (v : α) :
    (x.put q v).get r = if q = r then v else x.get r := by
  cases q <;> cases r <;> rfl

theorem angleMove_keeps_tables {a b : AngleBase} (h : AngleMove a b) (ha : tablesGood a.active a.staged) :
    tablesGood b.active b.staged := by
  cases h with
  | advance =>
    cases hc : a.carries
    · rw [advance_of_not_carries hc]; exact ha
    · rw [advance_of_carries hc]; exact swapTables_tables ha
  | ramp => unfold AngleBase.rampStep; split_ifs <;> exact ha
  | stop => exact swapTables_tables ha
  | active q l h =>
    refine fun r => ⟨?_, (ha r).2⟩
    rw [perPattern_get_put]
    split
    next hq => exact hq ▸ h
    · exact (ha r).1
  | staged q l h =>
    refine fun r => ⟨(ha r).1, fun m hm => ?_⟩
    rw [perPattern_get_put] at hm
    split at hm
    next hq => cases hm; exact hq ▸ h
    · exact (ha r).2 m hm
  | rigReset => exact fun r => ⟨(ha r).1, by cases r <;> exact nofun⟩
  | powerOn => exact fun r => ⟨by cases r <;> exact tableGood_nil _, by cases r <;> exact nofun⟩
  | target _ _ _ | safeRamp | settings _ _ => exact ha

theorem step_keeps_speedLaw {s t : State} (hs : s.speedLaw) (ht : step s = .next t) : t.speedLaw :=
  step_keeps_angle (Q := fun a => a.speed ≤ 64000 ∧ a.target ≤ 64000) (fun _ _ => angleMove_keeps_speeds) hs ht

theorem step_keeps_tableLaw {s t : State} (hs : s.tableLaw) (ht : step s = .next t) : t.tableLaw :=
  step_keeps_angle (Q := fun a => tablesGood a.active a.staged) (fun _ _ => angleMove_keeps_tables) hs ht

end Machine

end Sys2Proof
end

section
/-! What a step can do to one channel as the laws of the Output Stage see it, and with it the ranges of its codes (R25)
and noise sources (R110), and what the part mode says of its driver (R40) and its FREE generator (R32, R34). -/

namespace Sys2Proof

/-- What the laws of the Output Stage see of a channel and of the state around it. -/
structure Seen where
  part   : Mode
  place  : Nat
  half   : Bool
  mode   : PulseMode
  driver : Driver
  out    : Nat
  gen    : Option Generator
  wait   : Nat
  noise  : Half

/-- The latest grid point at which a start may be to come, counted from the last one passed (R32). -/
def Seen.bound (x : Seen) : Nat := if x.half then 1 else 2

/-- A grid point at which a request may have a start open. -/
def Seen.opensAt (x : Seen) (w : Nat) : Prop := x.place ≤ w ∧ (w ≤ x.place ∨ w ≤ x.bound)

/-- Channel `c` is a stopped FREE channel in RUN with no start to come. -/
def Seen.idle (c : Fin 24) (x : Seen) : Prop :=
  x.part = .run ∧ Machine.kindOf c = .pulse ∧ x.mode = .free ∧ x.gen = none ∧ x.wait = 0

/-- An effective pair is within the clamps of R32. -/
def Generator.clamped (g : Generator) : Prop := 20 ≤ g.period ∧ g.period ≤ 16777215 ∧ g.high ≤ g.period

/-- What an operation can do to channel `c` as the laws see it. -/
inductive ChannelMove (c : Fin 24) (x : Seen) : Seen → Prop
  | refresh (n : Half) (v : Nat) (hn : n = x.noise ∨ n = noiseNext x.noise) (hv : v ≤ 4000) :
      ChannelMove c x { x with noise := n, out := v }
  | output (v : Nat) (hc : Machine.kindOf c ≠ .analog) : ChannelMove c x { x with out := v }
  | opens (g : Generator) (n : Half) (hx : x.gen.isSome = true ∨ x.idle c) (hg : g.clamped)
      (hn : n = x.noise ∨ n = noiseNext x.noise) : ChannelMove c x { x with gen := some g, noise := n }
  | goesLow (g : Generator) (hx : x.gen = some g) : ChannelMove c x { x with gen := some { g with active := false } }
  | grid (b : Bool) : ChannelMove c x
      { x with place := x.place - 1, half := b, gen := x.gen.map Generator.count, wait := x.wait - 1 }
  | ticks : ChannelMove c x { x with half := false }
  | halts : ChannelMove c x { x with gen := none, wait := 0 }
  | waits (w : Nat) (hx : x.idle c) (hw : x.opensAt w) : ChannelMove c x { x with place := w, wait := w }
  | place (w : Nat) (hw : x.opensAt w) : ChannelMove c x { x with place := w }
  | trips : ChannelMove c x { x with driver := .tripped }
  | restores : ChannelMove c x { x with driver := x.driver.restore x.part }
  | setMode (m : PulseMode) (hx : x.part = .config) : ChannelMove c x { x with mode := m, gen := none, wait := 0 }
  | start (hx : x.part = .config) : ChannelMove c x { x with part := .run, driver := x.driver.start }
  | resume (hx : x.part = .safe) : ChannelMove c x { x with part := .run }
  | enterSafe (hx : x.part = .run) : ChannelMove c x { x with
      part := .safe
      gen := if Machine.kindOf c = .pulse then none else x.gen
      wait := if Machine.kindOf c = .pulse then 0 else x.wait }
  | stop (hx : x.part ≠ .config) : ChannelMove c x { x with
      part := .config
      driver := x.driver.stop
      gen := if Machine.kindOf c = .pulse then none else x.gen
      wait := if Machine.kindOf c = .pulse then 0 else x.wait }
  | reset : ChannelMove c x
      ⟨.config, 0, false, .free, .off, 0, none, 0, (Machine.resetChannel c).noise⟩

namespace Machine

open Relation

/-- A channel with the state around it as the laws see it. -/
def seenWith (m : Mode) (w : Nat) (b : Bool) (ch : Channel) : Seen :=
  ⟨m, w, b, ch.mode, ch.driver, ch.lastOutput, ch.gen, ch.wait, ch.noise⟩

/-- Channel `c` of the state as the laws see it. -/
def State.seen (s : State) (c : Fin 24) : Seen := seenWith s.run.mode s.place s.halfDone (s.channel c)

/-- From `s` to `u` channel `c` has made moves. -/
abbrev Moved (c : Fin 24) (s u : State) : Prop := ReflTransGen (ChannelMove c) (s.seen c) (u.seen c)

variable {s u : State} {c d : Fin 24} {w : Nat} {b : Value}

/-- The laws do not see the pin of a channel, its clamp indication, its measurement, its settings or its values. -/
theorem seen_congr (hm : u.run.mode = s.run.mode) (hp : u.place = s.place) (hh : u.halfDone = s.halfDone)
    (hc : seenWith s.run.mode s.place s.halfDone (u.channel c) =
      seenWith s.run.mode s.place s.halfDone (s.channel c)) : u.seen c = s.seen c := by
  simpa only [State.seen, hm, hp, hh] using hc

theorem seenWith_of_core {x y : Channel} {m : Mode} {p : Nat} {h : Bool} (hc : x.core = y.core) :
    seenWith m p h x = seenWith m p h y :=
  show seenWith m p h x.core = seenWith m p h y.core from congrArg _ hc

/-- A channel as the laws see it, part by part. -/
theorem seen_eq {m : Mode} {p : Nat} {h : Bool} {x : Channel} (hm : u.run.mode = m) (hp : u.place = p)
    (hh : u.halfDone = h) (hc : u.channel c = x) : u.seen c = seenWith m p h x := by
  rw [State.seen, hm, hp, hh, hc]

theorem seen_halfDone (s : State) (b : Bool) :
    ({ s with halfDone := b } : State).seen c = { s.seen c with half := b } := rfl

theorem seen_of_steady (h : u.steady = s.steady) (hr : u.run = s.run) (hp : u.place = s.place)
    (hh : u.halfDone = s.halfDone) : u.seen c = s.seen c := by
  exact seen_congr (by rw [hr]) hp hh (seenWith_of_core (core_of_steady h c))

theorem seen_of_channels (h : u.channels = s.channels) (hm : u.run.mode = s.run.mode) (hp : u.place = s.place)
    (hh : u.halfDone = s.halfDone) : u.seen c = s.seen c := by
  simp only [State.seen, State.channel, h, hm, hp, hh]

theorem moved_of_seen (h : u.seen c = s.seen c) : Moved c s u := moves_of_eq h

/-- Where each step of a fold makes moves, the fold does. -/
theorem foldl_moved {α : Type} {f : State → α → State} {I : State → Prop} (hI : ∀ u x, I u → I (f u x))
    (hf : ∀ u x, I u → Moved c u (f u x)) (l : List α) (hs : I s) : Moved c s (l.foldl f s) := by
  induction l generalizing s with
  | nil => exact .refl
  | cons x l ih => exact (hf s x hs).trans (ih (hI s x hs))

/-! ## The pins of pulse channels -/

theorem shownThrough_seen (m : Mode) (e : Option FaultRecord) (x : Channel) (p : Nat) (h : Bool) :
    seenWith m p h (shownThrough c e x) = seenWith m p h x := by
  unfold shownThrough
  split <;> rfl

/-- Every channel as one of them is shown through its overlay. -/
theorem showFree_channel_eq (s : State) (c d : Fin 24) : (s.showFree c).channel d =
    if c = d then shownThrough c (s.effectiveRecord c) (s.channel c) else s.channel d := by
  split
  next h => subst h; exact showFree_channel
  next h => exact showFree_channel_ne h

theorem showFree_seen (s : State) (d : Fin 24) : (s.showFree d).seen c = s.seen c :=
  seen_of_steady (steady_showFree s d) (by simp) (by simp) (by simp)

theorem keepLevel_moves (c : Fin 24) (m : Mode) (p : Nat) (h : Bool) (x : Channel) :
    ReflTransGen (ChannelMove c) (seenWith m p h x) (seenWith m p h (keepLevel c x)) := by
  unfold keepLevel
  split
  next hk => exact .single (.output _ (by rw [hk.1]; decide))
  · exact .refl

theorem keepOutput_channel_ne (h : c ≠ d) : (s.keepOutput c).channel d = s.channel d :=
  State.updChannel_channel_ne _ _ h

theorem keepOutput_moved (s : State) (d : Fin 24) : Moved c s (s.keepOutput d) := by
  by_cases h : d = c
  · subst h
    have hch : (s.keepOutput d).channel d = keepLevel d (s.channel d) := by simp [State.keepOutput]
    simpa only [Moved, State.seen, hch, State.keepOutput_frame] using keepLevel_moves d _ _ _ (s.channel d)
  · exact moved_of_seen (seen_congr (by simp) (by simp) (by simp) (by rw [keepOutput_channel_ne h]))

/-! ## FREE generators -/

theorem nextNoise_cases (s : State) (c : Fin 24) :
    s.nextNoise c = (s.channel c).noise ∨ s.nextNoise c = noiseNext (s.channel c).noise := by
  unfold State.nextNoise
  split
  · exact .inr rfl
  · exact .inl rfl

theorem effectivePair_clamped (e : Option FaultRecord) (r : Half) (b : Value) (t : Nat) (a : Bool) :
    (⟨(effectivePair e r b).1, (effectivePair e r b).2.1, t, a⟩ : Generator).clamped := by
  simp only [Generator.clamped, effectivePair, clampInt]
  omega

/-- One channel with its record changed, seen from every channel. -/
theorem updChannel_moved {f : Channel → Channel}
    (h : ReflTransGen (ChannelMove d) (s.seen d) (seenWith s.run.mode s.place s.halfDone (f (s.channel d)))) :
    Moved c s (s.updChannel d f) := by
  by_cases hd : d = c
  · subst hd
    simpa [Moved, State.seen] using h
  · exact moved_of_seen (seen_congr rfl rfl rfl (by simp [hd]))

/-- A change of a channel that the laws do not see. -/
theorem updChannel_unseen {f : Channel → Channel} (h : ∀ x m p b, seenWith m p b (f x) = seenWith m p b x) :
    (s.updChannel d f).seen c = s.seen c := by
  refine seen_congr rfl rfl rfl ?_
  by_cases hd : d = c
  · subst hd; simp [h]
  · simp [hd]

theorem openPeriod_moved (h : (s.channel d).gen.isSome = true ∨ (s.seen d).idle d) : Moved c s (s.openPeriod d b) := by
  unfold State.openPeriod
  refine .trans (updChannel_moved ?_) (.trans (moved_of_seen (showFree_seen _ d)) (keepOutput_moved _ d))
  exact .single (.opens _ _ h (effectivePair_clamped ..) (nextNoise_cases s d))

theorem stopGenerator_moved (s : State) (d : Fin 24) : Moved c s (s.stopGenerator d) :=
  .trans (updChannel_moved (.single .halts)) (moved_of_seen (showFree_seen _ d))

theorem mayStart_idle (h : s.mayStart c = true) : (s.seen c).idle c := by
  obtain ⟨hk, hm, hr, hg, hw, -⟩ := mayStart_eq_true_iff.1 h
  exact ⟨hr, hk, hm, hg, hw⟩

/-- A request's start opens at a grid point that is open to it. -/
abbrev State.opensAt (s : State) (w : Nat) : Prop := (s.seen 0).opensAt w

theorem startRequested_moved (hw : s.opensAt w) : Moved c s (s.startRequested w d) := by
  unfold State.startRequested
  split
  next hmay =>
    have hidle := mayStart_idle hmay
    unfold State.startGenerator
    rw [if_pos hmay]
    split
    next hw0 =>
      subst hw0
      refine .trans (openPeriod_moved (b := (s.channel d).ownBase) (.inr hidle)) (.single ?_)
      have hopen : ((s.openPeriod d (s.channel d).ownBase).seen c).opensAt 0 := by
        simpa [Seen.opensAt, Seen.bound, State.seen, seenWith] using hw
      exact .place 0 hopen
    next hw0 =>
      by_cases hd : d = c
      · subst hd
        have hmove : ReflTransGen (ChannelMove d) (s.seen d) { s.seen d with place := w, wait := w } :=
          .single (.waits w hidle hw)
        simpa [Moved, State.seen, seenWith] using hmove
      · have hmove : ReflTransGen (ChannelMove c) (s.seen c) { s.seen c with place := w } := .single (.place w hw)
        simpa [Moved, State.seen, seenWith, hd] using hmove
  · exact .refl

theorem startRequested_opensAt (hw : s.opensAt w) : (s.startRequested w d).opensAt w := by
  obtain ⟨hle, hbound⟩ := hw
  have hp := State.startRequested_place s w d
  have hh : (s.startRequested w d).halfDone = s.halfDone := by simp
  simp only [State.opensAt, Seen.opensAt, Seen.bound, State.seen, seenWith, hp, hh] at hle hbound ⊢
  split
  · exact ⟨le_rfl, .inl le_rfl⟩
  · exact ⟨hle, hbound⟩

/-- The grid point of a request's starts is open to it (R32). -/
theorem startPlace_opensAt (s : State) : s.opensAt s.startPlace := by
  obtain ⟨hle, hcases⟩ := s.startPlace_allowed
  have hbound : (s.seen 0).bound = if s.halfDone then 1 else 2 := rfl
  refine ⟨hle, ?_⟩
  rcases hcases with h | ⟨-, h | ⟨h, hh, -⟩⟩
  · exact .inl h.le
  · exact .inr (by rw [hbound]; split <;> omega)
  · exact .inr (by rw [hbound, hh]; exact h.le)

theorem basePairChanged_moved (hw : s.opensAt w) : Moved c s (s.basePairChanged w d) := by
  unfold State.basePairChanged
  dsimp only
  split
  · exact moved_of_seen (updChannel_unseen fun _ _ _ _ => rfl)
  · exact startRequested_moved hw

theorem basePairChanged_opensAt (hw : s.opensAt w) : (s.basePairChanged w d).opensAt w := by
  unfold State.basePairChanged
  dsimp only
  split
  · exact hw
  · exact startRequested_opensAt hw

theorem pairsWritten_moved (s : State) (q : Fin 24 → Bool) : Moved c s (s.pairsWritten q) := by
  refine foldl_moved (I := fun u => u.opensAt s.startPlace) (fun u d hu => ?_) (fun u d hu => ?_) _
    (startPlace_opensAt s)
  · unfold State.pairWritten
    split
    · exact basePairChanged_opensAt hu
    · exact hu
  · unfold State.pairWritten
    split
    · exact basePairChanged_moved hu
    · exact .refl

theorem startGenerators_moved (s : State) : Moved c s s.startGenerators :=
  foldl_moved (I := fun u => u.opensAt s.startPlace) (fun _ _ => startRequested_opensAt)
    (fun _ _ => startRequested_moved) _ (startPlace_opensAt s)

theorem haltGenerator_stopped_ne (s : State) (c d : Fin 24) (h : c ≠ d) :
    (s.stopGenerator c).channel d = s.channel d := by
  simp [State.stopGenerator, showFree_channel_ne h, h]

theorem stopGenerator_channel (s : State) (c : Fin 24) : (s.stopGenerator c).channel c =
    shownThrough c (s.effectiveRecord c) (haltGenerator (s.channel c)) := by
  rw [State.stopGenerator, showFree_channel, effectiveRecord_congr (State.updChannel_faults ..),
    State.updChannel_channel_self]

theorem mem_pulseChannels : c ∈ pulseChannels ↔ kindOf c = .pulse := by simp [pulseChannels]

theorem pulseChannels_nodup : pulseChannels.Nodup := (List.nodup_finRange 24).filter _

/-- Halted generators: every pulse channel once, its pin at the inactive level through its overlay (R34). -/
theorem haltGenerators_channel (s : State) (c : Fin 24) : s.haltGenerators.channel c =
    if kindOf c = .pulse then shownThrough c (s.effectiveRecord c) (haltGenerator (s.channel c))
    else s.channel c := by
  split
  next hk =>
    obtain ⟨a, r, -, hbefore, hafter⟩ := foldl_visits (g := State.channel) haltGenerator_stopped_ne
      pulseChannels_nodup (mem_pulseChannels.2 hk) s
    have hfaults : (a.foldl State.stopGenerator s).faults = s.faults :=
      foldl_keeps State.faults _ (fun u x => by simp) a s
    rw [State.haltGenerators, hafter, stopGenerator_channel, hbefore, effectiveRecord_congr hfaults]
  next hk => exact foldl_skips (g := State.channel) haltGenerator_stopped_ne (by rwa [mem_pulseChannels]) s

theorem haltGenerators_seen (s : State) (c : Fin 24) : s.haltGenerators.seen c = { s.seen c with
    gen := if kindOf c = .pulse then none else (s.seen c).gen
    wait := if kindOf c = .pulse then 0 else (s.seen c).wait } := by
  rw [seen_eq (m := s.run.mode) (p := s.place) (h := s.halfDone) (by simp) (by simp) (by simp)
    (haltGenerators_channel s c)]
  by_cases hk : kindOf c = .pulse
  · simp only [if_pos hk, shownThrough_seen]
    rfl
  · simp only [if_neg hk]
    rfl

/-! ## Events -/

theorem noise_refresh_cases (p : Bool) (n : Half) : (if p then noiseNext n else n) = n ∨
    (if p then noiseNext n else n) = noiseNext n := by
  cases p
  · exact .inl rfl
  · exact .inr rfl

theorem refreshChannels_analog (hk : kindOf c = .analog) :
    s.refreshChannels.channel c = refreshAnalog s c (s.channel c) := by
  simp only [State.refreshChannels, State.channel, mapV_get, hk]

theorem refreshChannels_switch (hk : kindOf c = .switch) :
    s.refreshChannels.channel c = refreshSwitch s c (s.channel c) := by
  simp only [State.refreshChannels, State.channel, mapV_get, hk]

theorem refreshChannels_pulse (hk : kindOf c = .pulse) : s.refreshChannels.channel c = s.channel c := by
  simp only [State.refreshChannels, State.channel, mapV_get, hk]

/-- A refresh clamps the code of an analog channel (R25). -/
theorem refreshAnalog_code_le (s : State) (c : Fin 24) (ch : Channel) :
    (refreshAnalog s c ch).lastOutput ≤ 4000 := by
  simp only [refreshAnalog, clampInt]
  omega

theorem refreshChannels_moved (s : State) : Moved c s s.refreshChannels := by
  simp only [Moved, State.seen, State.refreshChannels_frame]
  cases hk : kindOf c with
  | analog =>
    rw [refreshChannels_analog hk]
    exact .single (.refresh _ _ (noise_refresh_cases ..) (refreshAnalog_code_le s c _))
  | pulse => rw [refreshChannels_pulse hk]
  | switch =>
    rw [refreshChannels_switch hk]
    exact .single (.output _ (by rw [hk]; decide))

theorem takeRefresh_moved (s : State) : Moved c s s.takeRefresh :=
  (moved_of_seen (seen_of_channels (by simp) (by simp) (by simp) (by simp))).trans
    (refreshChannels_moved s.computeAnalog)

theorem takePeriodStart_moved (s : State) (d : Fin 24) : Moved c s (s.takePeriodStart d) := by
  unfold State.takePeriodStart
  split
  · unfold State.startGenerator
    split
    next hmay => exact openPeriod_moved (.inr (mayStart_idle hmay))
    · exact .refl
  next g hg =>
    dsimp only
    split_ifs
    · exact (stopGenerator_moved s d).trans (keepOutput_moved _ d)
    · exact openPeriod_moved (.inl (by simp [hg]))
    · exact .refl

theorem takeHighEnd_moved (s : State) (d : Fin 24) : Moved c s (s.takeHighEnd d) := by
  unfold State.takeHighEnd
  split
  · exact .refl
  next g hg =>
    split
    · refine .trans (updChannel_moved ?_) (.trans (moved_of_seen (showFree_seen _ d)) (keepOutput_moved _ d))
      exact .single (.goesLow g hg)
    · exact .refl

theorem takeDriverTrip_moved (s : State) (d : Fin 24) : Moved c s (s.takeDriverTrip d) := by
  unfold State.takeDriverTrip
  split
  · refine .trans (updChannel_moved (d := d) (f := fun ch => { ch with driver := .tripped, limitTicks := none })
      (.single .trips)) (moved_of_seen (seen_of_channels ?_ ?_ ?_ ?_)) <;> simp
  · exact .refl

/-- The state of an entry to SAFE as the generators halt. -/
def State.safeEntry (s : State) (why : SafeCause) : State :=
  (((s.fireCounted.dropDue Event.lapses).updRun fun r =>
    { r with mode := .safe, cause := some ⟨why, s.fireCounted.rigTime⟩, monitor := { r.monitor with timer := none } }).raiseBoth
      .safeEntered).updAngle fun a => { a with target := 0 }

theorem enterSafe_eq (why : SafeCause) (h : s.run.mode = .run) :
    s.enterSafe why = (s.safeEntry why).haltGenerators.safeFaults.pauseEngines := by
  rw [State.enterSafe, if_pos h]
  rfl

theorem enterSafe_of_not_run (why : SafeCause) (h : s.run.mode ≠ .run) : s.enterSafe why = s := if_neg h

theorem enterSafe_moved (s : State) (why : SafeCause) : Moved c s (s.enterSafe why) := by
  by_cases h : s.run.mode = .run
  · have hentry : (s.safeEntry why).steady = s.steady := by simp [State.safeEntry]
    have hseen : (s.safeEntry why).seen c = { s.seen c with part := .safe } := by
      rw [seen_eq (m := .safe) (p := s.place) (h := s.halfDone) (by simp [State.safeEntry]) (by simp [State.safeEntry])
        (by simp [State.safeEntry]) rfl, seenWith_of_core (core_of_steady hentry c)]
      rfl
    have hlast : (s.enterSafe why).seen c = (s.safeEntry why).haltGenerators.seen c := by
      rw [enterSafe_eq why h]
      exact (seen_of_channels (by simp) (by simp) (by simp) (by simp)).trans
        (seen_of_steady (steady_safeFaults _) (by simp) (by simp) (by simp))
    refine .single ?_
    rw [hlast, haltGenerators_seen, hseen]
    exact .enterSafe h
  · rw [enterSafe_of_not_run why h]

theorem enterSafe_moved_of_seen (h : u.seen c = s.seen c) (why : SafeCause) : Moved c s (u.enterSafe why) :=
  (moved_of_seen h).trans (enterSafe_moved u why)

theorem takeSafeLine_moved (s : State) : Moved c s s.takeSafeLine := by
  unfold State.takeSafeLine
  dsimp only
  split_ifs
  · exact enterSafe_moved_of_seen (seen_of_channels (by simp) (by simp) (by simp) (by simp)) _
  · exact moved_of_seen (seen_of_channels (by simp) (by simp) (by simp) (by simp))
  · exact .refl

theorem takeDeadline_moved (s : State) : Moved c s s.takeDeadline := by
  unfold State.takeDeadline
  dsimp only
  split_ifs
  · exact enterSafe_moved_of_seen (seen_of_channels (by simp) (by simp) (by simp) (by simp)) _
  · exact moved_of_seen (seen_of_channels (by simp) (by simp) (by simp) (by simp))
  · exact .refl

theorem edgeRecorded_seen (s : State) (i : Fin 16) (l : Bool) (st : Stamp) :
    (s.edgeRecorded i l st).seen c = s.seen c :=
  seen_of_channels (by rw [edgeRecorded_frame]) (by rw [edgeRecorded_frame]) (by rw [edgeRecorded_frame])
    (by rw [edgeRecorded_frame])

theorem takeCaptureReport_moved (s : State) (i : Fin 16) : Moved c s (s.takeCaptureReport i) := by
  obtain h | ⟨l, st, -, -, ⟨-, h⟩ | ⟨-, h⟩⟩ := takeCaptureReport_cases s i <;> rw [h]
  · exact moved_of_seen (edgeRecorded_seen s i l st)
  · exact enterSafe_moved_of_seen (edgeRecorded_seen s i l st) _

theorem perform_moved (s : State) (e : Event) : Moved c s (s.perform e) := by
  cases e with
  | captureReport i => exact takeCaptureReport_moved s i
  | periodStart d => exact takePeriodStart_moved s d
  | highEnd d => exact takeHighEnd_moved s d
  | refresh => exact takeRefresh_moved s
  | driverTrip d => exact takeDriverTrip_moved s d
  | deadline => exact takeDeadline_moved s
  | safeLine => exact takeSafeLine_moved s
  | replayAdvance _ | millisecond | battery =>
    exact moved_of_seen (seen_of_channels (by simp [State.perform]) (by simp [State.perform]) (by simp [State.perform])
      (by simp [State.perform]))
  | moveComplete _ _ | moveFail _ _ | atTime _ | onCapture _ | durationEnd _ =>
    exact moved_of_seen (seen_of_steady (by simp [State.perform]) (by simp [State.perform]) (by simp [State.perform])
      (by simp [State.perform]))

/-! ## The tick and the half-tick instant -/

/-- A pulse channel at a tick: the level shown becomes the last output (R23, R36). -/
theorem evaluatePulses_pulse (hk : kindOf c = .pulse) : s.evaluatePulses.channel c =
    { showPulse (s.effectiveRecord c) (s.pulseActive c (s.channel c)) (s.channel c) with
      lastOutput := (showPulse (s.effectiveRecord c) (s.pulseActive c (s.channel c)) (s.channel c)).pin } := by
  simp only [State.evaluatePulses, State.channel, mapV_get, hk]

theorem evaluatePulses_other (hk : kindOf c ≠ .pulse) : s.evaluatePulses.channel c = s.channel c := by
  cases h : kindOf c <;> simp only [State.evaluatePulses, State.channel, mapV_get, h]
  exact absurd h hk

theorem evaluatePulses_moved (s : State) : Moved c s s.evaluatePulses := by
  simp only [Moved, State.seen, State.evaluatePulses_frame]
  by_cases hk : kindOf c = .pulse
  · rw [evaluatePulses_pulse hk]
    exact .single (.output _ (by rw [hk]; decide))
  · rw [evaluatePulses_other hk]

theorem countGenerators_channel (s : State) (c : Fin 24) :
    s.countGenerators.channel c = gridStep (s.channel c) := by
  simp only [State.countGenerators, State.channel, mapV_get]

theorem countGenerators_moved (s : State) (b : Bool) : Moved c s { s.countGenerators with halfDone := b } := by
  have hplace : s.countGenerators.place = s.place - 1 := by simp only [State.countGenerators]
  have hseen : s.countGenerators.seen c =
      seenWith s.run.mode (s.place - 1) s.halfDone (gridStep (s.channel c)) :=
    seen_eq (by simp) hplace (by simp) (countGenerators_channel s c)
  rw [Moved, seen_halfDone s.countGenerators b, hseen]
  exact .single (.grid b)

theorem keepOutputs_channel (s : State) (c : Fin 24) : s.keepOutputs.channel c = keepLevel c (s.channel c) := by
  simp only [State.keepOutputs, State.channel, mapV_get]

theorem keepOutputs_moved (s : State) : Moved c s s.keepOutputs := by
  simpa only [Moved, State.seen, State.keepOutputs_frame, keepOutputs_channel] using
    keepLevel_moves c _ _ _ (s.channel c)

theorem sampleLimits_channel (s : State) (c : Fin 24) : s.sampleLimits.channel c = { s.channel c with
    limitTicks := limitSample (s.drives c) (s.pins.limit.get c) (s.channel c).limitTicks } := by
  simp only [State.sampleLimits, State.channel, mapV_get]

theorem sampleLimits_seen (s : State) : s.sampleLimits.seen c = s.seen c :=
  seen_congr (by simp) (by simp) (by simp) (by rw [sampleLimits_channel]; rfl)

theorem tickMonitor_mode (s : State) : s.tickMonitor.run.mode = s.run.mode := by
  unfold State.tickMonitor
  split <;> simp

theorem sampleSafeLine_mode (s : State) : s.sampleSafeLine.run.mode = s.run.mode := by
  simp [State.sampleSafeLine]

/-! ### The parts of a tick -/

/-- The rig time and the phase after a tick (R1, R4). -/
def State.clocked (s : State) : State :=
  { s with
    rigTime := s.rigTime + 1
    halfDone := false
    angle := if (s.run.mode ≠ .config) then s.angle.advance else s.angle }

/-- The tick is a cycle wrap (R5). -/
def State.wraps (s : State) : Bool := decide (s.run.mode ≠ .config) && s.angle.carries

/-- The angle advance of the tick (R6). -/
def State.advanceNow (s : State) : Nat := angleAdvance (angleCount s.angle.phase) s.clocked.angleNow

/-- A tick up to the advances of the engines. -/
def State.tickPlayed (s : State) : State := s.clocked.evaluatePulses.tickEngines s.angle.phase s.wraps

/-- A tick up to the count of the durations and the AT_TIME triggers. -/
def State.tickCounted (s : State) : State :=
  (((s.tickPlayed.addDue (clockEvents s.tickPlayed.rigTime).1).tickRelays.sampleBattery).tickFaults s.advanceNow
    s.wraps).noteAtTime

/-- A tick up to the AT_ANGLE triggers. -/
def State.tickFired (s : State) : State :=
  s.tickCounted.fireAtAngle (angleCount s.angle.phase) s.advanceNow s.angle.cycle s.tickCounted.angle.cycle

/-- A tick up to the generators. -/
def State.tickGridded (s : State) : State := s.tickFired.sampleInputs.countGenerators

/-- A tick before the wait list is settled. -/
def State.tickSampled (s : State) : State :=
  (s.tickGridded.addDue (clockEvents s.tickGridded.rigTime).2).sampleLimits.tickMonitor.sampleSafeLine

theorem makeTick_eq (s : State) : s.makeTick = s.tickSampled.settle := by
  unfold State.makeTick State.tickSampled State.tickGridded State.tickFired State.tickCounted State.tickPlayed
    State.advanceNow State.wraps State.clocked
  rfl

@[simp] theorem steady_tickFired (s : State) : s.tickFired.steady = s.clocked.evaluatePulses.steady := by
  simp [State.tickFired, State.tickCounted, State.tickPlayed]

@[simp] theorem clocked_place (s : State) : s.clocked.place = s.place := rfl
@[simp] theorem clocked_run (s : State) : s.clocked.run = s.run := rfl
@[simp] theorem clocked_halfDone (s : State) : s.clocked.halfDone = false := rfl

theorem tickFired_moved (s : State) : Moved c s.clocked s.tickFired := by
  refine (evaluatePulses_moved s.clocked).trans (moved_of_seen (seen_of_steady (steady_tickFired s) ?_ ?_ ?_)) <;>
    simp [State.tickFired, State.tickCounted, State.tickPlayed]

theorem clocked_seen (s : State) : s.clocked.seen c = { s.seen c with half := false } := rfl

theorem tickGridded_moved (s : State) : Moved c s s.tickGridded := by
  have hticks : Moved c s s.clocked := by
    rw [Moved, clocked_seen]
    exact .single .ticks
  have hinputs : Moved c s.tickFired s.tickFired.sampleInputs :=
    moved_of_seen (seen_of_channels (by simp) (by simp) (by simp) (by simp))
  have hgrid : Moved c s.tickFired.sampleInputs s.tickGridded := by
    have h := countGenerators_moved (c := c) s.tickFired.sampleInputs s.tickFired.sampleInputs.countGenerators.halfDone
    exact h
  exact ((hticks.trans (tickFired_moved s)).trans hinputs).trans hgrid

theorem makeTick_moved (s : State) : Moved c s s.makeTick := by
  rw [makeTick_eq]
  refine (tickGridded_moved s).trans (moved_of_seen ?_)
  have hsettle : s.tickSampled.settle.seen c = s.tickSampled.seen c :=
    seen_of_steady (steady_settle _) (by simp) (by simp) (by simp)
  have hlines (u : State) : u.sampleLimits.tickMonitor.sampleSafeLine.seen c = u.seen c :=
    (seen_of_channels (by simp) ((sampleSafeLine_mode _).trans (tickMonitor_mode _)) (by simp) (by simp)).trans
      (sampleLimits_seen u)
  rw [hsettle, State.tickSampled, hlines]
  exact seen_of_channels (by simp) (by simp) (by simp) (by simp)

/-! ## Requests -/

theorem writeLive_seen (s : State) (d : Fin 24) (v : Value) : (s.writeLive d v).seen c = s.seen c :=
  (seen_of_channels (s := s.updChannel d fun ch => { ch with live := v, slot := none }) rfl rfl rfl rfl).trans
    (updChannel_unseen fun _ _ _ _ => rfl)

theorem applyEntries_seen (s : State) (l : List GoodEntry) : (l.foldl State.applyEntry s).seen c = s.seen c := by
  refine foldl_keeps (fun u : State => u.seen c) _ (fun u g => ?_) l s
  unfold State.applyEntry
  split
  · exact updChannel_unseen fun _ _ _ _ => rfl
  · exact writeLive_seen u g.1 g.2.2

theorem copySlots_moved (s : State) : Moved c s s.copySlots := by
  refine .trans (moves_of_eq (foldl_keeps (fun u : State => u.seen c) State.copySlot (fun u d => ?_) _ s))
    (pairsWritten_moved _ _)
  unfold State.copySlot
  split
  next v _ => exact writeLive_seen u d v
  · rfl

theorem marked_moved (s : State) : Moved c s s.marked := by
  unfold State.marked
  split
  · exact (copySlots_moved s).trans (moved_of_seen rfl)
  · exact copySlots_moved s

theorem writeFields_seen (k : ChannelKind) (g : ChannelArgs) (m : Mode) (x : Channel) (p : Nat) (h : Bool) :
    seenWith m p h (writeFields k g m x) = { seenWith m p h x with
      mode := (g.wheel.map modeOf).getD x.mode
      driver := if g.autoRestore.isSome then x.driver.restore m else x.driver } := rfl

theorem restore_moves (x : Seen) (b : Bool) : ReflTransGen (ChannelMove c) x
    { x with driver := if b then x.driver.restore x.part else x.driver } := by
  cases b
  · exact .refl
  · exact .single .restores

theorem fieldsWritten_moved (s : State) (d : Fin 24) (g : ChannelArgs)
    (hm : (g.wheel.isSome || g.pattern.isSome) = true → s.run.mode = .config) : Moved c s (s.fieldsWritten d g) := by
  unfold State.fieldsWritten
  cases hw : g.wheel with
  | some b =>
    have hx : s.run.mode = .config := hm (by simp [hw])
    rw [Option.isSome_some, if_pos rfl]
    by_cases hd : d = c
    · subst hd
      have hseen : ((s.updChannel d (writeFields (kindOf d) g s.run.mode)).stopGenerator d).seen d =
          { ({ s.seen d with driver := if g.autoRestore.isSome then (s.seen d).driver.restore (s.seen d).part
                else (s.seen d).driver } : Seen) with mode := modeOf b, gen := none, wait := 0 } := by
        rw [seen_eq (m := s.run.mode) (p := s.place) (h := s.halfDone) (by simp) (by simp) (by simp)
          (stopGenerator_channel _ d), shownThrough_seen, State.updChannel_channel_self]
        simp only [haltGenerator, writeFields, seenWith, hw]
        rfl
      rw [Moved, hseen]
      exact (restore_moves _ _).tail (.setMode _ hx)
    · refine moved_of_seen (seen_congr ?_ ?_ ?_ ?_) <;> simp [haltGenerator_stopped_ne, hd]
  | none =>
    rw [Option.isSome_none, if_neg (by decide)]
    refine updChannel_moved ?_
    rw [writeFields_seen, hw]
    exact restore_moves (s.seen d) _

theorem fieldsWritten_opensAt (d : Fin 24) (g : ChannelArgs) (hw : s.opensAt w) : (s.fieldsWritten d g).opensAt w := by
  rw [fieldsWritten_frame]
  exact hw

theorem forcedWritten_seen (s : State) (d : Fin 24) (v : Value) : (s.forcedWritten d v).seen c = s.seen c := by
  have hforced : (s.updChannel d fun ch => { ch with forced := v }).seen c = s.seen c :=
    updChannel_unseen fun _ _ _ _ => rfl
  unfold State.forcedWritten
  dsimp only
  split
  · exact (seen_of_channels (by simp) (by simp) (by simp) (by simp)).trans hforced
  · exact hforced

theorem forcedWritten_opensAt (d : Fin 24) (v : Value) (hw : s.opensAt w) : (s.forcedWritten d v).opensAt w := by
  rw [forcedWritten_frame]
  exact hw

theorem mapDrivers_channel (s : State) (f : Driver → Driver) (c : Fin 24) : (s.mapDrivers f).channel c =
    { s.channel c with
      driver := f (s.channel c).driver
      limitTicks := if f (s.channel c).driver = .driving then (s.channel c).limitTicks else none } := by
  simp only [State.mapDrivers, State.channel, mapV_get]
  rfl

theorem mapDrivers_seen (s : State) (f : Driver → Driver) :
    (s.mapDrivers f).seen c = { s.seen c with driver := f (s.seen c).driver } := by
  rw [seen_eq (m := s.run.mode) (p := s.place) (h := s.halfDone) (by simp) (by simp) (by simp)
    (mapDrivers_channel s f c)]
  rfl

theorem updRun_seen (s : State) (f : RunControl → RunControl) :
    (s.updRun f).seen c = { s.seen c with part := (f s.run).mode } := rfl

theorem startEngines_seen (s : State) : s.startEngines.seen c = s.seen c :=
  seen_of_channels (by simp) (by simp) (by simp) (by simp)

theorem startRun_moved (hm : s.run.mode = .config) : Moved c s s.startRun := by
  unfold State.startRun
  refine .trans ?_ ((startGenerators_moved _).trans (moved_of_seen (startEngines_seen _)))
  rw [mapDrivers_seen, updRun_seen]
  exact .single (.start hm)

theorem resumeRun_moved (hm : s.run.mode = .safe) : Moved c s s.resumeRun := by
  unfold State.resumeRun
  refine .trans ?_ ((startGenerators_moved _).trans (moved_of_seen (startEngines_seen _)))
  rw [updRun_seen]
  exact .single (.resume hm)

/-- The state of a STOP as the generators halt. -/
def State.stopEntry (s : State) : State :=
  (((s.dropDue Event.lapses).updRun fun r =>
    { r with mode := .config, monitor := { r.monitor with timer := none } }).updAngle AngleBase.stop).mapDrivers Driver.stop

theorem stopRun_eq (s : State) : s.stopRun = { s.stopEntry.haltGenerators.idleEngines with
    inputs := mapV (fun _ x => x.clearLive) s.stopEntry.haltGenerators.idleEngines.inputs, examineDue := false } := rfl

theorem stopRun_moved (hm : s.run.mode ≠ .config) : Moved c s s.stopRun := by
  have hseen : s.stopRun.seen c = s.stopEntry.haltGenerators.seen c :=
    seen_of_channels (by simp [stopRun_eq]) (by simp [stopRun_eq]) (by simp [stopRun_eq]) (by simp [stopRun_eq])
  have hentry : s.stopEntry.seen c = { s.seen c with part := .config, driver := (s.seen c).driver.stop } := by
    rw [State.stopEntry, mapDrivers_seen]
    rfl
  rw [Moved, hseen, haltGenerators_seen, hentry]
  exact .single (.stop hm)

theorem restoreDrivers_channel (s : State) (c : Fin 24) : s.restoreDrivers.channel c =
    if (s.channel c).autoRestore then { s.channel c with driver := (s.channel c).driver.restore s.run.mode }
    else s.channel c := by
  simp only [State.restoreDrivers, State.channel, mapV_get]
  rfl

theorem restoreDrivers_moved (s : State) : Moved c s s.restoreDrivers := by
  rw [Moved, seen_eq (m := s.run.mode) (p := s.place) (h := s.halfDone) (by simp) (by simp) (by simp)
    (restoreDrivers_channel s c)]
  split
  · exact .single .restores
  · exact .refl

theorem recoveries_moved (s : State) (p : Port) (x : BitVec 9) : Moved c s (s.recoveries p x) := by
  have hrecover (u : State) : Moved c u u.recover :=
    moved_of_seen (seen_of_channels (by simp) (by simp) (by simp) (by simp))
  cases p with
  | M => exact .refl
  | B =>
    unfold State.recoveries
    dsimp only
    split_ifs
    · exact (restoreDrivers_moved s).trans (hrecover _)
    · exact hrecover s
    · exact restoreDrivers_moved s
    · exact .refl

theorem judgedForStop_seen (s : State) : s.judgedForStop.seen c = s.seen c :=
  seen_of_steady (steady_judgedForStop s) (by rw [judgedForStop_frame]) (by rw [judgedForStop_frame])
    (by rw [judgedForStop_frame])

theorem settle_seen (s : State) : s.settle.seen c = s.seen c :=
  seen_of_steady (steady_settle s) (by simp) (by simp) (by simp)

theorem rigReset_channel (s : State) (c : Fin 24) : s.rigReset.channel c = resetChannel c := by
  simp only [State.rigReset, State.powerOn, State.reset, State.channel, Vector.get_eq_getElem, Vector.getElem_ofFn]

theorem powerOn_channel (s : State) (c : Fin 24) : s.powerOn.channel c = resetChannel c := by
  simp only [State.powerOn, State.reset, State.channel, Vector.get_eq_getElem, Vector.getElem_ofFn]

theorem rigReset_moved (s : State) : Moved c s s.rigReset := by
  rw [Moved, seen_eq (m := .config) (p := 0) (h := false) rfl rfl rfl (rigReset_channel s c)]
  exact .single .reset

theorem powerOn_moved (s : State) : Moved c s s.powerOn := by
  rw [Moved, seen_eq (m := .config) (p := 0) (h := false) rfl rfl rfl (powerOn_channel s c)]
  exact .single .reset

/-- What a request can do to a channel as the laws see it. -/
theorem leaves_moved {t : State} (h : Leaves s t) : Moved c s t := by
  cases h with
  | start hm => exact startRun_moved hm
  | resume hm _ => exact resumeRun_moved hm
  | counted => exact moved_of_seen (judgedForStop_seen s)
  | stop hm _ _ => exact (moved_of_seen (judgedForStop_seen s)).trans (stopRun_moved hm)
  | enterSafe _ => exact (enterSafe_moved s .request).trans (moved_of_seen (settle_seen _))
  | reset => exact rigReset_moved s
  | deadline m _ _ => exact moved_of_seen (by rw [updRun_seen]; rfl)
  | live l => exact (moved_of_seen (applyEntries_seen s l)).trans (pairsWritten_moved _ _)
  | stepMark => exact marked_moved s
  | channel d g hm =>
    have hwritten := fieldsWritten_moved (c := c) s d g hm
    split
    · exact hwritten
    · exact hwritten.trans (basePairChanged_moved (fieldsWritten_opensAt d g (startPlace_opensAt s)))
  | force d v =>
    exact (moved_of_seen (forcedWritten_seen s d v)).trans
      (basePairChanged_moved (forcedWritten_opensAt d v (startPlace_opensAt s)))
  | release k =>
    exact moved_of_seen ((settle_seen _).trans (seen_of_steady (steady_release s k) (by simp [release_eq_safeRecord])
      (by simp [release_eq_safeRecord]) (by simp [release_eq_safeRecord])))
  | transfer x _ _ _ _ => rw [beginTransfer_frame]; exact .refl
  | queueReplay n d _ _ _ => rw [enqueue_frame]; exact .refl
  | stopReplay n =>
    refine moved_of_seen ((settle_seen _).trans ?_)
    rw [discardAll_frame]
    rfl
  | clearNotices p x =>
    exact (moved_of_seen (seen_of_channels (by simp) (by simp) (by simp) (by simp))).trans (recoveries_moved _ p x)
  | takeCaptures p n => exact moved_of_seen (seen_of_channels (by simp) (by simp) (by simp) (by simp))
  | enables p x => exact moved_of_seen (seen_of_channels (by simp) (by simp) (by simp) (by simp))
  | same | speed _ _ _ | angleBase _ _ | active _ _ _ | staged _ _ _ | timing _ | arm _ _ _ _ _ | clear _ _
  | define _ _ _ _ _ _ | free _ _ _ | setReplay _ _ _ _ _ | setCapture _ _ _ _ => exact .refl

/-! ## The laws -/

theorem kept_channelMoves (c : Fin 24) (s : State) : Kept (Moved c s) where
  pending _ _ h := h
  port u p f _ h := h.trans (moved_of_seen (seen_of_channels (by simp) (by simp) (by simp) (by simp)))
  request i u h := h.trans (leaves_moved (handle_leaves u i))
  transfer _ _ _ h := h
  perform u e h := h.trans (perform_moved u e)
  settle u h := h.trans (moved_of_seen (settle_seen u))
  due _ _ h := h
  pins _ _ h := h
  count u b h := (h.trans (keepOutputs_moved u)).trans (countGenerators_moved u.keepOutputs b)
  tick u h := h.trans (makeTick_moved u)
  voltage u i v h := h.trans (moved_of_seen (seen_of_channels (by simp) (by simp) (by simp) (by simp)))
  powerOn u h := h.trans (powerOn_moved u)
  rigReset u h := h.trans (rigReset_moved u)

/-- A property of what the laws see of a channel that each move keeps is kept by every step. -/
theorem step_keeps_seen {Q : Seen → Prop} (hQ : ∀ x y, ChannelMove c x y → Q x → Q y) {t : State}
    (hs : Q (s.seen c)) (ht : step s = .next t) : Q (t.seen c) := by
  have hmoves : ReflTransGen (ChannelMove c) (s.seen c) (t.seen c) := (kept_channelMoves c s).step .refl ht
  generalize t.seen c = y at hmoves
  induction hmoves with
  | refl => exact hs
  | tail _ hmove ih => exact hQ _ _ hmove ih

theorem channelMove_keeps_code {x y : Seen} (h : ChannelMove c x y) (hx : kindOf c = .analog → x.out ≤ 4000) :
    kindOf c = .analog → y.out ≤ 4000 := by
  cases h with
  | refresh n v hn hv => exact fun _ => hv
  | output v hc => exact fun hk => absurd hk hc
  | reset => exact fun _ => Nat.zero_le _
  | _ => exact hx

/-- The noise source's advance is a bijection that keeps 0 alone at 0 (R110). -/
theorem noiseNext_ne_zero {x : Half} (h : x ≠ 0) : noiseNext x ≠ 0 := by
  unfold noiseNext
  split
  · intro h0
    have htop := congrArg (fun v : Half => v.getLsbD 15) h0
    simp at htop
  next hlow =>
    intro h0
    refine h (BitVec.eq_of_getLsbD_eq fun i hi => ?_)
    cases i with
    | zero => simpa using hlow
    | succ i =>
      have hbit := congrArg (fun v : Half => v.getLsbD i) h0
      simpa [BitVec.getLsbD_ushiftRight, Nat.add_comm] using hbit

theorem resetChannel_noise_ne_zero (c : Fin 24) : (resetChannel c).noise ≠ 0 := by
  revert c; decide

theorem channelMove_keeps_noise {x y : Seen} (h : ChannelMove c x y) (hx : x.noise ≠ 0) : y.noise ≠ 0 := by
  cases h with
  | refresh n v hn hv => exact hn.elim (· ▸ hx) (· ▸ noiseNext_ne_zero hx)
  | opens g n _ _ hn => exact hn.elim (· ▸ hx) (· ▸ noiseNext_ne_zero hx)
  | reset => exact resetChannel_noise_ne_zero c
  | _ => exact hx

theorem step_keeps_codeLaw {t : State} (hs : s.codeLaw) (ht : step s = .next t) : t.codeLaw := fun c =>
  step_keeps_seen (Q := fun x => kindOf c = .analog → x.out ≤ 4000) (fun _ _ => channelMove_keeps_code) (hs c) ht

theorem step_keeps_noiseLaw {t : State} (hs : s.noiseLaw) (ht : step s = .next t) : t.noiseLaw := fun c =>
  step_keeps_seen (Q := fun x => x.noise ≠ 0) (fun _ _ => channelMove_keeps_noise) (hs c) ht

/-- Settles O54: the Angle Base's moves keep the speeds and the tables, a channel's moves its code and noise source. -/
theorem stepKeepsRanges : Obligations.StepKeepsRanges :=
  ⟨fun _ _ => step_keeps_speedLaw, fun _ _ => step_keeps_tableLaw, fun _ _ => step_keeps_codeLaw,
    fun _ _ => step_keeps_noiseLaw⟩

/-! ### Drivers, generators and starts -/

theorem channelMove_keeps_driver {x y : Seen} (h : ChannelMove c x y)
    (hx : (x.part = .config → x.driver ≠ .driving) ∧ (x.part ≠ .config → x.driver ≠ .off)) :
    (y.part = .config → y.driver ≠ .driving) ∧ (y.part ≠ .config → y.driver ≠ .off) := by
  obtain ⟨hconfig, hruns⟩ := hx
  cases h with
  | trips => exact ⟨fun _ => nofun, fun _ => nofun⟩
  | restores =>
    refine ⟨fun hp => ?_, fun hp => ?_⟩
    · have := hconfig hp
      cases hd : x.driver <;> simp_all [Driver.restore]
    · have := hruns hp
      cases hd : x.driver <;> simp_all [Driver.restore]
  | start hp => exact ⟨nofun, fun _ => by cases x.driver <;> nofun⟩
  | resume hp => exact ⟨nofun, fun _ => hruns (by rw [hp]; nofun)⟩
  | enterSafe hp => exact ⟨nofun, fun _ => hruns (by rw [hp]; nofun)⟩
  | stop hp => exact ⟨fun _ => by cases x.driver <;> nofun, fun h => absurd rfl h⟩
  | reset => exact ⟨fun _ => nofun, fun h => absurd rfl h⟩
  | _ => exact ⟨hconfig, hruns⟩

/-- The law of a FREE generator for one channel (R32, R34). -/
def generatorGood (c : Fin 24) (x : Seen) : Prop :=
  ∀ g, x.gen = some g → x.part = .run ∧ kindOf c = .pulse ∧ x.mode = .free ∧ g.clamped

theorem channelMove_keeps_generator {x y : Seen} (h : ChannelMove c x y) (hx : generatorGood c x) :
    generatorGood c y := by
  cases h with
  | opens g n hmay hg hn =>
    rintro _ ⟨⟩
    rcases hmay with hrun | ⟨hp, hk, hm, -⟩
    · obtain ⟨g', hg'⟩ := Option.isSome_iff_exists.1 hrun
      obtain ⟨hp, hk, hm, -⟩ := hx g' hg'
      exact ⟨hp, hk, hm, hg⟩
    · exact ⟨hp, hk, hm, hg⟩
  | goesLow g hgen => rintro _ ⟨⟩; exact hx g hgen
  | grid b =>
    intro g hg
    obtain ⟨g', hg', rfl⟩ := Option.map_eq_some_iff.1 hg
    exact hx g' hg'
  | halts | setMode _ _ | reset => nofun
  | start hp => exact fun g hg => absurd ((hx g hg).1.symm.trans hp) (by decide)
  | resume hp => exact fun g hg => absurd ((hx g hg).1.symm.trans hp) (by decide)
  | enterSafe hp =>
    intro g hg
    dsimp only at hg
    split at hg
    · cases hg
    next hk => exact absurd (hx g hg).2.1 hk
  | stop hp =>
    intro g hg
    dsimp only at hg
    split at hg
    · cases hg
    next hk => exact absurd (hx g hg).2.1 hk
  | _ => exact hx

/-- The law of a start to come for one channel (R32, R34). -/
def startGood (c : Fin 24) (x : Seen) : Prop :=
  (0 < x.wait → x.part = .run ∧ kindOf c = .pulse ∧ x.mode = .free ∧ x.gen = none ∧ x.wait ≤ x.place) ∧
    x.place ≤ x.bound

theorem opensAt_bound {x : Seen} (h : x.opensAt w) (hx : x.place ≤ x.bound) : w ≤ x.bound :=
  h.2.elim (·.trans hx) id

theorem channelMove_keeps_start {x y : Seen} (h : ChannelMove c x y) (hx : startGood c x) : startGood c y := by
  obtain ⟨hwait, hplace⟩ := hx
  cases h with
  | opens g n hmay hg' hn =>
    refine ⟨fun hw => ?_, hplace⟩
    obtain ⟨-, -, -, hnone, -⟩ := hwait hw
    rcases hmay with hrun | ⟨-, -, -, -, h0⟩
    · simp [hnone] at hrun
    · exact absurd h0 hw.ne'
  | goesLow g hgen =>
    refine ⟨fun hw => ?_, hplace⟩
    obtain ⟨-, -, -, hnone, -⟩ := hwait hw
    cases hgen.symm.trans hnone
  | grid b =>
    have hbound : x.bound ≤ 2 := by unfold Seen.bound; split <;> omega
    refine ⟨fun hw => ?_, ?_⟩
    · dsimp only at hw
      obtain ⟨hp, hk, hm, hnone, hle⟩ := hwait (by omega)
      exact ⟨hp, hk, hm, by simp [hnone], Nat.sub_le_sub_right hle 1⟩
    · simp only [Seen.bound]
      split <;> omega
  | ticks =>
    refine ⟨hwait, hplace.trans ?_⟩
    simp only [Seen.bound]
    split <;> simp
  | halts | setMode _ _ => exact ⟨fun hw => absurd hw (lt_irrefl 0), hplace⟩
  | waits w hidle hw =>
    obtain ⟨hp, hk, hm, hnone, -⟩ := hidle
    exact ⟨fun _ => ⟨hp, hk, hm, hnone, le_rfl⟩, show w ≤ x.bound from opensAt_bound hw hplace⟩
  | place w hw =>
    refine ⟨fun h => ?_, show w ≤ x.bound from opensAt_bound hw hplace⟩
    obtain ⟨hp, hk, hm, hnone, hle⟩ := hwait h
    exact ⟨hp, hk, hm, hnone, hle.trans hw.1⟩
  | start hp => exact ⟨fun h => absurd ((hwait h).1.symm.trans hp) (by decide), hplace⟩
  | resume hp => exact ⟨fun h => absurd ((hwait h).1.symm.trans hp) (by decide), hplace⟩
  | enterSafe hp =>
    refine ⟨fun h => ?_, hplace⟩
    dsimp only at h
    split at h
    · exact absurd h (lt_irrefl 0)
    next hk => exact absurd (hwait h).2.1 hk
  | stop hp =>
    refine ⟨fun h => ?_, hplace⟩
    dsimp only at h
    split at h
    · exact absurd h (lt_irrefl 0)
    next hk => exact absurd (hwait h).2.1 hk
  | reset => exact ⟨fun hw => absurd hw (lt_irrefl 0), Nat.zero_le _⟩
  | refresh _ _ _ _ | output _ _ | trips | restores => exact ⟨hwait, hplace⟩

theorem step_keeps_driverLaw {t : State} (hs : s.driverLaw) (ht : step s = .next t) : t.driverLaw := fun c =>
  step_keeps_seen
    (Q := fun x => (x.part = .config → x.driver ≠ .driving) ∧ (x.part ≠ .config → x.driver ≠ .off))
    (fun _ _ => channelMove_keeps_driver) (hs c) ht

theorem generatorLaw_iff : s.generatorLaw ↔ ∀ c, generatorGood c (s.seen c) := Iff.rfl

theorem startLaw_iff : s.startLaw ↔ ∀ c, startGood c (s.seen c) := by
  constructor
  · rintro ⟨hwait, hplace⟩ c
    exact ⟨hwait c, hplace⟩
  · intro h
    exact ⟨fun c => (h c).1, (h 0).2⟩

theorem step_keeps_generatorLaw {t : State} (hs : s.generatorLaw) (ht : step s = .next t) : t.generatorLaw :=
  generatorLaw_iff.2 fun c =>
    step_keeps_seen (Q := generatorGood c) (fun _ _ => channelMove_keeps_generator) (generatorLaw_iff.1 hs c) ht

theorem step_keeps_startLaw {t : State} (hs : s.startLaw) (ht : step s = .next t) : t.startLaw :=
  startLaw_iff.2 fun c =>
    step_keeps_seen (Q := startGood c) (fun _ _ => channelMove_keeps_start) (startLaw_iff.1 hs c) ht

end Machine

end Sys2Proof
end

section
/-! What every step keeps of Run Control's timer (R178) and of the live state of the capture inputs (R150 to R153). -/

namespace Sys2Proof.Machine

variable {s u : State}

/-! ## Run Control -/

@[simp] theorem fireCounted_run (s : State) : s.fireCounted.run = s.run := by simp

/-- Run Control after a cause of an entry to SAFE (R174, R182). -/
theorem enterSafe_run (s : State) (why : SafeCause) : (s.enterSafe why).run =
    if s.run.mode = .run then
      { s.run with mode := .safe, cause := some ⟨why, s.rigTime⟩, monitor := { s.run.monitor with timer := none } }
    else s.run := by
  unfold State.enterSafe
  split <;> simp

theorem timerLaw_of_run (h : u.run = s.run) (hs : s.timerLaw) : u.timerLaw := by
  unfold State.timerLaw at hs ⊢
  rwa [h]

/-- A stopped timer keeps the law. -/
theorem timerLaw_of_stopped (h : s.run.monitor.timer = none) : s.timerLaw := fun ht => by
  rw [h] at ht
  exact absurd ht (by decide)

theorem enterSafe_timerLaw (why : SafeCause) (hs : s.timerLaw) : (s.enterSafe why).timerLaw := by
  have hrun := enterSafe_run s why
  split at hrun
  · exact timerLaw_of_stopped (by rw [hrun])
  · exact timerLaw_of_run hrun hs

theorem takeSafeLine_timerLaw (hs : s.timerLaw) : s.takeSafeLine.timerLaw := by
  unfold State.takeSafeLine
  dsimp only
  split_ifs
  · exact enterSafe_timerLaw _ hs
  · exact hs
  · exact hs

theorem takeDeadline_timerLaw (hs : s.timerLaw) : s.takeDeadline.timerLaw := by
  unfold State.takeDeadline
  split
  next h =>
    obtain ⟨hmode, -⟩ := h
    have hmiss : ((s.updRun fun r => { r with monitor := r.monitor.miss }).raiseBoth .deadlineMissed).timerLaw := by
      intro ht
      simp only [State.raiseBoth_frame, State.updRun_run] at ht ⊢
      unfold Monitor.miss at ht ⊢
      split at ht
      next hlimit => exact ⟨hmode, .inr (by rw [if_pos hlimit])⟩
      · simp at ht
    dsimp only
    split
    · exact enterSafe_timerLaw _ hmiss
    · exact hmiss
  · exact hs

theorem takeCaptureReport_timerLaw (i : Fin 16) (hs : s.timerLaw) : (s.takeCaptureReport i).timerLaw := by
  have hedge (l st) : (s.edgeRecorded i l st).timerLaw := timerLaw_of_run (by rw [edgeRecorded_frame]) hs
  obtain h | ⟨l, st, -, -, ⟨-, h⟩ | ⟨-, h⟩⟩ := takeCaptureReport_cases s i <;> rw [h]
  · exact hs
  · exact hedge l st
  · exact enterSafe_timerLaw _ (hedge l st)

theorem perform_timerLaw (e : Event) (hs : s.timerLaw) : (s.perform e).timerLaw := by
  cases e with
  | captureReport i => exact takeCaptureReport_timerLaw i hs
  | deadline => exact takeDeadline_timerLaw hs
  | safeLine => exact takeSafeLine_timerLaw hs
  | _ => exact timerLaw_of_run (by simp [State.perform]) hs

/-- A monitor that starts has its timer run where it is ON_TIME (R178). -/
theorem start_timerLaw (h : s.run.mode = .run) (h' : ∃ m : Monitor, s.run.monitor = m.start) : s.timerLaw := by
  obtain ⟨m, hm⟩ := h'
  intro ht
  refine ⟨h, .inl ?_⟩
  rw [hm] at ht ⊢
  unfold Monitor.start at ht ⊢
  split at ht
  next he => rw [if_pos he]
  · simp at ht

theorem startRun_run (s : State) :
    s.startRun.run = { s.run with mode := .run, monitor := s.run.monitor.start } := by
  simp [State.startRun]

theorem resumeRun_run (s : State) :
    s.resumeRun.run = { s.run with mode := .run, monitor := s.run.monitor.start } := by
  simp [State.resumeRun]

theorem stopRun_run (s : State) :
    s.stopRun.run = { s.run with mode := .config, monitor := { s.run.monitor with timer := none } } := by
  simp [State.stopRun]

theorem marked_timerLaw (hs : s.timerLaw) : s.marked.timerLaw := by
  unfold State.marked
  split
  next hmode =>
    intro ht
    have hrun : (s.copySlots.updRun fun r => { r with monitor := r.monitor.mark }).run =
        { s.run with monitor := s.run.monitor.mark } := by simp
    rw [hrun] at ht ⊢
    refine ⟨hmode, ?_⟩
    cases hstate : s.run.monitor.state with
    | onTime | late => exact .inl (by simp [Monitor.mark, hstate])
    | off | lost =>
      have h := (hs (by simpa [Monitor.mark, hstate] using ht)).2
      simp [hstate] at h
  · exact timerLaw_of_run (by simp) hs

theorem leaves_timerLaw {t : State} (h : Leaves s t) (hs : s.timerLaw) : t.timerLaw := by
  cases h with
  | start _ => exact start_timerLaw (by rw [startRun_run]) ⟨_, by rw [startRun_run]⟩
  | resume _ _ => exact start_timerLaw (by rw [resumeRun_run]) ⟨_, by rw [resumeRun_run]⟩
  | counted => exact timerLaw_of_run (by rw [judgedForStop_frame]) hs
  | stop _ _ _ => exact timerLaw_of_stopped (by rw [stopRun_run])
  | enterSafe _ => exact timerLaw_of_run (s := s.enterSafe .request) (by simp) (enterSafe_timerLaw _ hs)
  | reset => exact timerLaw_of_stopped rfl
  | deadline m hm ht =>
    refine timerLaw_of_stopped ?_
    rw [State.updRun_run]
    refine ht.trans (Option.not_isSome_iff_eq_none.1 fun hrun => ?_)
    exact absurd (hm.symm.trans (hs hrun).1) (by decide)
  | stepMark => exact marked_timerLaw hs
  | live l => exact timerLaw_of_run (by rw [liveUpdated_frame]) hs
  | channel c g _ =>
    have h : (s.fieldsWritten c g).run = s.run := by rw [fieldsWritten_frame]
    split
    · exact timerLaw_of_run h hs
    · exact timerLaw_of_run (by simpa using h) hs
  | force c v =>
    have h : (s.forcedWritten c v).run = s.run := by rw [forcedWritten_frame]
    exact timerLaw_of_run (by simpa using h) hs
  | release k => exact timerLaw_of_run (by simp [release_eq_safeRecord]) hs
  | transfer x _ _ _ _ => exact timerLaw_of_run (by rw [beginTransfer_frame]) hs
  | queueReplay n d _ _ _ => exact timerLaw_of_run (by rw [enqueue_frame]) hs
  | stopReplay n =>
    have h : (s.discardAll n).run = s.run := by rw [discardAll_frame]
    exact timerLaw_of_run (by simpa using h) hs
  | clearNotices p w => exact timerLaw_of_run (by rw [recoveries_frame]; simp) hs
  | same | speed _ _ _ | angleBase _ _ | active _ _ _ | staged _ _ _ | timing _ | arm _ _ _ _ _ | clear _ _
  | define _ _ _ _ _ _ | free _ _ _ | setReplay _ _ _ _ _ | setCapture _ _ _ _ | takeCaptures _ _ | enables _ _ =>
    exact timerLaw_of_run (by simp) hs

theorem tickMonitor_timerLaw (hs : s.timerLaw) : s.tickMonitor.timerLaw := by
  unfold State.tickMonitor
  split
  next n hmode ht =>
    intro _
    exact hs (by rw [ht]; rfl)
  · exact hs

theorem tickSampled_timerLaw (hs : s.timerLaw) : s.tickSampled.timerLaw := by
  have hlimits : (s.tickGridded.addDue (clockEvents s.tickGridded.rigTime).2).sampleLimits.timerLaw :=
    timerLaw_of_run (by simp [State.tickGridded, State.tickFired, State.tickCounted, State.tickPlayed]) hs
  have hrun (u : State) : u.sampleSafeLine.timerLaw ↔ u.timerLaw := by
    simp [State.timerLaw, State.sampleSafeLine]
  rw [State.tickSampled, hrun]
  exact tickMonitor_timerLaw hlimits

theorem kept_timerLaw : Kept State.timerLaw where
  pending _ _ h := h
  port s p f _ h := timerLaw_of_run (by simp) h
  request i s h := leaves_timerLaw (handle_leaves s i) h
  transfer _ _ _ h := h
  perform s e h := perform_timerLaw e h
  settle s h := timerLaw_of_run (by simp) h
  due _ _ h := h
  pins _ _ h := h
  count s b h := timerLaw_of_run (by simp) h
  tick s h := by
    rw [makeTick_eq]
    exact timerLaw_of_run (by simp) (tickSampled_timerLaw h)
  voltage s i v h := timerLaw_of_run (by simp) h
  powerOn _ _ := timerLaw_of_stopped rfl
  rigReset _ _ := timerLaw_of_stopped rfl

/-! ## The capture inputs -/

/-- The law of one capture input in part mode `m` (R150, R152, R153). -/
def inputGood (m : Mode) (x : CaptureInput) : Prop :=
  (x.settings.agreement = 1 ∨ x.settings.agreement = 2 ∨ x.settings.agreement = 4) ∧
    x.disagree < x.settings.agreement ∧ (x.runStamp = none ↔ x.disagree = 0) ∧
    ((m = .config ∨ x.settings.enabled = false) →
      x.level = none ∧ x.disagree = 0 ∧ x.lastEdge = none ∧ x.edge = none)

theorem inputLaw_iff : s.inputLaw ↔ ∀ i, inputGood s.run.mode (s.input i) := Iff.rfl

section Input

variable {m m' : Mode} {x : CaptureInput}

/-- The law asks less of an input where the part is not in CONFIG. -/
theorem inputGood_of_mode (h : inputGood m x) (hm : m' = .config → m = .config) : inputGood m' x := by
  obtain ⟨hagree, hless, hstamp, hrest⟩ := h
  exact ⟨hagree, hless, hstamp, fun h' => hrest (h'.imp_left hm)⟩

theorem inputGood_clearLive (h : inputGood m x) : inputGood m' x.clearLive := by
  obtain ⟨hagree, -, -, -⟩ := h
  refine ⟨hagree, ?_, ⟨fun _ => rfl, fun _ => rfl⟩, fun _ => ⟨rfl, rfl, rfl, rfl⟩⟩
  show 0 < x.settings.agreement
  omega

/-- An agreement that is discarded, and the level and last edge of an enabled input outside CONFIG, are free. -/
theorem inputGood_restartFilter (h : inputGood m x) (l : Option Bool) (e : Option Stamp)
    (hm : m = .config ∨ x.settings.enabled = false → l = none ∧ e = none) :
    inputGood m { x.restartFilter with level := l, lastEdge := e } := by
  obtain ⟨hagree, -, -, -⟩ := h
  refine ⟨hagree, ?_, ⟨fun _ => rfl, fun _ => rfl⟩, fun h => ⟨(hm h).1, rfl, (hm h).2, rfl⟩⟩
  show 0 < x.settings.agreement
  omega

/-- A sample of an enabled input outside CONFIG keeps the law (R152, R153). -/
theorem inputGood_sample (h : inputGood m x) (hm : m ≠ .config) (he : x.settings.enabled = true) (st : Stamp) :
    inputGood m (x.sample st) := by
  have hlive {p : Prop} (h : m = .config ∨ x.settings.enabled = false) : p :=
    absurd h (by simp [hm, he])
  obtain ⟨hagree, hless, hstamp, hrest⟩ := h
  cases hl : x.level with
  | none =>
    rw [CaptureInput.sample_of_unknown hl]
    exact ⟨hagree, hless, hstamp, hlive⟩
  | some l =>
    by_cases hc : x.comparator = l
    · rw [CaptureInput.sample_of_agreeing hl hc]
      refine ⟨hagree, ?_, ⟨fun _ => rfl, fun _ => rfl⟩, hlive⟩
      show 0 < x.settings.agreement
      omega
    · rw [CaptureInput.sample_of_disagreeing hl hc rfl]
      split
      · exact ⟨hagree, hless, hstamp, hlive⟩
      next hmore =>
        refine ⟨hagree, not_le.1 hmore, ⟨fun hnone => ?_, fun h0 => absurd h0 (Nat.succ_ne_zero _)⟩, hlive⟩
        dsimp only at hnone
        split at hnone
        · cases hnone
        next h0 => exact absurd (hstamp.1 hnone) h0

theorem judgeCapture_agreement {g : CaptureArgs} {y : CaptureSettings} (h : judgeCapture g = some y) :
    y.agreement = 1 ∨ y.agreement = 2 ∨ y.agreement = 4 := by
  have hnone : ¬ judgeCapture g = none := by rw [h]; nofun
  have hin : g.agreement.toNat ∈ [1, 2, 4] := by
    by_contra hout
    exact hnone (judgeCapture_eq_none_iff.2 (.inr (.inr (.inr (.inr hout)))))
  obtain ⟨-, -, hagree, -⟩ := judgeCapture_eq_some h
  rw [hagree]
  simpa using hin

/-- An input with new settings keeps the law (R164). -/
theorem inputGood_configure {g : CaptureArgs} {y : CaptureSettings} (hy : judgeCapture g = some y) (mv : Int)
    (h : inputGood m x) : inputGood m (configureInput y mv x) := by
  have hagree := judgeCapture_agreement hy
  obtain ⟨-, hless, hstamp, hrest⟩ := h
  cases he : y.enabled with
  | false =>
    obtain ⟨hl, hd, hr, hlast, hedge⟩ := configureInput_of_disabled (mv := mv) (x := x) he
    refine ⟨by rwa [configureInput_settings], ?_, ⟨fun _ => hd, fun _ => hr⟩, fun _ => ⟨hl, hd, hlast, hedge⟩⟩
    rw [configureInput_settings, hd]
    omega
  | true =>
    obtain ⟨hl, hlast⟩ := configureInput_of_enabled (mv := mv) (x := x) he
    have hlive (p : m = .config ∨ (configureInput y mv x).settings.enabled = false) : m = .config := by
      rw [configureInput_settings, he] at p
      simpa using p
    refine ⟨by rwa [configureInput_settings], ?_⟩
    rw [configureInput_settings]
    cases hf : filterDiffers y x.settings with
    | false =>
      obtain ⟨hd, hr, hedge⟩ := configureInput_of_sameFilter (mv := mv) he hf
      rw [configureInput_settings] at hlive
      rw [hl, hlast, hd, hr, hedge, (filterDiffers_eq_false_iff.1 hf).2.2]
      exact ⟨hless, hstamp, fun p => hrest (.inl (hlive p))⟩
    | true =>
      obtain ⟨hd, hr, hedge⟩ := configureInput_of_otherFilter (mv := mv) he hf
      rw [configureInput_settings] at hlive
      rw [hl, hlast, hd, hr, hedge]
      refine ⟨by omega, by simp, fun p => ?_⟩
      obtain ⟨hnone, -, hlast', -⟩ := hrest (.inl (hlive p))
      exact ⟨hnone, rfl, hlast', rfl⟩

end Input

theorem inputLaw_of_inputs (hi : u.inputs = s.inputs) (hm : u.run.mode = .config → s.run.mode = .config)
    (hs : s.inputLaw) : u.inputLaw := by
  refine inputLaw_iff.2 fun i => ?_
  have h : u.input i = s.input i := by rw [State.input, State.input, hi]
  rw [h]
  exact inputGood_of_mode (inputLaw_iff.1 hs i) hm

/-- A change of one input that keeps its law. -/
theorem inputLaw_updInput {i : Fin 16} {f : CaptureInput → CaptureInput} (hs : s.inputLaw)
    (h : inputGood s.run.mode (f (s.input i))) : (s.updInput i f).inputLaw := by
  refine inputLaw_iff.2 fun j => ?_
  by_cases hij : i = j
  · subst hij; simpa using h
  · simpa [hij] using inputLaw_iff.1 hs j

theorem enterSafe_inputLaw (why : SafeCause) (hs : s.inputLaw) : (s.enterSafe why).inputLaw := by
  refine inputLaw_of_inputs (by simp) (fun hm => ?_) hs
  rw [enterSafe_run] at hm
  split at hm
  · cases hm
  · exact hm

theorem edgeRecorded_inputs (s : State) (i : Fin 16) (l : Bool) (st : Stamp) : (s.edgeRecorded i l st).inputs =
    (s.updInput i fun x => { x.restartFilter with level := some !l, lastEdge := some st }).inputs := by
  unfold State.edgeRecorded
  dsimp only
  split <;> simp

theorem takeCaptureReport_inputLaw (i : Fin 16) (hs : s.inputLaw) : (s.takeCaptureReport i).inputLaw := by
  have hedge (l st) (hl : (s.input i).level = some l) : (s.edgeRecorded i l st).inputLaw := by
    have hupd : (s.updInput i fun x => { x.restartFilter with level := some !l, lastEdge := some st }).inputLaw := by
      refine inputLaw_updInput hs (inputGood_restartFilter (inputLaw_iff.1 hs i) _ _ fun h => ?_)
      obtain ⟨-, -, -, hrest⟩ := inputLaw_iff.1 hs i
      exact absurd (hl.symm.trans (hrest h).1) nofun
    exact inputLaw_of_inputs (edgeRecorded_inputs s i l st) (by rw [edgeRecorded_frame]; exact id) hupd
  obtain h | ⟨l, st, hl, -, ⟨-, h⟩ | ⟨-, h⟩⟩ := takeCaptureReport_cases s i <;> rw [h]
  · exact hs
  · exact hedge l st hl
  · exact enterSafe_inputLaw _ (hedge l st hl)

theorem takeSafeLine_inputLaw (hs : s.inputLaw) : s.takeSafeLine.inputLaw := by
  unfold State.takeSafeLine
  dsimp only
  split_ifs
  · exact enterSafe_inputLaw _ hs
  · exact hs
  · exact hs

theorem takeDeadline_inputLaw (hs : s.inputLaw) : s.takeDeadline.inputLaw := by
  have hmiss : ((s.updRun fun r => { r with monitor := r.monitor.miss }).raiseBoth .deadlineMissed).inputLaw :=
    inputLaw_of_inputs (by simp) (by simp) hs
  unfold State.takeDeadline
  dsimp only
  split_ifs
  · exact enterSafe_inputLaw _ hmiss
  · exact hmiss
  · exact hs

theorem perform_inputLaw (e : Event) (hs : s.inputLaw) : (s.perform e).inputLaw := by
  cases e with
  | captureReport i => exact takeCaptureReport_inputLaw i hs
  | deadline => exact takeDeadline_inputLaw hs
  | safeLine => exact takeSafeLine_inputLaw hs
  | _ => exact inputLaw_of_inputs (by simp [State.perform]) (by simp [State.perform]) hs

theorem sampleInputs_input (s : State) (i : Fin 16) : s.sampleInputs.input i =
    if s.samples (s.input i) then (s.input i).sample s.stampNow else s.input i := by
  simp only [State.sampleInputs, State.input, mapV_get]
  rfl

theorem sampleInputs_inputLaw (hs : s.inputLaw) : s.sampleInputs.inputLaw := by
  refine inputLaw_iff.2 fun i => ?_
  have hrun : s.sampleInputs.run = s.run := by simp
  rw [sampleInputs_input, hrun]
  split
  next h =>
    obtain ⟨⟨he, hm⟩, -⟩ : (((s.input i).settings.enabled = true ∧ s.run.mode ≠ .config) ∧ _) := by
      simpa [State.samples] using h
    exact inputGood_sample (inputLaw_iff.1 hs i) hm he _
  · exact inputLaw_iff.1 hs i

theorem tickSampled_inputLaw (hs : s.inputLaw) : s.tickSampled.inputLaw := by
  have hfired : s.tickFired.inputLaw :=
    inputLaw_of_inputs (by simp [State.tickFired, State.tickCounted, State.tickPlayed, State.clocked])
      (by simp [State.tickFired, State.tickCounted, State.tickPlayed]) hs
  refine inputLaw_of_inputs (s := s.tickFired.sampleInputs) (by simp [State.tickSampled, State.tickGridded]) ?_
    (sampleInputs_inputLaw hfired)
  rw [State.tickSampled, sampleSafeLine_mode, tickMonitor_mode]
  simp [State.tickGridded]

theorem leaves_inputLaw {t : State} (h : Leaves s t) (hs : s.inputLaw) : t.inputLaw := by
  cases h with
  | start _ => exact inputLaw_of_inputs (by simp) (by rw [startRun_run]; nofun) hs
  | resume _ _ => exact inputLaw_of_inputs (by simp) (by rw [resumeRun_run]; nofun) hs
  | counted => exact inputLaw_of_inputs (by rw [judgedForStop_frame]) (by rw [judgedForStop_frame]; exact id) hs
  | stop _ _ _ =>
    have hjudged : s.judgedForStop.inputs = s.inputs := by rw [judgedForStop_frame]
    refine inputLaw_iff.2 fun i => ?_
    have hi : s.judgedForStop.stopRun.input i = (s.input i).clearLive := by
      simp [State.input, State.stopRun, hjudged]
    rw [hi]
    exact inputGood_clearLive (inputLaw_iff.1 hs i)
  | enterSafe _ =>
    exact inputLaw_of_inputs (s := s.enterSafe .request) (by simp) (by simp) (enterSafe_inputLaw _ hs)
  | reset =>
    refine inputLaw_iff.2 fun i => ?_
    simp [State.input, State.rigReset, State.powerOn, Vector.get_eq_getElem, resetInput, inputGood]
  | setCapture i g x hx => exact inputLaw_updInput hs (inputGood_configure hx _ (inputLaw_iff.1 hs i))
  | stepMark =>
    have hmode : s.marked.run.mode = s.run.mode := by unfold State.marked; split <;> simp
    exact inputLaw_of_inputs (by rw [marked_frame]) (by rw [hmode]; exact id) hs
  | live l => exact inputLaw_of_inputs (by rw [liveUpdated_frame]) (by rw [liveUpdated_frame]; exact id) hs
  | channel c g _ =>
    have h : (s.fieldsWritten c g).inputs = s.inputs := by rw [fieldsWritten_frame]
    have hr : (s.fieldsWritten c g).run = s.run := by rw [fieldsWritten_frame]
    split
    · exact inputLaw_of_inputs h (by rw [hr]; exact id) hs
    · exact inputLaw_of_inputs (by simpa using h) (by simp [hr]) hs
  | force c v =>
    have h : (s.forcedWritten c v).inputs = s.inputs := by rw [forcedWritten_frame]
    have hr : (s.forcedWritten c v).run = s.run := by rw [forcedWritten_frame]
    exact inputLaw_of_inputs (by simpa using h) (by simp [hr]) hs
  | release k => exact inputLaw_of_inputs (by simp [release_eq_safeRecord]) (by simp [release_eq_safeRecord]) hs
  | transfer x _ _ _ _ =>
    exact inputLaw_of_inputs (by rw [beginTransfer_frame]) (by rw [beginTransfer_frame]; exact id) hs
  | queueReplay n d _ _ _ => exact inputLaw_of_inputs (by rw [enqueue_frame]) (by rw [enqueue_frame]; exact id) hs
  | stopReplay n =>
    have h : (s.discardAll n).inputs = s.inputs := by rw [discardAll_frame]
    have hr : (s.discardAll n).run = s.run := by rw [discardAll_frame]
    exact inputLaw_of_inputs (by simpa using h) (by simp [hr]) hs
  | clearNotices p w =>
    exact inputLaw_of_inputs (by rw [recoveries_frame]; simp) (by rw [recoveries_frame]; simp) hs
  | same | deadline _ _ _ | speed _ _ _ | angleBase _ _ | active _ _ _ | staged _ _ _ | timing _ | arm _ _ _ _ _
  | clear _ _ | define _ _ _ _ _ _ | free _ _ _ | setReplay _ _ _ _ _ | takeCaptures _ _ | enables _ _ =>
    exact inputLaw_of_inputs (by simp) (by simp) hs

theorem kept_inputLaw : Kept State.inputLaw where
  pending _ _ h := h
  port s p f _ h := inputLaw_of_inputs (by simp) (by simp) h
  request i s h := leaves_inputLaw (handle_leaves s i) h
  transfer _ _ _ h := h
  perform s e h := perform_inputLaw e h
  settle s h := inputLaw_of_inputs (by simp) (by simp) h
  due _ _ h := h
  pins _ _ h := h
  count s b h := inputLaw_of_inputs (by simp) (by simp) h
  tick s h := by
    rw [makeTick_eq]
    exact inputLaw_of_inputs (s := s.tickSampled) (by simp) (by simp) (tickSampled_inputLaw h)
  voltage s i v h := inputLaw_updInput h (inputLaw_iff.1 h i)
  powerOn s _ := inputLaw_iff.2 fun i => by
    simp [State.input, State.powerOn, Vector.get_eq_getElem, resetInput, inputGood]
  rigReset s h := leaves_inputLaw .reset h

/-- Settles O55: a channel's moves keep what the mode says of drivers, generators and starts; the inputs and the timer
have their own laws. -/
theorem stepKeepsModeLaws : Obligations.StepKeepsModeLaws :=
  ⟨fun _ _ => step_keeps_driverLaw, fun _ _ => step_keeps_generatorLaw, fun _ _ _ => step_keeps_startLaw,
    fun _ _ => kept_inputLaw.step, fun _ _ => kept_timerLaw.step⟩

end Sys2Proof.Machine
end

section
/-! What every command keeps, with the port's own steps one by one: a word received, a word sent, a request taken, a
response placed (chapter 10). -/

namespace Sys2Proof.Machine

variable {s t : State}

/-! ## Commands that are requests -/

/-- A request command is offered to its port. -/
theorem exec_of_sender {i : Instr} {p : Port} {g : Byte} {e : RequestKind × List Word} (hs : i.sender = some (p, g))
    (he : encodePayload i = some e) : exec i s = s.request p g i := by
  cases i with
  | unknownKind p t k l => cases he
  | powerOnReset | resetLineAssert | resetLineRelease | rigTick _ | millisecondBoundary | cycleWrap | analogRefresh
  | periodStart _ | pulseHighEnd _ | driverTrip _ | movementComplete _ _ | movementFail _ _ | batteryFlagChange
  | safeLineChange | comparatorChange _ _ | captureEdgeReport _ | atTimeTrigger _ | onCaptureTrigger _
  | durationEnd _ | replayAdvance _ | deadlineExpiry | portWord _ _ | writeSamplesDone | readSamplesDone _ => cases hs
  | _ => cases hs; rfl

/-- Every command but UNKNOWN_KIND that has a sender has a payload. -/
theorem encodePayload_of_sender {i : Instr} {p : Port} {g : Byte} (hs : i.sender = some (p, g)) :
    (∃ k l, i = .unknownKind p g k l) ∨ ∃ e, encodePayload i = some e := by
  cases i with
  | unknownKind p t k l => cases hs; exact .inl ⟨k, l, rfl⟩
  | powerOnReset | resetLineAssert | resetLineRelease | rigTick _ | millisecondBoundary | cycleWrap | analogRefresh
  | periodStart _ | pulseHighEnd _ | driverTrip _ | movementComplete _ _ | movementFail _ _ | batteryFlagChange
  | safeLineChange | comparatorChange _ _ | captureEdgeReport _ | atTimeTrigger _ | onCaptureTrigger _
  | durationEnd _ | replayAdvance _ | deadlineExpiry | portWord _ _ | writeSamplesDone | readSamplesDone _ => cases hs
  | _ => exact .inr ⟨_, rfl⟩

/-! ## What every command keeps -/

/-- What must be shown of a property for every command to keep it; the ports by their own steps. -/
structure Carried (P : State → Prop) : Prop where
  receive : ∀ s p w, P s → P (s.updPort p fun q => q.receive w)
  send : ∀ s p, P s → P (s.updPort p PortState.send)
  outWord : ∀ s p w, P s → P (s.updPort p fun q => { q with outWord := w })
  taken : ∀ s p q rest, (s.port p).inbound = q :: rest → P s → P (s.updPort p fun x => { x with inbound := rest })
  answered : ∀ s p k tag x, s.portFree p = true → P s → P (deliver p k tag (judged s x))
  ended : ∀ s x, s.moving = some x → P s →
    P (({ s with memory := transferMemory s x, moving := s.queued, queued := none }).updPort x.port fun q =>
      q.formReserved (transferReply s x))
  perform : ∀ (s : State) (e : Event), P s → P (s.perform e)
  settle : ∀ s : State, P s → P s.settle
  due : ∀ s l, P s → P { s with due := l }
  pins : ∀ s x, P s → P { s with pins := x }
  count : ∀ s b, P s → P { s.keepOutputs.countGenerators with halfDone := b }
  tick : ∀ s : State, P s → P s.makeTick
  voltage : ∀ (s : State) (i : Fin 16) (v : Int), P s → P (s.setVoltage i v)
  powerOn : ∀ s : State, P s → P s.powerOn
  rigReset : ∀ s : State, P s → P s.rigReset

namespace Carried

variable {P : State → Prop} (h : Carried P)
include h

theorem serveFuel (n : Nat) : ∀ {s : State} (p : Port), P s → P (Machine.serveFuel n s p) := by
  induction n with
  | zero => exact fun _ hs => hs
  | succ n ih =>
    intro s p hs
    unfold Machine.serveFuel
    split
    · exact hs
    next q rest hq =>
      split
      next hfree =>
        have hfree' := (portFree_updPort (fun x => { x with inbound := rest }) fun _ => rfl).trans hfree.2
        exact ih _ (h.answered _ _ _ _ _ hfree' (h.taken _ _ _ _ hq hs))
      · exact hs

theorem serve {s : State} (p : Port) (hs : P s) : P (s.serve p) := h.serveFuel 8 p hs

theorem arrive {s : State} (p : Port) (w : Word) (hs : P s) : P (s.arrive p w) := h.serve _ (h.receive _ _ _ hs)

theorem foldl_arrive (p : Port) (l : List Word) : ∀ {s : State}, P s → P (l.foldl (State.arrive p) s) := by
  induction l with
  | nil => exact fun hs => hs
  | cons w l ih => exact fun hs => ih (h.arrive p w hs)

theorem submit {s : State} (p : Port) (q : Packet) (x : Except Status Instr) (hs : P s) : P (s.submit p q x) := by
  unfold State.submit
  split
  next hn =>
    refine h.answered _ _ _ _ _ ?_ hs
    simp only [State.takesNow, Bool.and_eq_true] at hn
    exact hn.2
  · split
    · exact hs
    · exact h.foldl_arrive _ _ hs

theorem clockWord {s : State} (p : Port) (w : Word) (hs : P s) : P (s.clockWord p w) := by
  unfold State.clockWord
  split
  · exact h.outWord _ _ _ hs
  · exact h.outWord _ _ _ (h.arrive _ _ (h.serve _ (h.send _ _ hs)))

theorem endTransfer {s : State} {x : Transfer} (hx : s.moving = some x) (hs : P s) : P (s.endTransfer x) :=
  h.serve _ (h.ended _ _ hx hs)

theorem takeEvent {s : State} (e : Event) (hs : P s) : P (s.takeEvent e) := by
  unfold State.takeEvent
  split
  · exact h.settle _ (h.perform _ _ (h.due _ _ hs))
  · exact hs

theorem foldl_perform (l : List Event) : ∀ {s : State}, P s → P (l.foldl State.perform s) := by
  induction l with
  | nil => exact fun hs => hs
  | cons e l ih => exact fun hs => ih (h.perform _ _ hs)

theorem takeAfter {s : State} (q : Event → Bool) (e : Event) (hs : P s) : P (s.takeAfter q e) := by
  unfold State.takeAfter
  split
  · exact h.takeEvent _ (h.foldl_perform _ (h.due _ _ hs))
  · exact hs

theorem flush {s : State} (hs : P s) : P s.flush := by
  have hfuel (n : Nat) : ∀ {s : State}, P s → P (Machine.flushFuel n s) := by
    induction n with
    | zero => exact fun hs => hs
    | succ n ih =>
      intro s hs
      unfold Machine.flushFuel
      split
      · exact hs
      · exact ih (h.settle _ (h.perform _ _ (h.due _ _ hs)))
  exact hfuel 1000 hs

theorem halfTick {s : State} (hs : P s) : P s.halfTick := h.count _ _ (h.flush hs)

theorem closeInstant {s : State} (hs : P s) : P s.closeInstant := by
  unfold State.closeInstant
  dsimp only
  split
  · exact h.flush hs
  · exact h.flush (h.halfTick (h.flush hs))

theorem takeGridEvent {s : State} (e : Event) (hs : P s) : P (s.takeGridEvent e) := by
  unfold State.takeGridEvent
  split
  · exact h.takeEvent _ hs
  · split
    · exact h.takeEvent _ (h.halfTick hs)
    · exact hs

theorem request {s t : State} {p : Port} {g : Byte} {i : Instr} (hs : P s) (ht : s.request p g i = .next t) : P t := by
  unfold State.request at ht
  split at ht
  · cases ht
  · split at ht
    · cases ht
    · cases ht; exact h.submit _ _ _ hs

/-- Every command keeps the property. -/
theorem exec {s t : State} (c : Instr) (hs : P s) (ht : Machine.exec c s = .next t) : P t := by
  cases hc : c.sender with
  | some x =>
    obtain ⟨p, g⟩ := x
    obtain ⟨k, l, rfl⟩ | ⟨e, he⟩ := encodePayload_of_sender hc
    · change execUnknownKind p g k l s = .next t at ht
      unfold execUnknownKind at ht
      split at ht
      · cases ht
      · cases ht; exact h.submit _ _ _ hs
    · rw [exec_of_sender hc he] at ht
      exact h.request hs ht
  | none =>
    cases c with
    | powerOnReset => cases ht; exact h.powerOn _ hs
    | resetLineAssert =>
      cases ht
      split
      · exact hs
      · exact h.pins _ _ (h.rigReset _ hs)
    | resetLineRelease => cases ht; exact h.pins _ _ hs
    | rigTick l =>
      cases ht
      unfold State.tick
      split
      · exact h.pins _ _ hs
      · exact h.tick _ (h.pins _ _ (h.closeInstant hs))
    | cycleWrap =>
      cases ht
      unfold State.wrapTick
      dsimp only
      split
      · exact h.tick _ (h.closeInstant hs)
      · exact hs
    | periodStart _ | pulseHighEnd _ => cases ht; exact h.takeGridEvent _ hs
    | comparatorChange i v => cases ht; exact h.voltage _ _ _ hs
    | millisecondBoundary | analogRefresh | captureEdgeReport _ => cases ht; exact h.takeAfter _ _ hs
    | driverTrip _ | movementComplete _ _ | movementFail _ _ | batteryFlagChange | safeLineChange
    | atTimeTrigger _ | onCaptureTrigger _ | durationEnd _ | replayAdvance _ | deadlineExpiry =>
      cases ht; exact h.takeEvent _ hs
    | portWord p w => cases ht; exact h.clockWord _ _ hs
    | writeSamplesDone =>
      cases ht
      unfold State.writeDone
      split
      · split
        · exact h.endTransfer (by assumption) hs
        · exact hs
      · exact hs
    | readSamplesDone p =>
      cases ht
      unfold State.readDone
      split
      · split
        · exact h.endTransfer (by assumption) hs
        · exact hs
      · exact hs
    | _ => cases hc

/-- Every step keeps a property that does not look at the waiting commands. -/
theorem step {s t : State} (hpending : ∀ s l, P s → P { s with pending := l }) (hs : P s)
    (ht : Machine.step s = .next t) : P t := by
  unfold Machine.step at ht
  split at ht
  · cases ht; exact hs
  · exact h.exec _ (hpending _ _ hs) ht

end Carried

/-! ## The waiting commands -/

/-- Settles O1: both clauses are the definition of a step. -/
theorem stepRunsFrontCommand : Obligations.StepRunsFrontCommand := by
  refine ⟨fun c s rest h => ?_, fun s h => ?_⟩
  · rw [step, h]; rfl
  · rw [step, h]

theorem leaves_pending (h : Leaves s t) : t.pending = s.pending := by
  cases h with
  | counted => rw [judgedForStop_frame]
  | stop _ _ _ =>
    have h : s.judgedForStop.pending = s.pending := by rw [judgedForStop_frame]
    simpa using h
  | stepMark => rw [marked_frame]
  | live l => rw [liveUpdated_frame]
  | channel c g _ =>
    have h : (s.fieldsWritten c g).pending = s.pending := by rw [fieldsWritten_frame]
    split
    · exact h
    · simpa using h
  | force c v =>
    have h : (s.forcedWritten c v).pending = s.pending := by rw [forcedWritten_frame]
    simpa using h
  | release k => simp [release_eq_safeRecord]
  | transfer x _ _ _ _ => rw [beginTransfer_frame]
  | queueReplay n d _ _ _ => rw [enqueue_frame]
  | stopReplay n =>
    have h : (s.discardAll n).pending = s.pending := by rw [discardAll_frame]
    simpa using h
  | clearNotices p w => rw [recoveries_frame]; simp
  | reset => rfl
  | same | start _ | resume _ _ | enterSafe _ | deadline _ _ _ | speed _ _ _ | angleBase _ _ | active _ _ _
  | staged _ _ _ | timing _ | arm _ _ _ _ _ | clear _ _ | define _ _ _ _ _ _ | free _ _ _
  | setReplay _ _ _ _ _ | setCapture _ _ _ _ | takeCaptures _ _ | enables _ _ => simp

theorem judged_pending (x : Except Status Instr) : (judged s x).state.pending = s.pending := by
  cases x with
  | error c => rfl
  | ok i => exact leaves_pending (handle_leaves s i)

theorem deliver_pending (p : Port) (k g : Byte) (x : Handled) : (deliver p k g x).pending = x.state.pending := by
  cases x <;> simp [deliver, Handled.state]

theorem carried_pending (l : List Instr) : Carried fun s => s.pending = l where
  receive _ _ _ h := by simpa using h
  send _ _ h := by simpa using h
  outWord _ _ _ h := by simpa using h
  taken _ _ _ _ _ h := by simpa using h
  answered s p k g x _ h := by rw [deliver_pending, judged_pending, h]
  ended _ _ _ h := by simpa using h
  perform s e h := by cases e <;> simpa [State.perform] using h
  settle _ h := by simpa using h
  due _ _ h := h
  pins _ _ h := h
  count _ _ h := by simpa using h
  tick _ h := by simpa using h
  voltage _ _ _ h := by simpa [State.setVoltage] using h
  powerOn _ h := h
  rigReset _ h := h

/-- Settles O2. -/
theorem execKeepsQueue : Obligations.ExecKeepsQueue := fun c s _ => (carried_pending s.pending).exec c rfl

end Sys2Proof.Machine
end

section
/-! Packets and the port's checks (10.1, 10.4, 11.1, 11.2): what stops a command, the order of the checks, and the reading
back of a request's words. -/

namespace Sys2Proof.Machine

variable {s : State} {p : Port} {g : Byte} {i : Instr} {e : RequestKind × List Word}

/-! ## What stops a command -/

/-- The payloads that may be too long for a packet (R188). -/
theorem encodePayload_long (he : encodePayload i = some e) (hl : 255 < e.2.length) :
    (∃ p t q l, i = .loadPattern p t q l ∧ 254 < l.length) ∨
      (∃ p t l, i = .liveUpdate p t l ∧ 127 < l.length) ∨
      ∃ p t g o l, i = .writeSamples p t g o l ∧ 506 < l.length := by
  cases i with
  | loadPattern p t q l => cases he; exact .inl ⟨_, _, _, _, rfl, by simp at hl; omega⟩
  | liveUpdate p t l =>
    cases he
    simp only [Laws.entryWords_length] at hl
    exact .inr (.inl ⟨_, _, _, rfl, by omega⟩)
  | writeSamples p t g o l =>
    cases he
    simp only [List.length_cons, Laws.packSamples_length] at hl
    exact .inr (.inr ⟨_, _, _, _, _, rfl, by omega⟩)
  | armFault p t k a =>
    cases he
    simp only [Laws.faultWords_length] at hl
    omega
  | setChannel p t c a => cases he; simp [channelWords] at hl
  | _ => cases he; try simp at hl

theorem request_of_long (he : encodePayload i = some e) (hl : 255 < e.2.length) :
    s.request p g i = .refused .notAPacket := by
  simp [State.request, he, hl]

theorem exec_of_long (hs : i.sender = some (p, g)) (he : encodePayload i = some e) (hl : 255 < e.2.length) :
    exec i s = .refused .notAPacket := (exec_of_sender hs he).trans (request_of_long he hl)

theorem exec_unknownKind_of_long {k : Byte} {l : List Word} (hl : 255 < l.length) :
    exec (.unknownKind p g k l) s = .refused .notAPacket := by
  change execUnknownKind p g k l s = _
  rw [execUnknownKind, if_pos hl]

/-- A command with no sender always has a next state. -/
theorem exec_next_of_event (h : i.sender = none) : ∃ t, exec i s = .next t := by
  cases i with
  | powerOnReset | resetLineAssert | resetLineRelease | rigTick _ | millisecondBoundary | cycleWrap | analogRefresh
  | periodStart _ | pulseHighEnd _ | driverTrip _ | movementComplete _ _ | movementFail _ _ | batteryFlagChange
  | safeLineChange | comparatorChange _ _ | captureEdgeReport _ | atTimeTrigger _ | onCaptureTrigger _
  | durationEnd _ | replayAdvance _ | deadlineExpiry | portWord _ _ | writeSamplesDone | readSamplesDone _ =>
    exact ⟨_, rfl⟩
  | _ => cases h

/-- Settles O3: a request whose payload fits has a next state, and only four payloads may not fit. -/
theorem commandsStopOnlyUnframed : Obligations.CommandsStopOnlyUnframed := by
  refine ⟨fun c s => ?_, fun p t q l s h => ?_, fun p t l s h => ?_, fun p t g o l s h => ?_,
    fun p t k l s h => exec_unknownKind_of_long h⟩
  · cases hc : c.sender with
    | none => exact .inl (exec_next_of_event hc)
    | some x =>
      obtain ⟨p, g⟩ := x
      obtain ⟨k, l, rfl⟩ | ⟨e, he⟩ := encodePayload_of_sender hc
      · by_cases hl : 255 < l.length
        · exact .inr ⟨exec_unknownKind_of_long hl, .inr (.inr (.inr ⟨_, _, _, _, rfl, hl⟩))⟩
        · change (∃ t, execUnknownKind p g k l s = .next t) ∨ _
          rw [execUnknownKind, if_neg hl]
          exact .inl ⟨_, rfl⟩
      · by_cases hl : 255 < e.2.length
        · refine .inr ⟨exec_of_long hc he hl, ?_⟩
          obtain h | h | h := encodePayload_long he hl
          · exact .inl h
          · exact .inr (.inl h)
          · exact .inr (.inr (.inl h))
        · rw [exec_of_sender hc he]
          exact .inl (request_next he (by omega))
  · exact exec_of_long rfl rfl (by simp; omega)
  · exact exec_of_long rfl rfl (by simp only [Laws.entryWords_length]; omega)
  · exact exec_of_long rfl rfl (by simp only [List.length_cons, Laws.packSamples_length]; omega)

/-! ## The port's checks (R192, R193) -/

theorem kindOfCode_code (k : RequestKind) : kindOfCode k.code = some k := by cases k <;> rfl

theorem kindOfCode_eq_none {c : Byte} (h : ∀ k : RequestKind, k.code ≠ c) : kindOfCode c = none :=
  List.find?_eq_none.2 fun k _ => by simpa using h k

theorem decodePacket_of_unknown {q : Packet} (h : ∀ k : RequestKind, k.code ≠ q.kind) :
    decodePacket p q = .error .unknownKind := by
  rw [decodePacket, kindOfCode_eq_none h]

theorem decodePacket_of_kind {q : Packet} {k : RequestKind} (h : k.code = q.kind) :
    decodePacket p q =
      if k.allowed p then (decodePayload k p q.tag q.payload).elim (.error .badLength) .ok else .error .wrongPort := by
  rw [decodePacket, ← h, kindOfCode_code]
  dsimp only
  cases decodePayload k p q.tag q.payload <;> rfl

section Lengths

variable {l : List Word}

theorem words0_of_fits {x : Instr} (h : l.length = 0) : words0 l x = some x := by
  rw [List.length_eq_zero_iff.1 h]; rfl

theorem words0_of_not_fits {x : Instr} (h : l.length ≠ 0) : words0 l x = none := by
  match l with
  | [] => simp at h
  | _ :: _ => rfl

theorem words1_of_fits {f : Word → Instr} (h : l.length = 1) : ∃ a, words1 l f = some (f a) := by
  obtain ⟨a, rfl⟩ := List.length_eq_one_iff.1 h
  exact ⟨a, rfl⟩

theorem words1_of_not_fits {f : Word → Instr} (h : l.length ≠ 1) : words1 l f = none := by
  match l with
  | [] => rfl
  | [_] => simp at h
  | _ :: _ :: _ => rfl

theorem words2_of_fits {f : Word → Word → Instr} (h : l.length = 2) : ∃ a b, words2 l f = some (f a b) := by
  obtain ⟨a, b, rfl⟩ := List.length_eq_two.1 h
  exact ⟨a, b, rfl⟩

theorem words2_of_not_fits {f : Word → Word → Instr} (h : l.length ≠ 2) : words2 l f = none := by
  match l with
  | [] | [_] => rfl
  | [_, _] => simp at h
  | _ :: _ :: _ :: _ => rfl

theorem words3_of_fits {f : Word → Word → Word → Instr} (h : l.length = 3) : ∃ a b c, words3 l f = some (f a b c) := by
  obtain ⟨a, b, c, rfl⟩ := List.length_eq_three.1 h
  exact ⟨a, b, c, rfl⟩

theorem words3_of_not_fits {f : Word → Word → Word → Instr} (h : l.length ≠ 3) : words3 l f = none := by
  match l with
  | [] | [_] | [_, _] => rfl
  | [_, _, _] => simp at h
  | _ :: _ :: _ :: _ :: _ => rfl

theorem entriesOf_isSome : ∀ l : List Word, (entriesOf l).isSome = (l.length % 2 == 0)
  | [] => rfl
  | [_] => rfl
  | _ :: _ :: rest => by
    have hlen : (rest.length + 1 + 1) % 2 = rest.length % 2 := by omega
    rw [entriesOf, Option.isSome_map, entriesOf_isSome rest, List.length_cons, List.length_cons, hlen]

end Lengths

/-- A payload of the layout's length is read, as a request of the port and the tag (R192, R202). -/
theorem decodePayload_of_fits {k : RequestKind} {l : List Word} (h : k.fits l = true) :
    ∃ i, decodePayload k p g l = some i ∧ i.sender = some (p, g) := by
  cases k with
  | start | stop | enterSafe | resume | resetRig | readRunState | readAngleBase | stepMark | echo | readNotices =>
    exact ⟨_, words0_of_fits (by simpa [RequestKind.fits] using h), rfl⟩
  | setDeadline | setAngleBase | readPattern | readChannel | setRelayTiming | readRelays | releaseFault | clearFault
  | readFault | freeSegment | readSegment | stopReplay | readReplay | takeCaptures | readCaptureState | clearNotices
  | setNoticeEnable =>
    obtain ⟨a, ha⟩ := words1_of_fits (l := l) (by simpa [RequestKind.fits] using h)
    exact ⟨_, ha, rfl⟩
  | setSpeed | force | readSamples | setCapture =>
    obtain ⟨a, b, ha⟩ := words2_of_fits (l := l) (by simpa [RequestKind.fits] using h)
    exact ⟨_, ha, rfl⟩
  | setChannel | defineSegment | queueReplay =>
    obtain ⟨a, b, c, ha⟩ := words3_of_fits (l := l) (by simpa [RequestKind.fits] using h)
    exact ⟨_, ha, rfl⟩
  | setReplay =>
    match l with
    | [_, _, _, _] => exact ⟨_, rfl, rfl⟩
    | [] | [_] | [_, _] | [_, _, _] | _ :: _ :: _ :: _ :: _ :: _ => simp [RequestKind.fits] at h
  | armFault =>
    match l with
    | [_, _, _, _, _, _, _, _] => exact ⟨_, rfl, rfl⟩
    | [] | [_] | [_, _] | [_, _, _] | [_, _, _, _] | [_, _, _, _, _] | [_, _, _, _, _, _] | [_, _, _, _, _, _, _]
    | _ :: _ :: _ :: _ :: _ :: _ :: _ :: _ :: _ :: _ => simp [RequestKind.fits] at h
  | loadPattern =>
    match l with
    | [] => simp [RequestKind.fits] at h
    | _ :: _ => exact ⟨_, rfl, rfl⟩
  | liveUpdate =>
    have hl : (entriesOf l).isSome = true := (entriesOf_isSome l).trans h
    obtain ⟨x, hx⟩ := Option.isSome_iff_exists.1 hl
    exact ⟨.liveUpdate p g x, by simp [decodePayload, hx], rfl⟩
  | writeSamples =>
    match l with
    | [] | [_] =>
      simp only [RequestKind.fits, List.length_cons, List.length_nil, beq_iff_eq] at h
      omega
    | a :: b :: rest =>
      have hl : rest.length = ((field a 0 16).toNat + 1) / 2 := by
        simp only [RequestKind.fits, List.length_cons, List.headD_cons, beq_iff_eq] at h
        omega
      exact ⟨_, if_pos hl, rfl⟩

/-- A payload of another length is not (R192, R202). -/
theorem decodePayload_of_not_fits {k : RequestKind} {l : List Word} (h : k.fits l = false) :
    decodePayload k p g l = none := by
  cases k with
  | start | stop | enterSafe | resume | resetRig | readRunState | readAngleBase | stepMark | echo | readNotices =>
    exact words0_of_not_fits (by simpa [RequestKind.fits] using h)
  | setDeadline | setAngleBase | readPattern | readChannel | setRelayTiming | readRelays | releaseFault | clearFault
  | readFault | freeSegment | readSegment | stopReplay | readReplay | takeCaptures | readCaptureState | clearNotices
  | setNoticeEnable => exact words1_of_not_fits (by simpa [RequestKind.fits] using h)
  | setSpeed | force | readSamples | setCapture => exact words2_of_not_fits (by simpa [RequestKind.fits] using h)
  | setChannel | defineSegment | queueReplay => exact words3_of_not_fits (by simpa [RequestKind.fits] using h)
  | setReplay =>
    match l with
    | [_, _, _, _] => simp [RequestKind.fits] at h
    | [] | [_] | [_, _] | [_, _, _] | _ :: _ :: _ :: _ :: _ :: _ => rfl
  | armFault =>
    match l with
    | [_, _, _, _, _, _, _, _] => simp [RequestKind.fits] at h
    | [] | [_] | [_, _] | [_, _, _] | [_, _, _, _] | [_, _, _, _, _] | [_, _, _, _, _, _] | [_, _, _, _, _, _, _]
    | _ :: _ :: _ :: _ :: _ :: _ :: _ :: _ :: _ :: _ => rfl
  | loadPattern =>
    match l with
    | [] => rfl
    | _ :: _ => simp [RequestKind.fits] at h
  | liveUpdate =>
    have hl : (entriesOf l).isSome = false := (entriesOf_isSome l).trans h
    have hnone : entriesOf l = none := by simpa using hl
    simp [decodePayload, hnone]
  | writeSamples =>
    match l with
    | [] | [_] => rfl
    | a :: b :: rest =>
      refine if_neg fun hl => ?_
      simp only [RequestKind.fits, List.length_cons, List.headD_cons, beq_eq_false_iff_ne] at h
      omega

/-- Settles O5: the kind code, then the port, then the length; the tables are those of the model. -/
theorem portChecksInOrder : Obligations.PortChecksInOrder := by
  refine ⟨fun p q h => decodePacket_of_unknown h, fun p q k h ha => ?_, fun p q k h ha hf => ?_,
    fun p q k h ha hf => ?_, fun k => ?_, fun k => ?_, by decide, by decide, by decide, by decide, by decide, by decide,
    by decide, by decide⟩
  · rw [decodePacket_of_kind h, if_neg (by simp [ha])]
  · rw [decodePacket_of_kind h, if_pos ha, decodePayload_of_not_fits hf, Option.elim_none]
  · obtain ⟨i, hi, hs⟩ := decodePayload_of_fits (p := p) (g := q.tag) hf
    exact ⟨i, by rw [decodePacket_of_kind h, if_pos ha, hi, Option.elim_some], hs⟩
  · cases k <;> decide
  · cases k <;> decide

/-! ## Requests refused by the port -/

/-- Settles O7. -/
theorem portRefusals : Obligations.PortRefusals := by
  refine ⟨fun s p t k l hn hk hl => ?_, fun s i p t e hn hs he hl ha => ?_⟩
  · change execUnknownKind p t k l s = _
    rw [execUnknownKind, if_neg (by omega)]
    dsimp only
    rw [State.submit, if_pos hn, decodePacket_of_unknown hk]
    rfl
  · rw [exec_of_sender hs he]
    exact request_of_wrongPort he hl ha hn

end Sys2Proof.Machine
end

section
/-! The words of requests (11.1, 11.2): fields of words put together from parts, and the reading back of every request. -/

namespace Sys2Proof.Machine

/-! ## Fields of words put together from parts -/

section Parts

variable {v w : Nat} (x : BitVec v) (y : BitVec w)

theorem extractLsb'_append_low (lo n : Nat) (h : lo ≤ w) (h' : n ≤ w - lo) :
    BitVec.extractLsb' lo n (x ++ y) = BitVec.extractLsb' lo n y := BitVec.extractLsb'_append_eq_of_add_le (by omega)

theorem extractLsb'_append_high (lo n : Nat) (h : w ≤ lo) :
    BitVec.extractLsb' lo n (x ++ y) = BitVec.extractLsb' (lo - w) n x := BitVec.extractLsb'_append_eq_of_le h

theorem extractLsb'_whole (lo : Nat) (h : lo = 0) : BitVec.extractLsb' lo w y = y := by
  subst h; ext; simp

theorem getLsbD_append_low (i : Nat) (h : i < w) : (x ++ y).getLsbD i = y.getLsbD i := by
  rw [BitVec.getLsbD_append, if_pos h]

theorem getLsbD_append_high (i : Nat) (h : w ≤ i) : (x ++ y).getLsbD i = x.getLsbD (i - w) := by
  rw [BitVec.getLsbD_append, if_neg (by omega)]

end Parts

theorem bit1_getLsbD (b : Bool) (i : Nat) (h : i = 0) : (bit1 b).getLsbD i = b := by
  subst h; simp [bit1]

theorem field_indexWord (x : Byte) : field (indexWord x) 24 8 = x := by
  simp only [Nat.reduceSub, Nat.reduceLeDiff, field, indexWord, extractLsb'_append_high, extractLsb'_whole]

/-- A number of 48 bits is its high 16 bits and its low 32 bits. -/
theorem append_halves (t : BitVec 48) : t.extractLsb' 32 16 ++ t.extractLsb' 0 32 = t := by
  refine BitVec.eq_of_getLsbD_eq fun i hi => ?_
  by_cases h : i < 32
  · rw [getLsbD_append_low _ _ _ h]; simp [h]
  · rw [getLsbD_append_high _ _ _ (by omega), BitVec.getLsbD_extractLsb', decide_eq_true (by omega), Bool.true_and]
    congr 1; omega

/-! ## Lists of words -/

theorem field_entryWord (a : BitVec 6) (b : BitVec 2) (c : BitVec 24) :
    field (a ++ b ++ c) 26 6 = a ∧ field (a ++ b ++ c) 24 2 = b ∧ field (a ++ b ++ c) 0 24 = c := by
  refine ⟨?_, ?_, ?_⟩ <;>
    simp only [Nat.reduceSub, Nat.reduceLeDiff, field, extractLsb'_append_high, extractLsb'_append_low, extractLsb'_whole]

theorem entriesOf_entryWords (l : List LiveEntry) : entriesOf (l.flatMap entryWords) = some l := by
  induction l with
  | nil => rfl
  | cons x l ih =>
    obtain ⟨hc, hp, ha⟩ := field_entryWord x.channel x.placement x.aux
    rw [List.flatMap_cons]
    change (entriesOf (l.flatMap entryWords)).map _ = _
    rw [ih, Option.map_some, hc, hp, ha]

theorem field_sampleWord (a b : Half) : field (a ++ b) 16 16 = a ∧ field (a ++ b) 0 16 = b := by
  refine ⟨?_, ?_⟩ <;>
    simp only [Nat.reduceSub, Nat.reduceLeDiff, field, extractLsb'_append_high, extractLsb'_append_low, extractLsb'_whole]

/-- Packed samples are read back; the half word that fills an odd last word is cut off (R203). -/
theorem unpackSamples_packSamples : ∀ l : List Half, (unpackSamples (packSamples l)).take l.length = l
  | [] => rfl
  | [a] => by
    obtain ⟨ha, -⟩ := field_sampleWord a 0
    change [field (a ++ (0 : Half)) 16 16] = [a]
    rw [ha]
  | a :: b :: rest => by
    obtain ⟨ha, hb⟩ := field_sampleWord a b
    change field (a ++ b) 16 16 :: field (a ++ b) 0 16 :: (unpackSamples (packSamples rest)).take rest.length = _
    rw [ha, hb, unpackSamples_packSamples rest]

/-! ## Records of fields -/

/-- An optional field is there exactly where its present mark is set. -/
theorem whenMarked_eq {α : Type} {w : Word} {i : Nat} {x : α} {o : Option α} (hm : w.getLsbD i = o.isSome)
    (hx : ∀ v, o = some v → x = v) : whenMarked w i x = o := by
  unfold whenMarked
  rw [hm]
  cases o with
  | none => rfl
  | some v => rw [hx v rfl]; rfl

theorem markOf_getLsbD {α : Type} (o : Option α) (i : Nat) (h : i = 0) : (markOf o).getLsbD i = o.isSome :=
  bit1_getLsbD _ _ h

theorem bitOf_getLsbD (o : Option Bool) (i : Nat) (h : i = 0) : (bitOf o).getLsbD i = o.getD false :=
  bit1_getLsbD _ _ h

/-- The first word of SET_CHANNEL: the index and the eight present marks. -/
theorem marksWord_fields (c : Byte) (m₀ m₁ m₂ m₃ m₄ m₅ m₆ m₇ : BitVec 1) (w : Word)
    (h : w = c ++ (0 : Half) ++ m₇ ++ m₆ ++ m₅ ++ m₄ ++ m₃ ++ m₂ ++ m₁ ++ m₀) :
    field w 24 8 = c ∧ w.getLsbD 0 = m₀.getLsbD 0 ∧ w.getLsbD 1 = m₁.getLsbD 0 ∧ w.getLsbD 2 = m₂.getLsbD 0 ∧
      w.getLsbD 3 = m₃.getLsbD 0 ∧ w.getLsbD 4 = m₄.getLsbD 0 ∧ w.getLsbD 5 = m₅.getLsbD 0 ∧
      w.getLsbD 6 = m₆.getLsbD 0 ∧ w.getLsbD 7 = m₇.getLsbD 0 := by
  subst h
  refine ⟨?_, ?_, ?_, ?_, ?_, ?_, ?_, ?_, ?_⟩
  · simp only [Nat.reduceSub, Nat.reduceLeDiff, field, extractLsb'_append_high, extractLsb'_whole]
  all_goals simp (disch := decide) only [getLsbD_append_high, getLsbD_append_low, Nat.reduceSub]

/-- The flags of the second word of SET_CHANNEL. -/
theorem settingsWord_flags (m i r k : BitVec 1) (q s : BitVec 2) (o : Half) (w : Word)
    (h : w = m ++ (0 : BitVec 1) ++ q ++ (0 : BitVec 2) ++ s ++ (0 : BitVec 1) ++ i ++ r ++ k ++ (0 : BitVec 4) ++ o) :
    w.getLsbD 31 = m.getLsbD 0 ∧ w.getLsbD 22 = i.getLsbD 0 ∧ w.getLsbD 21 = r.getLsbD 0 ∧
      w.getLsbD 20 = k.getLsbD 0 := by
  subst h
  refine ⟨?_, ?_, ?_, ?_⟩
  all_goals simp (disch := decide) only [getLsbD_append_high, getLsbD_append_low, Nat.reduceSub]

/-- The pattern, the source and the offset of the second word of SET_CHANNEL. -/
theorem settingsWord_fields (m i r k : BitVec 1) (q s : BitVec 2) (o : Half) (w : Word)
    (h : w = m ++ (0 : BitVec 1) ++ q ++ (0 : BitVec 2) ++ s ++ (0 : BitVec 1) ++ i ++ r ++ k ++ (0 : BitVec 4) ++ o) :
    field w 28 2 = q ∧ field w 24 2 = s ∧ field w 0 16 = o := by
  subst h
  refine ⟨?_, ?_, ?_⟩
  all_goals simp only [Nat.reduceSub, Nat.reduceLeDiff, field, extractLsb'_append_high, extractLsb'_append_low, extractLsb'_whole]

theorem channelArgs_channelWords (c : Byte) (g : ChannelArgs) : ∃ a b d : Word, channelWords c g = [a, b, d] ∧
    field a 24 8 = c ∧ channelArgs a b d = g := by
  obtain ⟨hc, h0, h1, h2, h3, h4, h5, h6, h7⟩ := marksWord_fields c (markOf g.wheel) (markOf g.pattern)
    (markOf g.offset) (markOf g.source) (markOf g.safe) (markOf g.inverted) (markOf g.autoRestore) (markOf g.keepOut)
    _ rfl
  obtain ⟨hw, hi, hr, hk⟩ := settingsWord_flags (bitOf g.wheel) (bitOf g.inverted) (bitOf g.autoRestore)
    (bitOf g.keepOut) (fieldOf g.pattern) (fieldOf g.source) (fieldOf g.offset) _ rfl
  obtain ⟨hq, hs, ho⟩ := settingsWord_fields (bitOf g.wheel) (bitOf g.inverted) (bitOf g.autoRestore)
    (bitOf g.keepOut) (fieldOf g.pattern) (fieldOf g.source) (fieldOf g.offset) _ rfl
  have hv : field ((0 : Half) ++ fieldOf g.safe) 0 16 = fieldOf g.safe := (field_sampleWord 0 _).2
  refine ⟨_, _, _, rfl, hc, ?_⟩
  obtain ⟨wheel, pattern, offset, source, safe, inverted, autoRestore, keepOut⟩ := g
  simp only [markOf_getLsbD _ 0 rfl, bitOf_getLsbD _ 0 rfl] at h0 h1 h2 h3 h4 h5 h6 h7 hw hi hr hk
  unfold channelArgs
  congr 1
  · exact whenMarked_eq h0 fun v hv => by rw [hw, hv]; rfl
  · exact whenMarked_eq h1 fun v hv => by rw [hq, hv]; rfl
  · exact whenMarked_eq h2 fun v hv => by rw [ho, hv]; rfl
  · exact whenMarked_eq h3 fun v hv => by rw [hs, hv]; rfl
  · exact whenMarked_eq h4 fun v hv' => by rw [hv, hv']; rfl
  · exact whenMarked_eq h5 fun v hv => by rw [hi, hv]; rfl
  · exact whenMarked_eq h6 fun v hv => by rw [hr, hv]; rfl
  · exact whenMarked_eq h7 fun v hv => by rw [hk, hv]; rfl

/-- The words of a trigger or duration of captures or faults: a kind, an index, a code and a count. -/
theorem kindWord_fields (k z : BitVec 4) (i e n : Byte) : field (k ++ z ++ i ++ e ++ n) 28 4 = k ∧
    field (k ++ z ++ i ++ e ++ n) 16 8 = i ∧ field (k ++ z ++ i ++ e ++ n) 8 8 = e ∧
    field (k ++ z ++ i ++ e ++ n) 0 8 = n := by
  refine ⟨?_, ?_, ?_, ?_⟩ <;>
    simp only [Nat.reduceSub, Nat.reduceLeDiff, field, extractLsb'_append_high, extractLsb'_append_low,
      extractLsb'_whole]

/-- The first word of an AT_ANGLE trigger. -/
theorem angleWord_fields (k : BitVec 4) (z : BitVec 11) (any : Bool) (c : Half) :
    field (k ++ z ++ bit1 any ++ c) 28 4 = k ∧ (k ++ z ++ bit1 any ++ c : Word).getLsbD 16 = any ∧
      field (k ++ z ++ bit1 any ++ c) 0 16 = c := by
  refine ⟨?_, ?_, ?_⟩
  · simp only [Nat.reduceSub, Nat.reduceLeDiff, field, extractLsb'_append_high, extractLsb'_whole]
  · simp (disch := decide) only [getLsbD_append_high, getLsbD_append_low, bit1_getLsbD]
  · simp only [Nat.reduceSub, Nat.reduceLeDiff, field, extractLsb'_append_low, extractLsb'_whole]

theorem kindWord_kind (c : BitVec 4) : field (c ++ (0 : BitVec 28)) 28 4 = c := by
  simp only [Nat.reduceSub, Nat.reduceLeDiff, field, extractLsb'_append_high, extractLsb'_whole]

theorem rawTrigger_triggerWords {x : RawTrigger} (h : x.wf = true) :
    ∃ a b : Word, triggerWords x = [a, b] ∧ rawTrigger a b = x := by
  cases x with
  | atTime t =>
    obtain ⟨hk, ht⟩ := field_sampleWord 0 (t.extractLsb' 32 16)
    have hzero : field ((0 : Half) ++ t.extractLsb' 32 16) 28 4 = 0 := by
      simp only [Nat.reduceSub, Nat.reduceLeDiff, field, extractLsb'_append_high]
      rfl
    exact ⟨_, _, rfl, by rw [rawTrigger, if_pos hzero, ht, append_halves]⟩
  | atAngle any c a =>
    obtain ⟨hk, hany, hc⟩ := angleWord_fields 1 0 any c
    obtain ⟨-, ha⟩ := field_sampleWord 0 a
    exact ⟨_, _, rfl, by rw [rawTrigger, hk, hany, hc, ha, if_neg (by decide), if_pos rfl]⟩
  | onCapture i e n =>
    obtain ⟨hk, hi, he, hn⟩ := kindWord_fields 2 0 i e n
    exact ⟨_, _, rfl, by rw [rawTrigger, hk, hi, he, hn, if_neg (by decide), if_neg (by decide), if_pos rfl]⟩
  | onFault k e =>
    obtain ⟨hk, hi, he, -⟩ := kindWord_fields 3 0 k e 0
    exact ⟨_, _, rfl, by
      rw [rawTrigger, hk, hi, he, if_neg (by decide), if_neg (by decide), if_neg (by decide), if_pos rfl]⟩
  | unknown c =>
    have hc : 4 ≤ c.toNat := by simpa [RawTrigger.wf] using h
    have hne {n : BitVec 4} (hn : n.toNat < 4) : c ≠ n := fun h => by rw [h] at hc; omega
    exact ⟨_, _, rfl, by
      rw [rawTrigger, kindWord_kind, if_neg (hne (by decide)), if_neg (hne (by decide)), if_neg (hne (by decide)),
        if_neg (hne (by decide))]⟩

theorem rawDuration_durationWords {x : RawDuration} (h : x.wf = true) :
    ∃ a b : Word, durationWords x = [a, b] ∧ rawDuration a b = x := by
  cases x with
  | untilRelease => exact ⟨_, _, rfl, rfl⟩
  | time v => exact ⟨_, _, rfl, by rw [rawDuration, kindWord_kind, if_neg (by decide), if_pos rfl]⟩
  | angle v =>
    exact ⟨_, _, rfl, by rw [rawDuration, kindWord_kind, if_neg (by decide), if_neg (by decide), if_pos rfl]⟩
  | cycles v =>
    exact ⟨_, _, rfl, by
      rw [rawDuration, kindWord_kind, if_neg (by decide), if_neg (by decide), if_neg (by decide), if_pos rfl]⟩
  | capture i e n =>
    obtain ⟨hk, hi, he, hn⟩ := kindWord_fields 4 0 i e n
    exact ⟨_, _, rfl, by
      rw [rawDuration, hk, hi, he, hn, if_neg (by decide), if_neg (by decide), if_neg (by decide), if_neg (by decide),
        if_pos rfl]⟩
  | unknown c =>
    have hc : 5 ≤ c.toNat := by simpa [RawDuration.wf] using h
    have hne {n : BitVec 4} (hn : n.toNat < 5) : c ≠ n := fun h => by rw [h] at hc; omega
    exact ⟨_, _, rfl, by
      rw [rawDuration, kindWord_kind, if_neg (hne (by decide)), if_neg (hne (by decide)), if_neg (hne (by decide)),
        if_neg (hne (by decide)), if_neg (hne (by decide))]⟩

/-! ## Every request -/

section Requests

variable {p : Port} {g : Byte} {i : Instr} {e : RequestKind × List Word}

theorem decodePayload_loadPattern (x : Byte) (l : List WindowWord) :
    decodePayload .loadPattern p g (indexWord x :: l.map fun w => w.start ++ w.stop) =
      some (.loadPattern p g x l) := by
  have hw (w : WindowWord) : (⟨field (w.start ++ w.stop) 16 16, field (w.start ++ w.stop) 0 16⟩ : WindowWord) = w := by
    obtain ⟨ha, hb⟩ := field_sampleWord w.start w.stop
    rw [ha, hb]
  change some (Instr.loadPattern p g (field (indexWord x) 24 8) ((l.map fun w => w.start ++ w.stop).map
    fun w => ⟨field w 16 16, field w 0 16⟩)) = _
  rw [field_indexWord, List.map_map]
  congr 2
  exact (List.map_congr_left fun w _ => hw w).trans (List.map_id l)

theorem decodePayload_writeSamples (x : Byte) (o : Word) {l : List Half} (h : l.length ≤ 506) :
    decodePayload .writeSamples p g ((x ++ (0 : Byte) ++ BitVec.ofNat 16 l.length) :: o :: packSamples l) =
      some (.writeSamples p g x o l) := by
  have hx : field (x ++ (0 : Byte) ++ BitVec.ofNat 16 l.length) 24 8 = x := by
    simp only [Nat.reduceSub, Nat.reduceLeDiff, field, extractLsb'_append_high, extractLsb'_whole]
  have hn : (field (x ++ (0 : Byte) ++ BitVec.ofNat 16 l.length) 0 16).toNat = l.length := by
    simp only [Nat.reduceSub, Nat.reduceLeDiff, field, extractLsb'_append_low, extractLsb'_whole]
    rw [BitVec.toNat_ofNat]
    omega
  refine (if_pos (by rw [hn, Laws.packSamples_length])).trans ?_
  rw [hn, hx, unpackSamples_packSamples]

theorem decodePayload_armFault (x : Byte) {a : FaultArgs} (ht : a.trigger.wf = true) (hd : a.duration.wf = true) :
    decodePayload .armFault p g (faultWords x a) = some (.armFault p g x a) := by
  obtain ⟨w2, w3, hw, hw'⟩ := rawTrigger_triggerWords ht
  obtain ⟨w4, w5, hv, hv'⟩ := rawDuration_durationWords hd
  rw [faultWords, hw, hv]
  change some (Instr.armFault p g _ (faultArgs _ _ w2 w3 w4 w5 _ _)) = _
  unfold faultArgs
  simp only [Nat.reduceSub, Nat.reduceLeDiff, field, extractLsb'_append_high, extractLsb'_append_low, extractLsb'_whole, hw', hv']

/-- The words of a well-formed request are read back as that request. -/
theorem decodePayload_encodePayload (hw : i.wf = true) (hs : i.sender = some (p, g)) (he : encodePayload i = some e) :
    decodePayload e.1 p g e.2 = some i := by
  cases i with
  | powerOnReset | resetLineAssert | resetLineRelease | rigTick _ | millisecondBoundary | cycleWrap | analogRefresh
  | periodStart _ | pulseHighEnd _ | driverTrip _ | movementComplete _ _ | movementFail _ _ | batteryFlagChange
  | safeLineChange | comparatorChange _ _ | captureEdgeReport _ | atTimeTrigger _ | onCaptureTrigger _
  | durationEnd _ | replayAdvance _ | deadlineExpiry | portWord _ _ | writeSamplesDone | readSamplesDone _ => cases hs
  | unknownKind p t k l => cases he
  | start _ _ | stop _ _ | enterSafe _ _ | resume _ _ | resetRig _ _ | readRunState _ _ | readAngleBase _ _
  | stepMark _ _ | echo _ _ | readNotices _ _ | clearNotices _ _ _ | setNoticeEnable _ _ _ => cases hs; cases he; rfl
  | readChannel _ _ _ | readRelays _ _ _ | releaseFault _ _ _ | clearFault _ _ _ | readFault _ _ _
  | defineSegment _ _ _ _ _ | freeSegment _ _ _ | readSegment _ _ _ | stopReplay _ _ _ | readReplay _ _ _
  | readCaptureState _ _ _ =>
    cases hs; cases he
    simp only [decodePayload, words1, words3, field_indexWord]
  | setDeadline _ _ _ _ _ | setSpeed _ _ _ _ | setAngleBase _ _ _ _ | readPattern _ _ _ _ | force _ _ _ _ _
  | setRelayTiming _ _ _ _ | readSamples _ _ _ _ _ | setReplay _ _ _ _ | queueReplay _ _ _ _ | setCapture _ _ _ _
  | takeCaptures _ _ _ =>
    cases hs; cases he
    simp (disch := decide) only [decodePayload, words1, words2, words3, field, extractLsb'_append_high,
      extractLsb'_append_low, extractLsb'_whole, getLsbD_append_high, getLsbD_append_low, bit1_getLsbD]
  | loadPattern _ _ x l => cases hs; cases he; exact decodePayload_loadPattern x l
  | liveUpdate _ _ l =>
    cases hs; cases he
    simp only [decodePayload, entriesOf_entryWords, Option.map_some]
  | setChannel _ _ c a =>
    cases hs; cases he
    obtain ⟨x, y, z, hwords, hc, ha⟩ := channelArgs_channelWords c a
    simp only [decodePayload, words3, hwords, hc, ha]
  | armFault _ _ x a =>
    cases hs; cases he
    simp only [Instr.wf, Bool.and_eq_true] at hw
    exact decodePayload_armFault x hw.1 hw.2
  | writeSamples _ _ x o l =>
    cases hs; cases he
    exact decodePayload_writeSamples x o (by simpa [Instr.wf] using hw)

/-- Settles O4. -/
theorem requestWordsDecode : Obligations.RequestWordsDecode := by
  intro i p t e hw hs he
  rw [decodePacket_of_kind (k := e.1) rfl]
  change (if e.1.allowed p then (decodePayload e.1 p t e.2).elim _ _ else _) = _
  rw [decodePayload_encodePayload hw hs he, Option.elim_some]

end Requests

end Sys2Proof.Machine
end

section
/-! The words of responses (11.1, 11.2): headers, status words, listed things, samples and capture records. -/

namespace Sys2Proof.Machine

theorem headerWord_fields (m k t : Byte) {n : Nat} (h : n ≤ 255) :
    field (headerWord m k t n) 24 8 = m ∧ field (headerWord m k t n) 16 8 = k ∧ field (headerWord m k t n) 8 8 = t ∧
      (field (headerWord m k t n) 0 8).toNat = n := by
  unfold headerWord
  refine ⟨?_, ?_, ?_, ?_⟩
  · simp only [Nat.reduceSub, Nat.reduceLeDiff, field, extractLsb'_append_high, extractLsb'_whole]
  · simp only [Nat.reduceSub, Nat.reduceLeDiff, field, extractLsb'_append_high, extractLsb'_append_low,
      extractLsb'_whole]
  · simp only [Nat.reduceSub, Nat.reduceLeDiff, field, extractLsb'_append_high, extractLsb'_append_low,
      extractLsb'_whole]
  · simp only [Nat.reduceSub, Nat.reduceLeDiff, field, extractLsb'_append_low, extractLsb'_whole, BitVec.toNat_ofNat]
    omega

theorem responseWords_of_listed (k t : Byte) (r : Reply) (hs : ∀ l, r.body ≠ .samples l)
    (hc : ∀ l n g, r.body ≠ .captures l n g) :
    responseWords k t r = headerWord 0x3C k t (1 + ((listWords k 0 r.body.items).take 254).length) ::
      ((0 : BitVec 24) ++ r.status.code) :: (listWords k 0 r.body.items).take 254 := by
  obtain ⟨status, body⟩ := r
  cases body with
  | samples l => exact absurd rfl (hs l)
  | captures l n g => exact absurd rfl (hc l n g)
  | _ => rfl

theorem listWords_append (k : Byte) (n : Nat) (a b : List Item) :
    listWords k n (a ++ b) = listWords k n a ++ listWords k (n + a.length) b := by
  induction a generalizing n with
  | nil => rfl
  | cons x a ih =>
    rw [List.cons_append, listWords, ih, listWords, List.append_assoc, List.length_cons, Nat.add_right_comm, Nat.add_assoc]

theorem responseWords_okay (k t : Byte) (b : Body) :
    responseWords k t (.okay b) = headerWord 0x3C k t (1 + (okWords k b).length) :: 0 :: okWords k b := by
  have hok : (0 : BitVec 24) ++ Status.ok.code = (0 : Word) := by decide
  exact congrArg (fun w => _ :: w :: okWords k b) hok


theorem responseWords_samples (k t : Byte) (l : List Half) :
    responseWords k t (.okay (.samples l)) =
      headerWord 0x3C k t (2 + (l.length + 1) / 2) :: 0 :: ((0 : Half) ++ BitVec.ofNat 16 l.length) :: packSamples l := by
  rw [responseWords_okay, okWords, List.length_cons, Laws.packSamples_length, Nat.add_comm _ 1, ← Nat.add_assoc]

theorem countWord_fields {n : Nat} (h : n ≤ 504) : field ((0 : Half) ++ BitVec.ofNat 16 n) 16 16 = 0 ∧
    (field ((0 : Half) ++ BitVec.ofNat 16 n) 0 16).toNat = n := by
  obtain ⟨hhigh, hlow⟩ := field_sampleWord 0 (BitVec.ofNat 16 n)
  rw [hhigh, hlow, BitVec.toNat_ofNat]
  exact ⟨rfl, by omega⟩

theorem captureWords_flatMap_length (l : List CaptureRecord) : (l.flatMap captureWords).length = 4 * l.length := by
  induction l with
  | nil => rfl
  | cons r l ih => rw [List.flatMap_cons, List.length_append, ih, captureWords, List.length_cons]; simp only [List.length_cons, List.length_nil]; omega

/-- The word ahead of the records of a TAKE_CAPTURES response (R204). -/
def takenWord (n left : Nat) (gap : Bool) : Word :=
  BitVec.ofNat 8 n ++ BitVec.ofNat 8 left ++ (0 : BitVec 15) ++ bit1 gap

theorem responseWords_captures (k t : Byte) (l : List CaptureRecord) (left : Nat) (gap : Bool) :
    responseWords k t (.okay (.captures l left gap)) =
      headerWord 0x3C k t (2 + 4 * l.length) :: 0 :: takenWord l.length left gap :: l.flatMap captureWords := by
  rw [responseWords_okay, okWords, List.length_cons, captureWords_flatMap_length, Nat.add_comm _ 1, ← Nat.add_assoc]
  rfl

theorem takenWord_fields {n left : Nat} (gap : Bool) (hn : n ≤ 63) (hl : left ≤ 128) :
    (field (takenWord n left gap) 24 8).toNat = n ∧ (field (takenWord n left gap) 16 8).toNat = left ∧
      field (takenWord n left gap) 1 15 = 0 ∧ (takenWord n left gap).getLsbD 0 = gap := by
  unfold takenWord
  refine ⟨?_, ?_, ?_, ?_⟩
  · simp only [Nat.reduceSub, Nat.reduceLeDiff, field, extractLsb'_append_high, extractLsb'_whole, BitVec.toNat_ofNat]
    omega
  · simp only [Nat.reduceSub, Nat.reduceLeDiff, field, extractLsb'_append_high, extractLsb'_append_low,
      extractLsb'_whole, BitVec.toNat_ofNat]
    omega
  · simp only [Nat.reduceSub, Nat.reduceLeDiff, field, extractLsb'_append_high, extractLsb'_append_low,
      extractLsb'_whole]
  · simp (disch := decide) only [getLsbD_append_low, bit1_getLsbD]

/-- The fields of the four words of a capture record (R204). -/
theorem captureWords_fields {r : CaptureRecord} (ha : r.stamp.angle ≤ 11519) (hw : r.width.getD 0 ≤ 16777215) :
    ∃ w0 w1 w2 w3 : Word, captureWords r = [w0, w1, w2, w3] ∧
      (field w0 28 4).toNat = r.input.1 ∧ w0.getLsbD 27 = r.rise ∧ w0.getLsbD 26 = r.gap ∧
      w0.getLsbD 25 = r.width.isSome ∧ field w0 16 9 = 0 ∧ field w0 0 16 ++ field w1 0 32 = r.stamp.time ∧
      field w2 16 16 = r.stamp.cycle ∧ field w2 14 2 = 0 ∧ (field w2 0 14).toNat = r.stamp.angle ∧
      field w3 24 8 = 0 ∧ (field w3 0 24).toNat = r.width.getD 0 := by
  have hi := r.input.2
  refine ⟨_, _, _, _, rfl, ?_, ?_, ?_, ?_, ?_, ?_, ?_, ?_, ?_, ?_, ?_⟩
  · simp only [Nat.reduceSub, Nat.reduceLeDiff, field, extractLsb'_append_high, extractLsb'_whole, BitVec.toNat_ofNat]
    omega
  · simp (disch := decide) only [getLsbD_append_high, getLsbD_append_low, bit1_getLsbD]
  · simp (disch := decide) only [getLsbD_append_high, getLsbD_append_low, bit1_getLsbD]
  · simp (disch := decide) only [getLsbD_append_high, getLsbD_append_low, bit1_getLsbD]
  · simp only [Nat.reduceSub, Nat.reduceLeDiff, field, extractLsb'_append_high, extractLsb'_append_low,
      extractLsb'_whole]
  · simp only [Nat.reduceSub, Nat.reduceLeDiff, field, extractLsb'_append_low, extractLsb'_whole]
    exact append_halves _
  · simp only [Nat.reduceSub, Nat.reduceLeDiff, field, extractLsb'_append_high, extractLsb'_whole]
  · simp only [Nat.reduceSub, Nat.reduceLeDiff, field, extractLsb'_append_high, extractLsb'_append_low,
      extractLsb'_whole]
  · simp only [Nat.reduceSub, Nat.reduceLeDiff, field, extractLsb'_append_low, extractLsb'_whole, BitVec.toNat_ofNat]
    omega
  · simp only [Nat.reduceSub, Nat.reduceLeDiff, field, extractLsb'_append_high, extractLsb'_whole]
  · simp only [Nat.reduceSub, Nat.reduceLeDiff, field, extractLsb'_append_low, extractLsb'_whole, BitVec.toNat_ofNat]
    omega

/-- Settles O6. -/
theorem wordLayouts : Obligations.WordLayouts := by
  refine ⟨fun m k t n h => headerWord_fields m k t h, by decide, fun k t c => rfl,
    fun k t r hs hc => ⟨_, rfl, responseWords_of_listed k t r hs hc⟩, listWords_append,
    fun k t l h => ?_, fun k t l left gap h h' => ?_, fun k t f e atn synced => ⟨_, _, _, _, _, _, responseWords_okay k t _, responseWords_okay k t _,
      responseWords_okay k t _⟩,
    by decide, ⟨rfl, fun _ => rfl, fun _ _ _ => rfl,
      fun l => ⟨Laws.packSamples_length l, unpackSamples_packSamples l⟩⟩,
    fun r ha hw => captureWords_fields ha hw⟩
  · obtain ⟨hhigh, hlow⟩ := countWord_fields h
    exact ⟨_, hhigh, hlow, responseWords_samples k t l⟩
  · obtain ⟨hn, hl, hz, hg⟩ := takenWord_fields gap h h'
    exact ⟨_, hn, hl, hz, hg, responseWords_captures k t l left gap⟩

end Sys2Proof.Machine
end

section
/-! The ports (chapter 10): what a taken request leaves of the port's own fields, words that arrive, and the requests
that are taken. -/

namespace Sys2Proof.Machine

variable {s t : State} {p : Port} {q : Packet} {rest : List Packet}

/-! ## What a request leaves of the ports -/

/-- What no block writes of a port, but for a reset. -/
def PortState.lane (q : PortState) : PortState := { q.line with enables := 0 }

theorem lane_of_line {x y : PortState} (h : x.line = y.line) : PortState.lane x = PortState.lane y := by
  rw [PortState.lane, h]; rfl

theorem lane_of_ports (hM : t.portM.line = s.portM.line) (hB : t.portB.line = s.portB.line) (p : Port) :
    PortState.lane (t.port p) = PortState.lane (s.port p) := by
  cases p
  · exact lane_of_line hM
  · exact lane_of_line hB

theorem inbound_of_lane {x y : PortState} (h : PortState.lane x = PortState.lane y) : x.inbound = y.inbound := by
  simpa [PortState.lane, PortState.line] using congrArg PortState.inbound h

theorem responses_of_lane {x y : PortState} (h : PortState.lane x = PortState.lane y) : x.responses = y.responses := by
  simpa [PortState.lane, PortState.line] using congrArg PortState.responses h

theorem outWord_of_lane {x y : PortState} (h : PortState.lane x = PortState.lane y) : x.outWord = y.outWord := by
  simpa [PortState.lane, PortState.line] using congrArg PortState.outWord h

/-- A change of what a lane leaves out. -/
theorem lane_updPort {f : PortState → PortState} (hf : ∀ q, PortState.lane (f q) = PortState.lane q) (r : Port) :
    PortState.lane ((s.updPort p f).port r) = PortState.lane (s.port r) := by
  cases p <;> cases r <;> simp [State.updPort, State.port, hf]

theorem judgedForStop_lane : ∀ p, PortState.lane (s.judgedForStop.port p) = PortState.lane (s.port p) := by
  unfold State.judgedForStop
  split
  · exact lane_of_ports (by simp) (by simp)
  · exact fun _ => rfl

theorem recoveries_lane (r : Port) (w : BitVec 9) :
    ∀ p, PortState.lane ((s.recoveries r w).port p) = PortState.lane (s.port p) :=
  lane_of_ports (by rw [recoveries_frame]) (by rw [recoveries_frame])

/-- A request leaves each port's own fields, but for RESET_RIG. -/
theorem leaves_lane (h : Leaves s t) : t = s.rigReset ∨ ∀ p, PortState.lane (t.port p) = PortState.lane (s.port p) := by
  cases h with
  | reset => exact .inl rfl
  | counted => exact .inr judgedForStop_lane
  | stop _ _ _ =>
    exact .inr fun p => (lane_of_ports (by simp) (by simp) p).trans (judgedForStop_lane p)
  | stepMark => exact .inr (lane_of_ports (by rw [marked_frame]) (by rw [marked_frame]))
  | live l => exact .inr (lane_of_ports (by rw [liveUpdated_frame]) (by rw [liveUpdated_frame]))
  | channel c g _ =>
    have h : ∀ p, PortState.lane ((s.fieldsWritten c g).port p) = PortState.lane (s.port p) :=
      lane_of_ports (by rw [fieldsWritten_frame]) (by rw [fieldsWritten_frame])
    refine .inr ?_
    split
    · exact h
    · exact fun p => (lane_of_ports (by simp) (by simp) p).trans (h p)
  | force c v =>
    have h : ∀ p, PortState.lane ((s.forcedWritten c v).port p) = PortState.lane (s.port p) :=
      lane_of_ports (by rw [forcedWritten_frame]) (by rw [forcedWritten_frame])
    exact .inr fun p => (lane_of_ports (by simp) (by simp) p).trans (h p)
  | release k => exact .inr (lane_of_ports (by simp [release_eq_safeRecord]) (by simp [release_eq_safeRecord]))
  | transfer x _ _ _ _ => exact .inr (lane_of_ports (by rw [beginTransfer_frame]) (by rw [beginTransfer_frame]))
  | queueReplay n d _ _ _ =>
    exact .inr (lane_of_ports (by rw [enqueue_frame]) (by rw [enqueue_frame]))
  | stopReplay n =>
    have h : ∀ p, PortState.lane ((s.discardAll n).port p) = PortState.lane (s.port p) :=
      lane_of_ports (by rw [discardAll_frame]) (by rw [discardAll_frame])
    exact .inr fun p => (lane_of_ports (by simp) (by simp) p).trans (h p)
  | clearNotices r w =>
    exact .inr fun p => (recoveries_lane r w p).trans (lane_updPort (by intro; rfl) p)
  | takeCaptures r n => exact .inr (lane_updPort fun _ => rfl)
  | enables r w => exact .inr (lane_updPort fun _ => rfl)
  | same | start _ | resume _ _ | enterSafe _ | deadline _ _ _ | speed _ _ _ | angleBase _ _ | active _ _ _
  | staged _ _ _ | timing _ | arm _ _ _ _ _ | clear _ _ | define _ _ _ _ _ _ | free _ _ _
  | setReplay _ _ _ _ _ | setCapture _ _ _ _ => exact .inr (lane_of_ports (by simp) (by simp))

theorem leaves_pins (h : Leaves s t) : t.pins = s.pins := by
  cases h with
  | counted => rw [judgedForStop_frame]
  | stop _ _ _ =>
    have h : s.judgedForStop.pins = s.pins := by rw [judgedForStop_frame]
    simpa using h
  | stepMark => rw [marked_frame]
  | live l => rw [liveUpdated_frame]
  | channel c g _ =>
    have h : (s.fieldsWritten c g).pins = s.pins := by rw [fieldsWritten_frame]
    split
    · exact h
    · simpa using h
  | force c v =>
    have h : (s.forcedWritten c v).pins = s.pins := by rw [forcedWritten_frame]
    simpa using h
  | release k => simp [release_eq_safeRecord]
  | transfer x _ _ _ _ => rw [beginTransfer_frame]
  | queueReplay n d _ _ _ => rw [enqueue_frame]
  | stopReplay n =>
    have h : (s.discardAll n).pins = s.pins := by rw [discardAll_frame]
    simpa using h
  | clearNotices p w => rw [recoveries_frame]; simp
  | reset => rfl
  | same | start _ | resume _ _ | enterSafe _ | deadline _ _ _ | speed _ _ _ | angleBase _ _ | active _ _ _
  | staged _ _ _ | timing _ | arm _ _ _ _ _ | clear _ _ | define _ _ _ _ _ _ | free _ _ _
  | setReplay _ _ _ _ _ | setCapture _ _ _ _ | takeCaptures _ _ | enables _ _ => simp

theorem rigReset_port (s : State) (p : Port) : s.rigReset.port p = {} := by cases p <;> rfl

theorem judged_leaves (s : State) (x : Except Status Instr) : Leaves s (judged s x).state := by
  cases x with
  | error c => exact .same
  | ok i => exact handle_leaves s i

/-- What the taking of a request leaves of the inbound queue it was taken from. -/
theorem takePacket_inbound (s : State) (p : Port) (q : Packet) : ((s.takePacket p q).port p).inbound = [] ∨
    ((s.takePacket p q).port p).inbound = (s.port p).inbound := by
  have hdeliver (x : Handled) : ((deliver p q.kind q.tag x).port p).inbound = (x.state.port p).inbound := by
    cases x <;> cases p <;> rfl
  unfold State.takePacket
  rw [hdeliver]
  obtain h | h := leaves_lane (judged_leaves s (decodePacket p q))
  · rw [h, rigReset_port]; exact .inl rfl
  · exact .inr (inbound_of_lane (h p))

theorem takePacket_pins (s : State) (p : Port) (q : Packet) : (s.takePacket p q).pins = s.pins := by
  have hdeliver (x : Handled) : (deliver p q.kind q.tag x).pins = x.state.pins := by
    cases x <;> cases p <;> rfl
  exact (hdeliver _).trans (leaves_pins (judged_leaves s (decodePacket p q)))

theorem takePacket_inbound_length (s : State) (p : Port) (q : Packet) :
    ((s.takePacket p q).port p).inbound.length ≤ (s.port p).inbound.length := by
  obtain h | h := takePacket_inbound s p q <;> rw [h]
  exact Nat.zero_le _

/-! ## Serving (R191) -/

/-- The state with the oldest request gone from a port's inbound queue. -/
def State.withInbound (s : State) (p : Port) (l : List Packet) : State := s.updPort p fun x => { x with inbound := l }

@[simp] theorem withInbound_port_inbound (l : List Packet) : ((s.withInbound p l).port p).inbound = l := by
  cases p <;> rfl

theorem serveFuel_of_ready {n : Nat} (h : (s.port p).inbound = q :: rest) (hq : q.complete = true)
    (hf : s.portFree p = true) :
    serveFuel (n + 1) s p = serveFuel n ((s.withInbound p rest).takePacket p q) p := by
  rw [serveFuel, h]
  exact if_pos ⟨hq, hf⟩

theorem serveFuel_of_stuck {n : Nat} (h : (s.port p).inbound = [] ∨ s.portFree p = false ∨
    ∃ q rest, (s.port p).inbound = q :: rest ∧ q.complete = false) : serveFuel n s p = s := by
  cases n with
  | zero => rfl
  | succ n =>
    rw [serveFuel]
    obtain h | h | ⟨q, rest, h, hq⟩ := h
    · rw [h]
    · split
      · rfl
      · rw [if_neg (by simp [h])]
    · rw [h]
      exact if_neg (by simp [hq])

/-- Fuel beyond the length of the inbound queue is not used. -/
theorem serveFuel_succ (n : Nat) : ∀ s : State, (s.port p).inbound.length ≤ n →
    serveFuel (n + 1) s p = serveFuel n s p := by
  induction n with
  | zero =>
    intro s h
    exact serveFuel_of_stuck (.inl (List.length_eq_zero_iff.1 (by omega)))
  | succ n ih =>
    intro s h
    cases hq : (s.port p).inbound with
    | nil => rw [serveFuel_of_stuck (.inl hq), serveFuel_of_stuck (.inl hq)]
    | cons q rest =>
      cases hf : s.portFree p with
      | false => rw [serveFuel_of_stuck (.inr (.inl hf)), serveFuel_of_stuck (.inr (.inl hf))]
      | true =>
        cases hc : q.complete with
        | false =>
          rw [serveFuel_of_stuck (.inr (.inr ⟨q, rest, hq, hc⟩)), serveFuel_of_stuck (.inr (.inr ⟨q, rest, hq, hc⟩))]
        | true =>
          rw [serveFuel_of_ready hq hc hf, serveFuel_of_ready hq hc hf]
          refine ih _ ((takePacket_inbound_length _ _ _).trans ?_)
          rw [withInbound_port_inbound]
          rw [hq, List.length_cons] at h
          omega

theorem serve_of_stuck (h : (s.port p).inbound = [] ∨ s.portFree p = false ∨
    ∃ q rest, (s.port p).inbound = q :: rest ∧ q.complete = false) : s.serve p = s := serveFuel_of_stuck h

/-- A free port takes its oldest request where it is complete, and goes on with the next (R191). -/
theorem serve_of_ready (h : (s.port p).inbound = q :: rest) (hl : rest.length < 8) (hq : q.complete = true)
    (hf : s.portFree p = true) : s.serve p = ((s.withInbound p rest).takePacket p q).serve p := by
  rw [State.serve, serveFuel_of_ready h hq hf]
  refine (serveFuel_succ 7 _ ((takePacket_inbound_length _ _ _).trans ?_)).symm
  rw [withInbound_port_inbound]
  omega

/-! ## Requests taken as their last word arrives -/

theorem takesNow_iff : s.takesNow p = true ↔ s.pins.resetLine = false ∧ (s.port p).link = .synced ∧
    (s.port p).inbound = [] ∧ s.portFree p = true := by
  simp [State.takesNow, and_assoc]

/-- The words of a packet that its header counts. -/
theorem header_fields (k g : Byte) {n : Nat} (h : n ≤ 255) :
    field (headerWord 0xC3 k g n) 24 8 = requestMarker ∧ newPacket (headerWord 0xC3 k g n) = (⟨k, g, n, []⟩ : Packet) ∧
      headerWord 0xC3 k g n ≠ idleWord := by
  obtain ⟨hm, hk, hg, hn⟩ := headerWord_fields 0xC3 k g h
  refine ⟨hm, by rw [newPacket, hk, hg, hn], fun hidle => ?_⟩
  rw [hidle] at hm
  exact absurd hm (by decide)

/-- A header that arrives on a SYNCED port with room begins a request (R189, R201). -/
theorem receive_header {x : PortState} {w : Word} (hl : x.link = .synced) (hc : ∀ q ∈ x.inbound, q.complete = true)
    (hroom : x.inbound.length < 8) (hw : field w 24 8 = requestMarker) :
    x.receive w = { x with inbound := x.inbound ++ [newPacket w] } := by
  have hidle : w ≠ idleWord := fun h => by rw [h] at hw; exact absurd hw (by decide)
  have hany : x.inbound.any (fun q => !q.complete) = false := by simpa using hc
  unfold PortState.receive
  rw [if_neg (by simp [hany]), hl]
  dsimp only
  rw [if_neg hidle, if_pos ⟨hw, by simpa [PortState.hasRoom] using hroom⟩]

/-- A word that arrives while a request is being received is its payload (R188). -/
theorem receive_payload {x : PortState} {l : List Packet} {q : Packet} {w : Word} (h : x.inbound = l ++ [q])
    (hc : ∀ y ∈ l, y.complete = true) (hq : q.complete = false) :
    x.receive w = { x with inbound := l ++ [{ q with payload := q.payload ++ [w] }] } := by
  have hmap : l.map (Packet.receive w) = l := by
    conv_rhs => rw [← List.map_id l]
    exact List.map_congr_left fun y hy => by rw [Packet.receive, if_pos (hc y hy)]; rfl
  unfold PortState.receive
  rw [if_pos (by simp [h, hq]), h, List.map_append, hmap, List.map_singleton, Packet.receive, if_neg (by simp [hq])]

end Sys2Proof.Machine
end

section
/-! Requests and words on the ports (10.1 to 10.4): a request that waits, a request that is taken, and one word in and one
word out. -/

namespace Sys2Proof.Machine

variable {s t : State} {p : Port} {q : Packet} {rest : List Packet} {x : PortState} {w : Word} {l : List Word}

/-! ## Words of a packet -/

/-- Two changes of a port that agree on it. -/
theorem updPort_congr {f g : PortState → PortState} (h : f (s.port p) = g (s.port p)) : s.updPort p f = s.updPort p g := by
  cases p <;> simp only [State.updPort, State.port] at h ⊢ <;> rw [h]

theorem foldl_receive_payload {a : List Packet} (ha : ∀ y ∈ a, y.complete = true) : ∀ {x : PortState} {q : Packet},
    x.inbound = a ++ [q] → q.payload.length + l.length ≤ q.need →
      l.foldl PortState.receive x = { x with inbound := a ++ [{ q with payload := q.payload ++ l }] } := by
  induction l with
  | nil => intro x q h _; simp [← h]
  | cons w l ih =>
    intro x q h hl
    rw [List.length_cons] at hl
    have hq : q.complete = false := by simp only [Packet.complete, decide_eq_false_iff_not]; omega
    rw [List.foldl_cons, receive_payload h ha hq,
      ih (q := { q with payload := q.payload ++ [w] }) rfl (by simp only [List.length_append, List.length_singleton]; omega)]
    simp

/-- The words of a request that arrive on a SYNCED port with room wait in its inbound queue (R188 to R190). -/
theorem foldl_receive_packet (hl : x.link = .synced) (hc : ∀ q ∈ x.inbound, q.complete = true)
    (hroom : x.inbound.length < 8) {q : Packet} (hn : q.payload.length = q.need) (h : q.need ≤ 255) :
    q.words.foldl PortState.receive x = { x with inbound := x.inbound ++ [q] } := by
  obtain ⟨hm, hp, -⟩ := header_fields q.kind q.tag h
  rw [Packet.words, List.foldl_cons]
  change List.foldl _ (x.receive (headerWord 0xC3 q.kind q.tag q.need)) _ = _
  rw [receive_header hl hc hroom hm, hp, foldl_receive_payload hc rfl (by simp only [List.length_nil]; omega)]
  rfl

theorem receive_full (hl : x.link = .synced) (hc : ∀ q ∈ x.inbound, q.complete = true) (hfull : 8 ≤ x.inbound.length)
    (hw : w ≠ idleWord) : x.receive w = { x with link := .hunt false } := by
  have hany : x.inbound.any (fun q => !q.complete) = false := by simpa using hc
  unfold PortState.receive
  rw [if_neg (by simp [hany]), hl]
  dsimp only
  rw [if_neg hw, if_neg (by simp [PortState.hasRoom]; omega)]
  rfl

theorem receive_hunt {b : Bool} (hl : x.link = .hunt b) (hc : ∀ q ∈ x.inbound, q.complete = true) (hw : w ≠ idleWord) :
    x.receive w = { x with link := .hunt false } := by
  have hany : x.inbound.any (fun q => !q.complete) = false := by simpa using hc
  unfold PortState.receive
  rw [if_neg (by simp [hany]), hl]
  exact if_pos hw

/-- Words other than the idle word are discarded in HUNT (R189). -/
theorem foldl_receive_hunt (hc : ∀ q ∈ x.inbound, q.complete = true) (hl : x.link = .hunt false)
    (h : ∀ w ∈ l, w ≠ idleWord) : l.foldl PortState.receive x = x := by
  induction l with
  | nil => rfl
  | cons w l ih =>
    have hx : x.receive w = x := by rw [receive_hunt hl hc (h w List.mem_cons_self), ← hl]
    rw [List.foldl_cons, hx, ih fun v hv => h v (List.mem_cons_of_mem w hv)]

/-- The words of a packet whose header is a framing error, or is discarded in HUNT (R189). -/
theorem foldl_receive_discarded (hc : ∀ q ∈ x.inbound, q.complete = true) (hx : x.receive w = { x with link := .hunt false })
    (h : ∀ w ∈ l, w ≠ idleWord) : (w :: l).foldl PortState.receive x = { x with link := .hunt false } := by
  rw [List.foldl_cons, hx]
  exact foldl_receive_hunt hc rfl h

/-! ## Words that arrive and take nothing -/

theorem withInbound_withInbound (a b : List Packet) : (s.withInbound p a).withInbound p b = s.withInbound p b := by
  cases p <;> rfl

/-- A port that takes nothing from its inbound queue `l`. -/
def stuckOn (l : List Packet) : Prop := l = [] ∨ ∃ q rest, l = q :: rest ∧ q.complete = false

theorem serve_of_stuckOn (h : stuckOn (s.port p).inbound) : s.serve p = s :=
  serve_of_stuck (h.imp_right fun h => .inr h)

theorem arrive_of_stuckOn (h : stuckOn ((s.port p).receive w).inbound) :
    s.arrive p w = s.updPort p fun x => x.receive w := by
  refine serve_of_stuckOn ?_
  rwa [State.updPort_port_self]

theorem foldl_arrive_hunt : ∀ {s : State}, (s.port p).inbound = [] → (∃ b, (s.port p).link = .hunt b) →
    (∀ w ∈ l, w ≠ idleWord) → l.foldl (State.arrive p) s = s.updPort p fun x => l.foldl PortState.receive x := by
  induction l with
  | nil => intro s _ _ _; cases p <;> rfl
  | cons w l ih =>
    intro s hi ⟨b, hl⟩ h
    have hx : (s.port p).receive w = { s.port p with link := .hunt false } :=
      receive_hunt hl (by simp [hi]) (h w List.mem_cons_self)
    rw [List.foldl_cons, arrive_of_stuckOn (by rw [hx]; exact .inl hi),
      ih (by rw [State.updPort_port_self, hx]; exact hi) ⟨false, by rw [State.updPort_port_self, hx]⟩
        fun v hv => h v (List.mem_cons_of_mem w hv)]
    cases p <;> rfl

theorem updPort_receive_payload (h : (s.port p).inbound = [q]) (hq : q.complete = false) :
    s.updPort p (fun x => x.receive w) = s.withInbound p [{ q with payload := q.payload ++ [w] }] :=
  updPort_congr (f := fun x => x.receive w) (receive_payload (l := []) h (by simp) hq)

/-- Payload that leaves its request incomplete (R188). -/
theorem foldl_arrive_payload : ∀ {s : State} {q : Packet}, (s.port p).inbound = [q] →
    q.payload.length + l.length < q.need →
      l.foldl (State.arrive p) s = s.withInbound p [{ q with payload := q.payload ++ l }] := by
  induction l with
  | nil =>
    intro s q h _
    rw [List.append_nil, List.foldl_nil]
    exact (updPort_eq_self (by rw [← h])).symm
  | cons w l ih =>
    intro s q h hl
    rw [List.length_cons] at hl
    have hq : q.complete = false := by simp only [Packet.complete, decide_eq_false_iff_not]; omega
    have hx := receive_payload (w := w) (l := []) h (by simp) hq
    have hq' : ({ q with payload := q.payload ++ [w] } : Packet).complete = false := by
      simp only [Packet.complete, decide_eq_false_iff_not, List.length_append, List.length_singleton]; omega
    rw [List.foldl_cons, arrive_of_stuckOn (by rw [hx]; exact .inr ⟨_, _, rfl, hq'⟩), updPort_receive_payload h hq,
      ih (q := { q with payload := q.payload ++ [w] }) (withInbound_port_inbound _)
        (by simp only [List.length_append, List.length_singleton]; omega)]
    have happ : q.payload ++ [w] ++ l = q.payload ++ w :: l := by simp
    rw [happ, withInbound_withInbound]

/-! ## Requests that wait -/

theorem takesNow_of_not_free (h : s.portFree p = false) : s.takesNow p = false := by simp [State.takesNow, h]

theorem packetOf_words (g : Byte) (e : RequestKind × List Word) :
    (packetOf g e).words = headerWord 0xC3 e.1.code g e.2.length :: e.2 := rfl

/-- Settles O8. -/
theorem requestWaits : Obligations.RequestWaits := by
  intro s i p g e hs he hl
  rw [exec_of_sender hs he]
  obtain ⟨hm, -, hidle⟩ := header_fields e.1.code g hl
  refine ⟨fun hr => request_of_held he hl hr, fun hr hf => ?_, fun hr hi hw seen hlink => ?_,
    fun hr k t n l hi hn => ?_⟩
  · have hwaits : s.request p g i = .next (s.updPort p fun q =>
        (headerWord 0xC3 e.1.code g e.2.length :: e.2).foldl PortState.receive q) := by
      rw [request_of_waits he hl (takesNow_of_not_free hf) hr, packetOf_words, foldl_arrive_of_not_free _ hf]
    refine ⟨hwaits, fun hlink hc => ⟨fun hroom => ?_, fun hfull hw => ?_⟩⟩
    · rw [hwaits]
      exact congrArg _ (updPort_congr (foldl_receive_packet (q := packetOf g e) hlink hc hroom rfl hl))
    · rw [hwaits]
      exact congrArg _ (updPort_congr (foldl_receive_discarded hc (receive_full hlink hc hfull hidle) hw))
  · have hn : s.takesNow p = false := by simp [State.takesNow, hlink]
    have hc : ∀ q ∈ (s.port p).inbound, q.complete = true := by simp [hi]
    have hall : ∀ v ∈ headerWord 0xC3 e.1.code g e.2.length :: e.2, v ≠ idleWord := by
      simpa using ⟨hidle, fun v hv => hw v hv⟩
    rw [request_of_waits he hl hn hr, packetOf_words, foldl_arrive_hunt hi ⟨seen, hlink⟩ hall]
    exact congrArg _ (updPort_congr (foldl_receive_discarded hc (receive_hunt hlink hc hidle) hw))
  · have hn' : s.takesNow p = false := by simp [State.takesNow, hi]
    rw [request_of_waits he hl hn' hr, packetOf_words, foldl_arrive_payload hi (by simp only [List.length_cons]; omega)]
    rfl

/-! ## Requests that are taken -/

theorem withInbound_eq_self {a : List Packet} (h : (s.port p).inbound = a) : s.withInbound p a = s :=
  updPort_eq_self (by rw [← h])

theorem withInbound_portFree (a : List Packet) : (s.withInbound p a).portFree p = s.portFree p := by cases p <;> rfl

/-- The one request of a free port is taken as it becomes complete. -/
theorem serve_of_single (h : (s.port p).inbound = [q]) (hq : q.complete = true) (hf : s.portFree p = true) :
    s.serve p = (s.withInbound p []).takePacket p q := by
  rw [serve_of_ready h (by simp) hq hf]
  refine serve_of_stuck (.inl ?_)
  obtain h | h := takePacket_inbound (s.withInbound p []) p q
  · exact h
  · rw [h, withInbound_port_inbound]

/-- The words of a request on a port that takes it now are the taking of its packet (R191). -/
theorem foldl_arrive_takes (hn : s.takesNow p = true) (hlen : q.payload.length = q.need) (h : q.need ≤ 255) :
    q.words.foldl (State.arrive p) s = s.takePacket p q := by
  obtain ⟨-, hlink, hi, hf⟩ := takesNow_iff.1 hn
  obtain ⟨hm, hp, -⟩ := header_fields q.kind q.tag h
  have hheader : (s.port p).receive (headerWord requestMarker q.kind q.tag q.need) =
      { s.port p with inbound := [⟨q.kind, q.tag, q.need, []⟩] } := by
    refine (receive_header (w := headerWord requestMarker q.kind q.tag q.need) hlink (by simp [hi]) (by simp [hi])
      hm).trans ?_
    rw [hi, ← hp]
    rfl
  have hbegun : s.updPort p (fun x => x.receive (headerWord requestMarker q.kind q.tag q.need)) =
      s.withInbound p [⟨q.kind, q.tag, q.need, []⟩] := updPort_congr (f := fun x => x.receive _) hheader
  have hself : s.withInbound p [] = s := withInbound_eq_self hi
  rw [Packet.words, List.foldl_cons]
  obtain hnil | ⟨l, w, hlast⟩ := q.payload.eq_nil_or_concat
  · have hq : (⟨q.kind, q.tag, q.need, []⟩ : Packet) = q := by rw [← hnil]
    have hc : q.complete = true := by simp [Packet.complete, hlen]
    change List.foldl _ ((s.updPort p fun x => x.receive (headerWord requestMarker q.kind q.tag q.need)).serve p) _ = _
    rw [hbegun, hq, hnil, List.foldl_nil, serve_of_single (withInbound_port_inbound _) hc
      ((withInbound_portFree _).trans hf), withInbound_withInbound, hself]
  · rw [List.concat_eq_append] at hlast
    rw [hlast, List.length_append, List.length_singleton] at hlen
    have hinc : (⟨q.kind, q.tag, q.need, []⟩ : Packet).complete = false := by
      simp only [Packet.complete, decide_eq_false_iff_not, List.length_nil]; omega
    have hinc' : (⟨q.kind, q.tag, q.need, l⟩ : Packet).complete = false := by
      simp only [Packet.complete, decide_eq_false_iff_not]; omega
    have hq : (⟨q.kind, q.tag, q.need, l ++ [w]⟩ : Packet) = q := by rw [← hlast]
    have hc : q.complete = true := by
      simp only [Packet.complete, decide_eq_true_eq, hlast, List.length_append, List.length_singleton]; omega
    have harrive : s.arrive p (headerWord requestMarker q.kind q.tag q.need) =
        s.withInbound p [⟨q.kind, q.tag, q.need, []⟩] :=
      (arrive_of_stuckOn (by rw [hheader]; exact .inr ⟨_, _, rfl, hinc⟩)).trans hbegun
    rw [harrive, hlast, List.foldl_append, foldl_arrive_payload (withInbound_port_inbound _)
      (by simp only [List.length_nil]; omega), withInbound_withInbound, List.nil_append, List.foldl_cons, List.foldl_nil]
    unfold State.arrive
    rw [updPort_receive_payload (withInbound_port_inbound _) hinc', hq, withInbound_withInbound, serve_of_single (withInbound_port_inbound _) hc
      ((withInbound_portFree _).trans hf), withInbound_withInbound, hself]

/-- Settles O9. -/
theorem completeRequestIsTaken : Obligations.CompleteRequestIsTaken := by
  refine ⟨fun s p q rest h hl hq hf => serve_of_ready h hl hq hf, fun s p h => serve_of_stuck h,
    fun s p q hn hlen h => foldl_arrive_takes hn hlen h, fun s i p g e hw hs he hl ha hn => ?_⟩
  rw [exec_of_sender hs he, request_of_takesNow he hl ha hn, State.takePacket,
    requestWordsDecode i p g e hw hs he, if_pos ha]
  rfl

end Sys2Proof.Machine
end

section
/-! One word in and one word out (10.1 to 10.4). -/

namespace Sys2Proof.Machine

variable {s t : State} {p : Port} {q : Packet} {rest : List Packet} {x : PortState} {w : Word}

/-! ## The word out -/

theorem send_of_idle (h : x.headWords = none) : x.send = { x with outWord := idleWord } := by
  rw [PortState.send, h]

theorem headWords_of_nothing (h : x.responses = []) : x.headWords = none := by rw [PortState.headWords, h]

theorem headWords_of_reserved {k g : Byte} {l : List Response} (h : x.responses = ⟨k, g, none⟩ :: l) :
    x.headWords = none := by rw [PortState.headWords, h]; rfl

theorem headWords_of_formed {k g : Byte} {r : Reply} {l : List Response} (h : x.responses = ⟨k, g, some r⟩ :: l) :
    x.headWords = some (responseWords k g r) := by rw [PortState.headWords, h]; rfl

theorem send_of_formed {k g : Byte} {r : Reply} {l : List Response} (h : x.responses = ⟨k, g, some r⟩ :: l) :
    x.send = { x with
      outWord := (responseWords k g r).getD x.sent idleWord
      sent := if x.sent + 1 < (responseWords k g r).length then x.sent + 1 else 0
      responses := if x.sent + 1 < (responseWords k g r).length then x.responses else l } := by
  rw [PortState.send, headWords_of_formed h]
  dsimp only
  split
  · rfl
  · rw [h]; rfl

theorem send_inbound (x : PortState) : x.send.inbound = x.inbound := by
  unfold PortState.send
  split
  · rfl
  · dsimp only
    split <;> rfl

theorem send_link (x : PortState) : x.send.link = x.link := by
  unfold PortState.send
  split
  · rfl
  · dsimp only
    split <;> rfl

theorem receive_outWord (x : PortState) (w : Word) : (x.receive w).outWord = x.outWord := by
  unfold PortState.receive
  repeat' first | split | rfl

/-! ## A word exchanged -/

/-- The port with the word out gone. -/
def State.sent (s : State) (p : Port) : State := s.updPort p PortState.send

@[simp] theorem sent_port : (s.sent p).port p = (s.port p).send := State.updPort_port_self ..

theorem exec_portWord (hr : s.pins.resetLine = false) : exec (.portWord p w) s =
    .next ((((s.sent p).serve p).arrive p w).updPort p fun q => { q with outWord := (s.port p).send.outWord }) := by
  change Host.Outcome.next (s.clockWord p w) = _
  rw [State.clockWord, if_neg (by simp [hr])]
  rfl

theorem exec_portWord_held (hr : s.pins.resetLine = true) :
    exec (.portWord p w) s = .next (s.updPort p fun q => { q with outWord := idleWord }) := by
  change Host.Outcome.next (s.clockWord p w) = _
  rw [State.clockWord, if_pos hr]

/-- What keeps a port from taking a request of its inbound queue. -/
def State.stuck (s : State) (p : Port) : Prop :=
  (s.port p).inbound = [] ∨ s.portFree p = false ∨ ∃ q rest, (s.port p).inbound = q :: rest ∧ q.complete = false

theorem stuck_of_transferring (h : s.transferring p = true) : s.stuck p :=
  .inr (.inl (by simp [State.portFree, h]))

/-- A word that brings about no taking of a request. -/
theorem exec_portWord_of_stuck (hr : s.pins.resetLine = false) (hs : (s.sent p).stuck p)
    (hw : (s.updPort p fun x => x.send.receive w).stuck p) :
    exec (.portWord p w) s = .next (s.updPort p fun x => x.send.receive w) := by
  have hreceived : (s.sent p).updPort p (fun x => x.receive w) = s.updPort p fun x => x.send.receive w := by
    cases p <;> rfl
  rw [exec_portWord hr, serve_of_stuck hs, State.arrive, hreceived, serve_of_stuck hw]
  refine congrArg _ (updPort_eq_self ?_)
  rw [State.updPort_port_self, ← receive_outWord (s.port p).send w]

/-- A word whose receipt leaves the port as `y`, with nothing to take. -/
theorem exec_portWord_of_receive {y : PortState} (hr : s.pins.resetLine = false) (hs : (s.sent p).stuck p)
    (hy : (s.port p).send.receive w = y) (hw : stuckOn y.inbound ∨ s.transferring p = true) :
    exec (.portWord p w) s = .next (s.updPort p fun _ => y) := by
  rw [exec_portWord_of_stuck hr hs]
  · exact congrArg _ (updPort_congr hy)
  · obtain h | h := hw
    · refine Or.imp_right .inr ?_
      rwa [State.updPort_port_self, hy]
    · exact stuck_of_transferring (by simpa [State.transferring] using h)

theorem takePacket_outWord (s : State) (p : Port) (q : Packet) :
    ((s.takePacket p q).port p).outWord = idleWord ∨ ((s.takePacket p q).port p).outWord = (s.port p).outWord := by
  have hdeliver (x : Handled) : ((deliver p q.kind q.tag x).port p).outWord = (x.state.port p).outWord := by
    cases x <;> cases p <;> rfl
  unfold State.takePacket
  rw [hdeliver]
  obtain h | h := leaves_lane (judged_leaves s (decodePacket p q))
  · rw [h, rigReset_port]; exact .inl rfl
  · exact .inr (outWord_of_lane (h p))

/-- A word that completes the one request of a free port: the port is `y` as the request is taken. -/
theorem exec_portWord_takes {y : PortState} (hr : s.pins.resetLine = false) (hs : (s.sent p).stuck p)
    (hy : (s.port p).send.receive w = { y with inbound := [q] }) (hi : y.inbound = []) (hc : q.complete = true)
    (hf : (s.sent p).portFree p = true) :
    exec (.portWord p w) s =
      .next (((s.updPort p fun _ => y).takePacket p q).updPort p fun x => { x with outWord := y.outWord }) := by
  have hword : (s.port p).send.outWord = y.outWord := by rw [← receive_outWord (s.port p).send w, hy]
  have hreceived : (s.sent p).updPort p (fun x => x.receive w) = (s.updPort p fun _ => y).withInbound p [q] := by
    refine (updPort_congr (g := fun _ => { y with inbound := [q] }) (by rw [sent_port, hy])).trans ?_
    cases p <;> rfl
  have hself : ((s.updPort p fun _ => y).withInbound p [q]).withInbound p [] = s.updPort p fun _ => y := by
    rw [withInbound_withInbound]
    exact withInbound_eq_self (by rw [State.updPort_port_self, hi])
  have hfree : ((s.updPort p fun _ => y).withInbound p [q]).portFree p = true := by
    rw [← hreceived, portFree_updPort _ fun q => receive_responses q w, hf]
  rw [exec_portWord hr, serve_of_stuck hs, State.arrive, hreceived,
    serve_of_single (withInbound_port_inbound _) hc hfree, hself, hword]

/-- As the request is taken on a port whose word out is the idle word, that word stays. -/
theorem exec_portWord_takes_idle {y : PortState} (hr : s.pins.resetLine = false) (hs : (s.sent p).stuck p)
    (hy : (s.port p).send.receive w = { y with inbound := [q] }) (hi : y.inbound = []) (hc : q.complete = true)
    (hf : (s.sent p).portFree p = true) (hidle : y.outWord = idleWord) :
    exec (.portWord p w) s = .next ((s.updPort p fun _ => y).takePacket p q) := by
  rw [exec_portWord_takes hr hs hy hi hc hf, hidle]
  refine congrArg _ (updPort_eq_self ?_)
  have h := takePacket_outWord (s.updPort p fun _ => y) p q
  rw [State.updPort_port_self, hidle, or_self] at h
  rw [← h]

/-! ## Between packets -/

theorem receive_synced_idle (hl : x.link = .synced) (hc : ∀ q ∈ x.inbound, q.complete = true) :
    x.receive idleWord = x := by
  have hany : x.inbound.any (fun q => !q.complete) = false := by simpa using hc
  unfold PortState.receive
  rw [if_neg (by simp [hany]), hl]
  exact if_pos rfl

theorem receive_synced_framing (hl : x.link = .synced) (hc : ∀ q ∈ x.inbound, q.complete = true) (hw : w ≠ idleWord)
    (hm : field w 24 8 ≠ requestMarker) : x.receive w = { x with link := .hunt false } := by
  have hany : x.inbound.any (fun q => !q.complete) = false := by simpa using hc
  unfold PortState.receive
  rw [if_neg (by simp [hany]), hl]
  dsimp only
  rw [if_neg hw, if_neg (by simp [hm])]
  rfl

theorem receive_hunt_first (hl : x.link = .hunt false) (hi : x.inbound = []) :
    x.receive idleWord = { x with link := .hunt true } := by
  unfold PortState.receive
  rw [if_neg (by simp [hi]), hl]
  dsimp only
  rw [if_neg (by simp), if_pos rfl]

theorem receive_hunt_second (hl : x.link = .hunt true) (hi : x.inbound = []) : x.receive idleWord =
    { x with link := .synced, resetHunt := false, sticky := if x.resetHunt then x.sticky else x.sticky ||| 0x100 } := by
  unfold PortState.receive
  rw [if_neg (by simp [hi]), hl]
  dsimp only
  rw [if_neg (by simp), if_neg (by simp)]
  cases h : x.resetHunt <;> rfl

/-- The port that is idle out: no response is formed at the head. -/
theorem sent_stuck_of_empty (h : (s.port p).inbound = []) : (s.sent p).stuck p :=
  .inl (by rw [sent_port, send_inbound, h])

/-- A free port takes a request whose word out leaves it a response place. -/
theorem sent_portFree (h : s.transferring p = false) (hl : (s.port p).send.responses.length < 8) :
    (s.sent p).portFree p = true := by
  have ht : (s.sent p).transferring p = false := by
    rw [← h]; cases p <;> rfl
  simp [State.portFree, ht, hl]

theorem marker_ne_idle (h : field w 24 8 = requestMarker) : w ≠ idleWord := fun hi => by
  rw [hi] at h; exact absurd h (by decide)

section Between

variable (hr : s.pins.resetLine = false) (hi : (s.port p).inbound = []) (hp : (s.port p).responses = [])
include hr hi hp

/-- A word between packets, with no response to send, that brings no request to its end. -/
theorem exec_portWord_between {y : PortState}
    (hy : ({ s.port p with outWord := idleWord } : PortState).receive w = y) (hw : stuckOn y.inbound) :
    exec (.portWord p w) s = .next (s.updPort p fun _ => y) :=
  exec_portWord_of_receive hr (sent_stuck_of_empty hi) (by rw [send_of_idle (headWords_of_nothing hp), hy]) (.inl hw)

/-- A header with no payload (R188, R191). -/
theorem exec_portWord_header (hl : (s.port p).link = .synced) (hm : field w 24 8 = requestMarker)
    (hn : field w 0 8 = 0) (ht : s.transferring p = false) :
    exec (.portWord p w) s = .next ((s.updPort p fun q => { q with outWord := idleWord }).takePacket p
      ⟨field w 16 8, field w 8 8, 0, []⟩) := by
  have hsend := send_of_idle (headWords_of_nothing hp)
  have hq : newPacket w = ⟨field w 16 8, field w 8 8, 0, []⟩ := by rw [newPacket, hn]; rfl
  rw [exec_portWord_takes_idle (y := { s.port p with outWord := idleWord }) hr (sent_stuck_of_empty hi) ?_ hi ?_
    (sent_portFree ht (by rw [hsend]; simp [hp])) rfl, ← hq]
  · exact congrArg (fun u : State => Host.Outcome.next (u.takePacket p _)) (updPort_congr rfl)
  · rw [hsend, receive_header (x := { s.port p with outWord := idleWord }) hl (by simp [hi]) (by simp [hi]) hm, hq]
    simp [hi]
  · rw [hq]; rfl

end Between

/-! ## Payload, full queues and responses -/

theorem ready_iff : s.ready p = true ↔ s.pins.resetLine = false ∧ (s.port p).inbound.length < 8 := by
  simp [State.ready]

theorem ready_eq_false_iff (hr : s.pins.resetLine = false) : s.ready p = false ↔ 8 ≤ (s.port p).inbound.length := by
  simp [State.ready, hr]

/-- A payload word (R188). -/
theorem exec_portWord_payload {k g : Byte} {n : Nat} {l : List Word} (hr : s.pins.resetLine = false)
    (hp : (s.port p).responses = []) (hi : (s.port p).inbound = [⟨k, g, n, l⟩]) :
    (l.length + 1 < n → exec (.portWord p w) s = .next (s.updPort p fun q =>
      { q with outWord := idleWord, inbound := [⟨k, g, n, l ++ [w]⟩] })) ∧
    (l.length + 1 = n → s.transferring p = false → exec (.portWord p w) s =
      .next ((s.updPort p fun q => { q with outWord := idleWord, inbound := [] }).takePacket p ⟨k, g, n, l ++ [w]⟩)) := by
  have hsend := send_of_idle (headWords_of_nothing hp)
  have hreceive (h : l.length < n) : (s.port p).send.receive w =
      { s.port p with outWord := idleWord, inbound := [⟨k, g, n, l ++ [w]⟩] } := by
    rw [hsend]
    exact receive_payload (x := { s.port p with outWord := idleWord }) (l := []) hi (by simp)
      (by simpa [Packet.complete] using h)
  have hstuck (h : l.length < n) : (s.sent p).stuck p :=
    .inr (.inr ⟨_, _, by rw [sent_port, send_inbound, hi], by simpa [Packet.complete] using h⟩)
  refine ⟨fun h => ?_, fun h ht => ?_⟩
  · rw [exec_portWord_of_receive hr (hstuck (by omega)) (hreceive (by omega))
      (.inl (.inr ⟨_, _, rfl, by simpa [Packet.complete] using h⟩))]
    exact congrArg _ (updPort_congr rfl)
  · rw [exec_portWord_takes_idle (y := { s.port p with outWord := idleWord, inbound := [] }) hr (hstuck (by omega))
      (hreceive (by omega)) rfl (by simp [Packet.complete, ← h]) (sent_portFree ht (by rw [hsend]; simp [hp])) rfl]
    exact congrArg (fun u : State => Host.Outcome.next (u.takePacket p _)) (updPort_congr rfl)

/-- The idle word on a SYNCED port that waits for no payload: the word out alone (R187, R194). -/
theorem exec_portWord_sends (hr : s.pins.resetLine = false) (hi : (s.port p).inbound = [])
    (hl : (s.port p).link = .synced) : exec (.portWord p idleWord) s = .next (s.updPort p PortState.send) :=
  (exec_portWord_of_receive hr (sent_stuck_of_empty hi)
    (receive_synced_idle (by rw [send_link, hl]) (by simp [send_inbound, hi]))
    (.inl (.inl (by rw [send_inbound, hi])))).trans (congrArg _ (updPort_congr rfl))

/-- A header that arrives while a transfer keeps the port from taking requests (R189, R190). -/
theorem exec_portWord_waits (hr : s.pins.resetLine = false) (hl : (s.port p).link = .synced)
    (hc : ∀ q ∈ (s.port p).inbound, q.complete = true) (ht : s.transferring p = true)
    (hm : field w 24 8 = requestMarker) :
    ((s.port p).inbound.length < 8 → exec (.portWord p w) s = .next (s.updPort p fun x =>
      { x.send with inbound := x.inbound ++ [newPacket w] })) ∧
    (8 ≤ (s.port p).inbound.length → exec (.portWord p w) s = .next (s.updPort p fun x =>
      { x.send with link := .hunt false })) := by
  have hstuck : (s.sent p).stuck p := stuck_of_transferring (by simpa [State.sent, State.transferring] using ht)
  have hl' : (s.port p).send.link = .synced := by rw [send_link, hl]
  have hc' : ∀ q ∈ (s.port p).send.inbound, q.complete = true := by rwa [send_inbound]
  refine ⟨fun h => ?_, fun h => ?_⟩
  · rw [exec_portWord_of_receive hr hstuck (receive_header hl' hc' (by rwa [send_inbound]) hm) (.inr ht)]
    exact congrArg _ (updPort_congr (by rw [send_inbound]))
  · rw [exec_portWord_of_receive hr hstuck (receive_full hl' hc' (by rwa [send_inbound]) (marker_ne_idle hm)) (.inr ht)]
    exact congrArg _ (updPort_congr rfl)

/-- A request taken from a full queue makes READY high (R190). -/
theorem serve_ready (hr : s.pins.resetLine = false) (hi : (s.port p).inbound = q :: rest) (hlen : rest.length = 7)
    (hq : q.complete = true) (hf : s.portFree p = true) : (s.serve p).ready p = true := by
  have hserve (n : Nat) : ∀ u : State, (serveFuel n u p).pins = u.pins ∧
      ((serveFuel n u p).port p).inbound.length ≤ (u.port p).inbound.length := by
    induction n with
    | zero => exact fun u => ⟨rfl, le_refl _⟩
    | succ n ih =>
      intro u
      rw [serveFuel]
      split
      · exact ⟨rfl, le_refl _⟩
      next q rest hq =>
        split
        · obtain ⟨hpins, hlen⟩ := ih ((u.withInbound p rest).takePacket p q)
          have htake := takePacket_inbound_length (u.withInbound p rest) p q
          rw [withInbound_port_inbound] at htake
          refine ⟨hpins.trans ((takePacket_pins _ _ _).trans (State.updPort_pins ..)), ?_⟩
          rw [hq, List.length_cons]
          exact (hlen.trans htake).trans (Nat.le_succ _)
        · exact ⟨rfl, le_refl _⟩
  obtain ⟨hpins, hle⟩ := hserve 8 ((s.withInbound p rest).takePacket p q)
  have htake := takePacket_inbound_length (s.withInbound p rest) p q
  rw [withInbound_port_inbound] at htake
  rw [serve_of_ready hi (by omega) hq hf]
  refine ready_iff.2 ⟨?_, by simp only [State.serve]; omega⟩
  rw [State.serve, hpins, takePacket_pins, State.withInbound, State.updPort_pins, hr]

/-- A RESET_RIG taken at its header: the word out has gone (R191, R194). -/
theorem exec_portWord_resetRig {k g : Byte} {r : Reply} {l : List Response} (hr : s.pins.resetLine = false)
    (hp : (s.port .B).responses = ⟨k, g, some r⟩ :: l) (hi : (s.port .B).inbound = [])
    (hl : (s.port .B).link = .synced) (ht : s.transferring .B = false) (hm : field w 24 8 = requestMarker)
    (hk : field w 16 8 = 0x05) (hn : field w 0 8 = 0)
    (hroom : l.length < 7 ∨ (l.length = 7 ∧ (responseWords k g r).length ≤ (s.port .B).sent + 1)) :
    exec (.portWord .B w) s = .next (s.rigReset.updPort .B fun q =>
      { q with outWord := (responseWords k g r).getD (s.port .B).sent idleWord }) := by
  have hsend := send_of_formed hp
  have hreceive : (s.port .B).send.receive w = { (s.port .B).send with inbound := [⟨0x05, field w 8 8, 0, []⟩] } := by
    rw [receive_header (by rw [send_link, hl]) (by simp [send_inbound, hi]) (by simp [send_inbound, hi]) hm, newPacket,
      hk, hn, send_inbound, hi]
    rfl
  have hfree : (s.port .B).send.responses.length < 8 := by
    rw [hsend]
    dsimp only
    split
    · rw [hp, List.length_cons]; omega
    · omega
  rw [exec_portWord_takes hr (sent_stuck_of_empty hi) hreceive (by rw [send_inbound, hi]) rfl (sent_portFree ht hfree)]
  have htake : (s.updPort .B fun _ => (s.port .B).send).takePacket .B ⟨0x05, field w 8 8, 0, []⟩ = s.rigReset := rfl
  rw [htake, hsend]

/-- Settles O10. -/
theorem portWordExchanged : Obligations.PortWordExchanged := by
  refine ⟨fun s p w hr => exec_portWord_held hr, fun s p w hr hi hp => ⟨fun seen hl hw => ?_, fun hl hw => ?_,
    fun hl hw => ?_, fun hl hw => ?_, fun hl hm hn => ?_, fun hl hm hn ht => exec_portWord_header hr hi hp hl hm hn ht,
    fun hl hw hm => ?_⟩, ?_, ?_, ?_, ?_, ?_, ?_, ?_, ?_⟩
  · rw [exec_portWord_between hr hi hp (receive_hunt hl (by simp [hi]) hw) (.inl hi)]
    exact congrArg _ (updPort_congr rfl)
  · subst hw
    exact (exec_portWord_between hr hi hp (receive_hunt_first hl hi) (.inl hi)).trans
      (congrArg _ (updPort_congr rfl))
  · subst hw
    exact (exec_portWord_between hr hi hp (receive_hunt_second hl hi) (.inl hi)).trans
      (congrArg _ (updPort_congr rfl))
  · subst hw
    exact (exec_portWord_between hr hi hp (receive_synced_idle hl (by simp [hi])) (.inl hi)).trans
      (congrArg _ (updPort_congr rfl))
  · rw [exec_portWord_between hr hi hp (receive_header hl (by simp [hi]) (by simp [hi]) hm)]
    · refine congrArg _ (updPort_congr ?_)
      simp only [hi]
      rfl
    · refine .inr ⟨_, _, by simp only [hi]; rfl, ?_⟩
      simpa [Packet.complete, newPacket] using hn.ne'
  · rw [exec_portWord_between hr hi hp (receive_synced_framing hl (by simp [hi]) hw hm) (.inl hi)]
    exact congrArg _ (updPort_congr rfl)
  · exact fun s p w k g n l hr hp hi => exec_portWord_payload hr hp hi
  · intro s p w k g hr hp ht hfull hc hl hw
    have hsend := send_of_idle (headWords_of_reserved hp)
    have hreceive := receive_full (x := { s.port p with outWord := idleWord }) hl hc (le_of_eq hfull.symm) hw
    rw [exec_portWord_of_receive hr (stuck_of_transferring (by simpa [State.sent, State.transferring] using ht))
      (by rw [hsend, hreceive]) (.inr ht)]
    exact congrArg _ (updPort_congr rfl)
  · refine fun s p k g l hr hi hl => ⟨fun r hp => ?_, fun hp => ?_⟩
    · exact (exec_portWord_sends hr hi hl).trans (congrArg _ (updPort_congr (send_of_formed hp)))
    · exact (exec_portWord_sends hr hi hl).trans (congrArg _ (updPort_congr (send_of_idle (headWords_of_reserved hp))))
  · refine fun s p w hr => ⟨_, exec_portWord hr, ?_⟩
    rw [State.updPort_port_self]
    dsimp only
    cases hp : (s.port p).responses with
    | nil => rw [send_of_idle (headWords_of_nothing hp)]; rfl
    | cons x l =>
      obtain ⟨k, g, r⟩ := x
      cases r with
      | none => rw [send_of_idle (headWords_of_reserved hp)]; rfl
      | some r => rw [send_of_formed hp]; rfl
  · exact fun s w k g r l hr hp hi hl ht hm hk hn hroom => exec_portWord_resetRig hr hp hi hl ht hm hk hn hroom
  · exact fun s p => ready_iff
  · intro s p w hr hl hc ht hm
    obtain ⟨hroom, hfull⟩ := exec_portWord_waits hr hl hc ht hm
    have hready (f : PortState → PortState) : (s.updPort p f).ready p = false ↔ 8 ≤ (f (s.port p)).inbound.length := by
      rw [ready_eq_false_iff (by rw [State.updPort_pins, hr]), State.updPort_port_self]
    by_cases h : (s.port p).inbound.length < 8
    · refine ⟨_, hroom h, fun _ => ⟨?_, ?_, ?_⟩, fun hn => absurd ((ready_eq_false_iff hr).1 hn) (by omega)⟩
      · rw [State.updPort_port_self]; exact (send_link _).trans hl
      · rw [State.updPort_port_self]; rfl
      · rw [hready, List.length_append, List.length_singleton]; omega
    · refine ⟨_, hfull (by omega), fun hy => absurd (ready_iff.1 hy).2 h, fun _ => ⟨?_, ?_, ?_⟩⟩
      · rw [State.updPort_port_self]
      · rw [State.updPort_port_self]; exact send_inbound _
      · rw [hready]; simp only [send_inbound]; omega
  · intro s p q rest hr hi hlen hq hf
    exact ⟨(ready_eq_false_iff hr).2 (by rw [hi, List.length_cons]; omega), serve_ready hr hi hlen hq hf⟩

end Sys2Proof.Machine
end

section
/-! What a step can do to the replay engines and the segments, with the part mode beside them (chapters 6 and 7). -/

namespace Sys2Proof

/-- Two engines hold the same descriptors in the same state. -/
def Engine.alike (e f : Engine) : Prop := f.queue = e.queue ∧ f.current = e.current ∧ f.state = e.state

theorem Engine.alike_refl (e : Engine) : e.alike e := ⟨rfl, rfl, rfl⟩

/-- A RUNNING engine at SAFE entry (R146). -/
def Engine.paused (e : Engine) : Engine := if e.state = .running then { e with state := .paused } else e

/-- An engine at the end of a descriptor that does not loop (R144). -/
def Engine.unloaded (e : Engine) : Engine := { e with current := none, k := 0, e := 0 }

/-- An engine that takes the head `q` of its queue, with `rest` left (R136). -/
def Engine.promoted (e : Engine) (q : Descriptor) (rest : List Descriptor) : Engine :=
  { e with
    state := .running
    current := some { q with ready := false }
    queue := rest
    k := 0
    e := 0
    awaiting := e.pacing.isAngle }

namespace Machine

open Relation

variable {s t u : State} {n : Fin 4}

/-- The part mode, the engines and the segments of a state. -/
structure Reel where
  mode : Mode
  engine : Fin 4 → Engine
  segment : Fin 32 → Segment

/-- What the replay engines see of a state. -/
def State.reel (s : State) : Reel := ⟨s.run.mode, s.engine, s.segment⟩

theorem reel_eq (hm : t.run.mode = s.run.mode) (he : t.engines = s.engines) (hg : t.segments = s.segments) :
    t.reel = s.reel := by
  have hengine : t.engine = s.engine := by funext n; rw [State.engine, State.engine, he]
  have hsegment : t.segment = s.segment := by funext g; rw [State.segment, State.segment, hg]
  rw [State.reel, State.reel, hm, hengine, hsegment]

/-- What an operation can do to the engines and the segments. -/
inductive ReelMove (a : Reel) : Reel → Prop
  | played (f : Fin 4 → Engine) (h : ∀ n, (a.engine n).alike (f n)) : ReelMove a { a with engine := f }
  | looped (n : Fin 4) (d : Descriptor) (e : Engine) (hd : (a.engine n).current = some d)
      (hq : e.queue = (a.engine n).queue) (hc : e.current = some { d with loops := d.loops - 1 })
      (hs : e.state = (a.engine n).state) : ReelMove a { a with engine := Function.update a.engine n e }
  | ended (n : Fin 4) (d : Descriptor) (e : Engine) (hd : (a.engine n).current = some d)
      (hq : e.queue = (a.engine n).queue) (hc : e.current = none) (hs : e.state = .idle ∨ e.state = .underrun) :
      ReelMove a ⟨a.mode, Function.update a.engine n e,
        Function.update a.segment d.segment { a.segment d.segment with refs := (a.segment d.segment).refs - 1 }⟩
  | followed (n : Fin 4) (d q : Descriptor) (e : Engine) (hd : (a.engine n).current = some d)
      (hr : (a.engine n).state = .running) (hq : (a.engine n).queue = q :: e.queue)
      (hc : e.current = some { q with ready := false }) (hs : e.state = .running) :
      ReelMove a ⟨a.mode, Function.update a.engine n e,
        Function.update a.segment d.segment { a.segment d.segment with refs := (a.segment d.segment).refs - 1 }⟩
  | paused (hm : a.mode = .run) : ReelMove a ⟨.safe, fun n => (a.engine n).paused, a.segment⟩
  | started : ReelMove a ⟨.run, fun n => (a.engine n).started, a.segment⟩
  | stopped : ReelMove a ⟨.config, fun n => { a.engine n with state := .idle }, a.segment⟩
  | queued (n : Fin 4) (d : Descriptor) (e : Engine) (hl : (a.engine n).queue.length < 8)
      (hg : (a.segment d.segment).defined = true) (hr : d.ready = true) (hq : e.queue = (a.engine n).queue ++ [d])
      (hc : e.current = (a.engine n).current) (hs : e.state = (a.engine n).state) :
      ReelMove a ⟨a.mode, Function.update a.engine n e,
        Function.update a.segment d.segment { a.segment d.segment with refs := (a.segment d.segment).refs + 1 }⟩
  | promoted (n : Fin 4) (q : Descriptor) (e : Engine) (hm : a.mode = .run) (hd : (a.engine n).current = none)
      (hq : (a.engine n).queue = q :: e.queue) (hc : e.current = some { q with ready := false })
      (hs : e.state = .running) : ReelMove a { a with engine := Function.update a.engine n e }
  | discarded (n : Fin 4) (e : Engine) (hq : e.queue = []) (hc : e.current = none) (hs : e.state = .idle) :
      ReelMove a ⟨a.mode, Function.update a.engine n e,
        fun g => { a.segment g with refs := (a.segment g).refs - (a.engine n).names g }⟩
  | defined (g : Fin 32) (b l : Nat) (hg : (a.segment g).defined = false) (hl : 2 ≤ l ∧ b + l ≤ memorySize)
      (ho : ∀ h, h ≠ g → (a.segment h).defined = true →
        stretchesMeet b l (a.segment h).base (a.segment h).length = false) :
      ReelMove a { a with segment := Function.update a.segment g ⟨true, b, l, 0⟩ }
  | freed (g : Fin 32) (hg : (a.segment g).defined = true) (hr : (a.segment g).refs = 0) :
      ReelMove a { a with segment := Function.update a.segment g {} }
  | rigReset : ReelMove a ⟨.config, fun _ => {}, fun g => { a.segment g with refs := 0 }⟩
  | powerOn : ReelMove a ⟨.config, fun _ => {}, fun _ => {}⟩

/-- The moves that lead from one state to another. -/
abbrev ReelMoves (s t : State) : Prop := ReflTransGen ReelMove s.reel t.reel

theorem reelMoves_of_eq (h : t.reel = s.reel) : ReelMoves s t := by
  rw [ReelMoves, h]

/-- One move, to a state whose reel is given. -/
theorem reelMoves_of_move {a : Reel} (h : ReelMove s.reel a) (ht : t.reel = a) : ReelMoves s t := by
  rw [ReelMoves, ht]; exact .single h

/-! ## Changes of one engine and of one segment -/

theorem updEngine_reel (f : Engine → Engine) :
    (s.updEngine n f).reel = { s.reel with engine := Function.update s.engine n (f (s.engine n)) } := by
  have h : (s.updEngine n f).engine = Function.update s.engine n (f (s.engine n)) := by
    funext m
    by_cases hm : n = m
    · subst hm; simp
    · simp [hm, Function.update_of_ne (Ne.symm hm)]
  rw [State.reel, h]
  rfl

theorem updSegment_segment (g : Fin 32) (f : Segment → Segment) :
    (s.updSegment g f).segment = Function.update s.segment g (f (s.segment g)) := by
  funext h
  by_cases hg : g = h
  · subst hg; simp
  · simp [hg, Function.update_of_ne (Ne.symm hg)]

theorem updSegment_reel (g : Fin 32) (f : Segment → Segment) :
    (s.updSegment g f).reel = { s.reel with segment := Function.update s.segment g (f (s.segment g)) } := by
  rw [State.reel, updSegment_segment]
  rfl

/-- An engine that keeps its descriptors and its state. -/
theorem reelMoves_updEngine {f : Engine → Engine} (h : (s.engine n).alike (f (s.engine n))) :
    ReelMoves s (s.updEngine n f) := by
  refine reelMoves_of_move (.played _ fun m => ?_) (updEngine_reel f)
  by_cases hm : m = n
  · subst hm; simpa [State.reel] using h
  · simpa [State.reel, hm] using Engine.alike_refl _

theorem reelMoves_of_engines (he : ∀ n, (s.engine n).alike (t.engine n)) (hm : t.run.mode = s.run.mode)
    (hg : t.segments = s.segments) : ReelMoves s t := by
  refine reelMoves_of_move (.played t.engine he) ?_
  have hsegment : t.segment = s.segment := by funext g; rw [State.segment, State.segment, hg]
  rw [State.reel, hsegment, hm]
  rfl

/-! ## The output computations -/

theorem computeOutput_alike (g : Engine) : g.alike (computeOutput s g) := by
  unfold computeOutput
  split
  · exact ⟨rfl, rfl, rfl⟩
  · exact g.alike_refl

theorem reelMoves_computeAnalog : ReelMoves s s.computeAnalog := by
  refine reelMoves_of_engines (fun n => ?_) (by simp) (by simp)
  have h : s.computeAnalog.engine n = match (s.engine n).target with
      | .analog _ => computeOutput s (s.engine n)
      | .speed => s.engine n := by
    simp only [State.computeAnalog, State.engine, mapV_get] <;> rfl
  rw [h]
  split
  · exact computeOutput_alike _
  · exact Engine.alike_refl _

theorem computeSpeed_engine (n : Fin 4) : s.computeSpeed.engine n = match (s.engine n).target with
    | .speed => computeOutput s (s.engine n)
    | .analog _ => s.engine n := by
  have hstate : s.computeSpeed.engines = mapV (fun _ g => match g.target with
      | .speed => computeOutput s g
      | .analog _ => g) s.engines := by
    unfold State.computeSpeed
    dsimp only
    (repeat' split) <;> rfl
  simp only [State.engine, hstate, mapV_get] <;> rfl

theorem reelMoves_computeSpeed : ReelMoves s s.computeSpeed := by
  refine reelMoves_of_engines (fun n => ?_) (by simp) (by simp)
  rw [computeSpeed_engine]
  split
  · exact computeOutput_alike _
  · exact Engine.alike_refl _

/-! ## The end of a descriptor -/

theorem promote_reel {q : Descriptor} {rest : List Descriptor} (hq : (s.engine n).queue = q :: rest) :
    (s.promote n).reel =
      { s.reel with engine := Function.update s.engine n ((s.engine n).promoted q rest) } := by
  rw [promote_of_cons hq]
  exact (reel_eq (by rfl) (by rfl) (by rfl)).trans (updEngine_reel (fun e => e.promoted q rest))

theorem dropRef_reel (g : Fin 32) : (s.dropRef g).reel =
    { s.reel with segment := Function.update s.segment g { s.segment g with refs := (s.segment g).refs - 1 } } :=
  updSegment_reel g _

theorem raiseSet_reel (l : PortSet) (x : Notice) : (s.raiseSet l x).reel = s.reel :=
  reel_eq (by simp) (by simp) (by simp)

variable {m : Mode} {x : Fin 4 → Engine} {e : Engine} {y : Fin 32 → Segment}

/-- One more change of the engine that has changed. -/
theorem updEngine_reel_again (h : s.reel = ⟨m, Function.update x n e, y⟩) (f : Engine → Engine) :
    (s.updEngine n f).reel = ⟨m, Function.update x n (f e), y⟩ := by
  have hengine : s.engine = Function.update x n e := congrArg Reel.engine h
  rw [updEngine_reel, h, hengine, Function.update_idem, Function.update_self]

theorem promote_reel_again (h : s.reel = ⟨m, Function.update x n e, y⟩) {q : Descriptor} {rest : List Descriptor}
    (hq : e.queue = q :: rest) : (s.promote n).reel = ⟨m, Function.update x n (e.promoted q rest), y⟩ := by
  have hengine : s.engine = Function.update x n e := congrArg Reel.engine h
  have hself : s.engine n = e := by rw [hengine, Function.update_self]
  rw [promote_reel (by rw [hself, hq]), h, hself, hengine, Function.update_idem]

/-- What the end of a descriptor that does not loop leaves, before the engine goes on. -/
theorem unloaded_reel (d : Descriptor) : ((s.dropRef d.segment).updEngine n Engine.unloaded).reel =
    ⟨s.run.mode, Function.update s.engine n (s.engine n).unloaded,
      Function.update s.segment d.segment { s.segment d.segment with refs := (s.segment d.segment).refs - 1 }⟩ := by
  have hengine : (s.dropRef d.segment).engine = s.engine := by funext m; simp [State.engine]
  rw [updEngine_reel, dropRef_reel, hengine]
  rfl

/-- How an engine whose descriptor `d` is finished goes on (R136, R144, R145). -/
def State.goesOn (t : State) (n : Fin 4) (d : Descriptor) (w : Bool) : State :=
  if d.final then (t.updEngine n fun g => { g with state := .idle }).raiseSet (t.engine n).notify .replayEvent
  else if (t.engine n).queue.isEmpty then
    (t.updEngine n fun g => { g with state := .underrun }).raiseSet (t.engine n).notify .replayEvent
  else (t.promote n).updEngine n fun g => { g with awaiting := g.awaiting && !w }

theorem endDescriptor_of_loops {d : Descriptor} (hd : (s.engine n).current = some d) (hl : 0 < d.loops) (w : Bool) :
    s.endDescriptor n w =
      s.updEngine n fun g => { g with current := some { d with loops := d.loops - 1 }, k := 0 } := by
  simp only [State.endDescriptor, hd, hl, if_true]

theorem endDescriptor_of_over {d : Descriptor} (hd : (s.engine n).current = some d) (hl : ¬0 < d.loops) (w : Bool) :
    s.endDescriptor n w = ((s.dropRef d.segment).updEngine n Engine.unloaded).goesOn n d w := by
  simp only [State.endDescriptor, hd, hl, if_false]
  rfl

theorem reelMoves_goesOn {t : State} {d : Descriptor} (hd : (s.engine n).current = some d)
    (hr : (s.engine n).state = .running) (w : Bool) (ht : t.reel = ⟨s.run.mode,
      Function.update s.engine n (s.engine n).unloaded,
      Function.update s.segment d.segment { s.segment d.segment with refs := (s.segment d.segment).refs - 1 }⟩) :
    ReelMoves s (t.goesOn n d w) := by
  have hself : t.engine n = (s.engine n).unloaded :=
    (congrFun (congrArg Reel.engine ht) n).trans (Function.update_self ..)
  unfold State.goesOn
  split_ifs with hfinal hempty
  · exact reelMoves_of_move (.ended n d { (s.engine n).unloaded with state := .idle } hd (by rfl) (by rfl) (.inl rfl))
      ((raiseSet_reel _ _).trans (updEngine_reel_again ht _))
  · exact reelMoves_of_move (.ended n d { (s.engine n).unloaded with state := .underrun } hd (by rfl) (by rfl)
      (.inr rfl)) ((raiseSet_reel _ _).trans (updEngine_reel_again ht _))
  · cases hq : (s.engine n).queue with
    | nil => simp [hself, Engine.unloaded, hq] at hempty
    | cons q rest =>
      exact reelMoves_of_move (.followed n d q { (s.engine n).unloaded.promoted q rest with
        awaiting := ((s.engine n).unloaded.promoted q rest).awaiting && !w } hd hr hq (by rfl) (by rfl))
        (updEngine_reel_again (promote_reel_again ht (by exact hq)) _)

theorem reelMoves_endDescriptor (hr : (s.engine n).state = .running) (w : Bool) :
    ReelMoves s (s.endDescriptor n w) := by
  cases hd : (s.engine n).current with
  | none => simpa only [State.endDescriptor, hd] using ReflTransGen.refl
  | some d =>
    by_cases hl : 0 < d.loops
    · rw [endDescriptor_of_loops hd hl]
      exact reelMoves_of_move (.looped n d _ hd (by rfl) (by rfl) (by rfl)) (updEngine_reel _)
    · rw [endDescriptor_of_over hd hl]
      exact reelMoves_goesOn hd hr w (unloaded_reel d)

theorem reelMoves_movePosition (hr : (s.engine n).state = .running) (d : Nat) (w : Bool) :
    ReelMoves s (s.movePosition n d w) := by
  have hmoved : ReelMoves s (s.updEngine n fun g => { g with k := g.k + d }) := reelMoves_updEngine ⟨rfl, rfl, rfl⟩
  unfold State.movePosition
  dsimp only
  split
  · split
    · exact hmoved.trans (reelMoves_endDescriptor (by simpa using hr) w)
    · exact hmoved
  · exact hmoved

theorem reelMoves_tickEngine (b : BitVec 32) (w : Bool) : ReelMoves s (State.tickEngine b w s n) := by
  unfold State.tickEngine
  dsimp only
  split
  next h =>
    split
    · split
      · split
        · exact reelMoves_updEngine ⟨rfl, rfl, rfl⟩
        · exact .refl
      · exact reelMoves_movePosition h.1 _ _
    · split
      · exact reelMoves_updEngine ⟨rfl, rfl, rfl⟩
      · exact reelMoves_of_eq (reel_eq rfl rfl rfl)
  · exact .refl

theorem reelMoves_tickEngines (b : BitVec 32) (w : Bool) : ReelMoves s (s.tickEngines b w) := by
  unfold State.tickEngines
  split
  · generalize List.finRange 4 = l
    induction l generalizing s with
    | nil => exact .refl
    | cons n l ih => exact (reelMoves_tickEngine b w).trans (ih (by simpa))
  · exact .refl

theorem reelMoves_takeReplayAdvance : ReelMoves s (s.takeReplayAdvance n) := by
  unfold State.takeReplayAdvance
  dsimp only
  split
  next hr _ _ =>
    split
    · have hzero : ReelMoves s (s.updEngine n fun g => { g with e := 0 }) := reelMoves_updEngine ⟨rfl, rfl, rfl⟩
      exact hzero.trans (reelMoves_movePosition (by simpa using hr) _ _)
    · exact .refl
  · exact .refl

/-! ## The part modes -/

theorem reel_of_fields {m : Mode} (hm : t.run.mode = m) (he : t.engines = s.engines) (hg : t.segments = s.segments) :
    t.reel = ⟨m, s.engine, s.segment⟩ := by
  have h : t.reel = { s.reel with mode := t.run.mode } :=
    reel_eq (s := s.updRun fun r => { r with mode := t.run.mode }) rfl he hg
  rw [h, hm]
  rfl

theorem pauseEngines_reel : s.pauseEngines.reel = { s.reel with engine := fun n => (s.engine n).paused } := by
  have hengine : s.pauseEngines.engine = fun n => (s.engine n).paused := by
    funext n
    simp only [State.pauseEngines, State.engine, mapV_get]
    rfl
  rw [State.reel, hengine]
  rfl

theorem reelMoves_enterSafe (why : SafeCause) : ReelMoves s (s.enterSafe why) := by
  by_cases h : s.run.mode = .run
  · have hentry : ((s.safeEntry why).haltGenerators.safeFaults).reel = ⟨.safe, s.engine, s.segment⟩ :=
      reel_of_fields (by simp [State.safeEntry]) (by simp [State.safeEntry]) (by simp [State.safeEntry])
    have hengine := congrArg Reel.engine hentry
    refine reelMoves_of_move (.paused h) ?_
    rw [enterSafe_eq why h, pauseEngines_reel, hentry]
    exact congrArg (fun x => Reel.mk _ (fun n => (x n).paused) _) hengine
  · rw [enterSafe_of_not_run why h]

theorem startEngines_reel : s.startEngines.reel = { s.reel with engine := fun n => (s.engine n).started } := by
  have hengine : s.startEngines.engine = fun n => (s.engine n).started := funext (startEngines_engine s)
  have hsegment : s.startEngines.segment = s.segment := by funext g; simp [State.segment]
  have hmode : s.startEngines.run.mode = s.run.mode := by simp
  rw [State.reel, hengine, hsegment, hmode]
  rfl

theorem reelMoves_startRun : ReelMoves s s.startRun := by
  refine reelMoves_of_move .started ?_
  have hentry : (((s.updRun fun r => { r with mode := .run, monitor := r.monitor.start }).mapDrivers
      Driver.start).startGenerators).reel = ⟨.run, s.engine, s.segment⟩ :=
    reel_of_fields (by simp) (by simp) (by simp)
  have hengine := congrArg Reel.engine hentry
  rw [State.startRun, startEngines_reel, hentry]
  exact congrArg (fun x => Reel.mk _ (fun n => (x n).started) _) hengine

theorem reelMoves_resumeRun : ReelMoves s s.resumeRun := by
  refine reelMoves_of_move .started ?_
  have hentry : ((s.updRun fun r => { r with mode := .run, monitor := r.monitor.start }).startGenerators).reel =
      ⟨.run, s.engine, s.segment⟩ := reel_of_fields (by simp) (by simp) (by simp)
  have hengine := congrArg Reel.engine hentry
  rw [State.resumeRun, startEngines_reel, hentry]
  exact congrArg (fun x => Reel.mk _ (fun n => (x n).started) _) hengine

theorem reelMoves_stopRun : ReelMoves s s.stopRun := by
  refine reelMoves_of_move .stopped ?_
  have hengine : s.stopRun.engine = fun n => { s.engine n with state := .idle } := by
    funext n
    have hbefore : s.stopEntry.haltGenerators.engines = s.engines := by simp [State.stopEntry]
    simp only [stopRun_eq, State.engine, State.idleEngines, mapV_get, hbefore]
  have hsegment : s.stopRun.segment = s.segment := by funext g; simp [stopRun_eq, State.segment, State.stopEntry]
  rw [State.reel, hengine, hsegment, stopRun_run]
  rfl

/-! ## Requests -/

theorem reelMoves_promote (hm : s.run.mode = .run) (hd : (s.engine n).current = none) : ReelMoves s (s.promote n) := by
  cases hq : (s.engine n).queue with
  | nil => simpa only [State.promote, hq] using ReflTransGen.refl
  | cons q rest =>
    exact reelMoves_of_move (.promoted n q ((s.engine n).promoted q rest) hm hd hq (by rfl) (by rfl)) (promote_reel hq)

/-- A state after a descriptor has joined the queue of an engine, with its reference (R134). -/
def State.joinQueue (s : State) (n : Fin 4) (d : Descriptor) : State :=
  (s.updSegment d.segment fun y => { y with refs := y.refs + 1 }).updEngine n fun e => { e with queue := e.queue ++ [d] }

theorem reelMoves_joinQueue {d : Descriptor} (hl : (s.engine n).queue.length < 8)
    (hg : (s.segment d.segment).defined = true) (hr : d.ready = true) : ReelMoves s (s.joinQueue n d) := by
  refine reelMoves_of_move (.queued n d { s.engine n with queue := (s.engine n).queue ++ [d] } hl hg hr (by rfl)
    (by rfl) (by rfl)) ?_
  have hengine : (s.updSegment d.segment fun y => { y with refs := y.refs + 1 }).engine = s.engine := rfl
  rw [State.joinQueue, updEngine_reel, updSegment_reel, hengine]
  rfl

theorem reelMoves_enqueue {d : Descriptor} (hl : (s.engine n).queue.length < 8)
    (hg : (s.segment d.segment).defined = true) (hr : d.ready = true) : ReelMoves s (s.enqueue n d) := by
  have heq : s.enqueue n d = if s.startsOnQueue n then (s.joinQueue n d).promote n else s.joinQueue n d := rfl
  have hqueued := reelMoves_joinQueue hl hg hr
  rw [heq]
  split
  next hstart =>
    obtain ⟨⟨hm, -⟩, hd⟩ : (s.run.mode = .run ∧ _) ∧ (s.engine n).current = none := by
      simpa [State.startsOnQueue] using hstart
    exact hqueued.trans (reelMoves_promote hm (by simpa [State.joinQueue] using hd))
  · exact hqueued

/-- The references that are dropped, segment by segment. -/
theorem dropRefs_segment (l : List Descriptor) (g : Fin 32) :
    (l.foldl (fun s d => s.dropRef d.segment) s).segment g =
      { s.segment g with refs := (s.segment g).refs - (l.filter fun d => d.segment == g).length } := by
  induction l generalizing s with
  | nil => rfl
  | cons d l ih =>
    rw [List.foldl_cons, ih]
    by_cases h : d.segment = g
    · simp [State.dropRef, h, Nat.sub_sub, Nat.add_comm]
    · simp [State.dropRef, h]

theorem reelMoves_discardAll : ReelMoves s (s.discardAll n) := by
  refine reelMoves_of_move (.discarded n (({ s.engine n with
    state := .idle, current := none, queue := [], k := 0, e := 0, awaiting := false } : Engine)) (by rfl) (by rfl)
    (by rfl)) ?_
  have hengine : ((heldDescriptors (s.engine n)).foldl (fun s d => s.dropRef d.segment) s).engine = s.engine := by
    funext m
    rw [State.engine, dropRefs_frame]
    rfl
  have hmode : ((heldDescriptors (s.engine n)).foldl (fun s d => s.dropRef d.segment) s).run = s.run := by
    rw [dropRefs_frame]
  rw [State.discardAll, updEngine_reel, State.reel, hengine, hmode]
  simp only [Reel.mk.injEq]
  exact ⟨rfl, rfl, funext (dropRefs_segment _)⟩

theorem rigReset_reel : s.rigReset.reel = ⟨.config, fun _ => {}, fun g => { s.segment g with refs := 0 }⟩ := by
  have hengine : s.rigReset.engine = fun _ => {} := by
    funext n
    simp only [State.rigReset, State.powerOn, State.reset, State.engine, Vector.get_eq_getElem, Vector.getElem_replicate]
  have hsegment : s.rigReset.segment = fun g => { s.segment g with refs := 0 } := by
    funext g
    simp only [State.rigReset, State.segment, mapV_get]
  rw [State.reel, hengine, hsegment]
  rfl

theorem powerOn_reel : s.powerOn.reel = ⟨.config, fun _ => {}, fun _ => {}⟩ := by
  have hengine : s.powerOn.engine = fun _ => {} := by
    funext n
    simp only [State.powerOn, State.reset, State.engine, Vector.get_eq_getElem, Vector.getElem_replicate]
  have hsegment : s.powerOn.segment = fun _ => {} := by
    funext g
    simp only [State.powerOn, State.reset, State.segment, Vector.get_eq_getElem, Vector.getElem_replicate]
  rw [State.reel, hengine, hsegment]
  rfl

theorem judgedForStop_reel : s.judgedForStop.reel = s.reel := by
  rw [judgedForStop_frame]; rfl

theorem marked_reel : s.marked.reel = s.reel := by
  have hmode : s.marked.run.mode = s.run.mode := by
    unfold State.marked
    split <;> simp
  refine reel_eq hmode ?_ ?_ <;> rw [marked_frame]

theorem reelMoves_leaves (h : Leaves s t) : ReelMoves s t := by
  cases h with
  | start _ => exact reelMoves_startRun
  | resume _ _ => exact reelMoves_resumeRun
  | stop _ _ _ => exact (reelMoves_of_eq judgedForStop_reel).trans reelMoves_stopRun
  | enterSafe _ => exact (reelMoves_enterSafe .request).trans (reelMoves_of_eq (reel_eq (by simp) (by simp) (by simp)))
  | reset => exact reelMoves_of_move .rigReset rigReset_reel
  | define g b l hg hl ho =>
    exact reelMoves_of_move (.defined g b l hg hl fun h => overlaps_eq_false_iff.1 ho h) (updSegment_reel g _)
  | free g hg hr => exact reelMoves_of_move (.freed g hg hr) (updSegment_reel g _)
  | setReplay n x y g _ => exact reelMoves_updEngine ⟨rfl, rfl, rfl⟩
  | queueReplay n d hq hg hd => exact reelMoves_enqueue hq hg hd
  | stopReplay n =>
    exact (reelMoves_discardAll (n := n)).trans (reelMoves_of_eq (reel_eq (by simp) (by simp) (by simp)))
  | counted => exact reelMoves_of_eq judgedForStop_reel
  | live l => exact reelMoves_of_eq (by rw [liveUpdated_frame]; rfl)
  | stepMark => exact reelMoves_of_eq marked_reel
  | channel c g _ =>
    have h : (s.fieldsWritten c g).reel = s.reel := by rw [fieldsWritten_frame]; rfl
    refine reelMoves_of_eq ?_
    split
    · exact h
    · exact (reel_eq (by simp) (by simp) (by simp)).trans h
  | force c v =>
    have h : (s.forcedWritten c v).reel = s.reel := by rw [forcedWritten_frame]; rfl
    exact reelMoves_of_eq ((reel_eq (by simp) (by simp) (by simp)).trans h)
  | release k =>
    rw [release_eq_safeRecord]
    exact reelMoves_of_eq (reel_eq (by simp) (by simp) (by simp))
  | transfer x _ _ _ _ => exact reelMoves_of_eq (by rw [beginTransfer_frame]; rfl)
  | clearNotices p w =>
    refine reelMoves_of_eq ?_
    rw [recoveries_frame]
    exact reel_eq (by simp) (by simp) (by simp)
  | _ => exact reelMoves_of_eq (reel_eq (by simp) (by simp) (by simp))

/-! ## Events and ticks -/

/-- Entry to SAFE from a state that differs in neither mode, engines nor segments. -/
theorem reelMoves_enterSafe_of_eq (h : u.reel = s.reel) (why : SafeCause) : ReelMoves s (u.enterSafe why) :=
  (reelMoves_of_eq h).trans (reelMoves_enterSafe why)

theorem reelMoves_takeSafeLine : ReelMoves s s.takeSafeLine := by
  unfold State.takeSafeLine
  dsimp only
  split_ifs
  · refine reelMoves_enterSafe_of_eq ?_ _
    exact reel_eq (by simp) (by simp) (by simp)
  · exact reelMoves_of_eq (reel_eq rfl rfl rfl)
  · exact .refl

theorem reelMoves_takeDeadline : ReelMoves s s.takeDeadline := by
  unfold State.takeDeadline
  dsimp only
  split_ifs
  · refine reelMoves_enterSafe_of_eq ?_ _
    exact reel_eq (by simp) (by simp) (by simp)
  · exact reelMoves_of_eq (reel_eq rfl rfl rfl)
  · exact .refl

theorem reelMoves_takeCaptureReport (i : Fin 16) : ReelMoves s (s.takeCaptureReport i) := by
  have hrecorded (l : Bool) (st : Stamp) : (s.edgeRecorded i l st).reel = s.reel := by
    rw [edgeRecorded_frame]
    exact reel_eq (by simp) (by simp) (by simp)
  obtain h | ⟨l, st, -, -, ⟨-, h⟩ | ⟨-, h⟩⟩ := takeCaptureReport_cases s i <;> rw [h]
  · exact reelMoves_of_eq (hrecorded l st)
  · exact reelMoves_enterSafe_of_eq (hrecorded l st) _

theorem reelMoves_takeMillisecond : ReelMoves s s.takeMillisecond := by
  have hramp (u : State) : u.rampBoundary.reel = u.reel := by
    unfold State.rampBoundary
    split
    · rfl
    · split <;> rfl
    · rfl
  unfold State.takeMillisecond
  split
  · exact reelMoves_computeSpeed.trans (reelMoves_of_eq (hramp _))
  · exact reelMoves_of_eq (hramp _)

theorem reelMoves_takeRefresh : ReelMoves s s.takeRefresh := by
  have h : s.takeRefresh.reel = s.computeAnalog.reel := by
    unfold State.takeRefresh
    exact reel_eq (by simp) (by simp) (by simp)
  exact reelMoves_computeAnalog.trans (reelMoves_of_eq h)

theorem reelMoves_perform (e : Event) : ReelMoves s (s.perform e) := by
  cases e with
  | replayAdvance n => exact reelMoves_takeReplayAdvance
  | millisecond => exact reelMoves_takeMillisecond
  | captureReport i => exact reelMoves_takeCaptureReport i
  | refresh => exact reelMoves_takeRefresh
  | deadline => exact reelMoves_takeDeadline
  | safeLine => exact reelMoves_takeSafeLine
  | _ => exact reelMoves_of_eq (reel_eq (by simp [State.perform]) (by simp [State.perform]) (by simp [State.perform]))

theorem reelMoves_makeTick : ReelMoves s s.makeTick := by
  have hclocked : s.clocked.evaluatePulses.reel = s.reel :=
    reel_eq (by simp [State.clocked]) (by simp [State.clocked]) (by simp [State.clocked])
  have hrest : s.makeTick.reel = s.tickPlayed.reel := by
    rw [makeTick_eq]
    have hmode : s.tickSampled.settle.run.mode = s.tickPlayed.run.mode := by
      rw [show s.tickSampled.settle.run = s.tickSampled.run by simp, State.tickSampled, sampleSafeLine_mode, tickMonitor_mode]
      simp [State.tickGridded, State.tickFired, State.tickCounted]
    refine reel_eq hmode ?_ ?_ <;>
      simp [State.tickSampled, State.tickGridded, State.tickFired, State.tickCounted]
  exact ((reelMoves_of_eq hclocked).trans (reelMoves_tickEngines _ _)).trans (reelMoves_of_eq hrest)

/-- What a step can do to the engines and the segments. -/
theorem kept_reelMoves (s : State) : Kept fun u => ReelMoves s u where
  pending _ _ h := h
  port u p f _ h := h.trans (reelMoves_of_eq (reel_eq (by simp) (by simp) (by simp)))
  request i u h := h.trans (reelMoves_leaves (handle_leaves u i))
  transfer _ _ _ h := h
  perform u e h := h.trans (reelMoves_perform e)
  settle u h := h.trans (reelMoves_of_eq (reel_eq (by simp) (by simp) (by simp)))
  due _ _ h := h
  pins _ _ h := h
  count u b h := h.trans (reelMoves_of_eq (reel_eq (by simp) (by simp) (by simp)))
  tick u h := h.trans reelMoves_makeTick
  voltage u i v h := h.trans (reelMoves_of_eq (reel_eq (by simp) (by simp) (by simp)))
  powerOn _ h := h.trans (reelMoves_of_move .powerOn powerOn_reel)
  rigReset _ h := h.trans (reelMoves_of_move .rigReset rigReset_reel)

/-- A property of the engines and the segments that each move keeps is kept by every step. -/
theorem step_keeps_reel {Q : Reel → Prop} (hQ : ∀ a b, ReelMove a b → Q a → Q b) {s t : State} (hs : Q s.reel)
    (ht : step s = .next t) : Q t.reel := by
  have hmoves : ReelMoves s t := (kept_reelMoves s).step .refl ht
  unfold ReelMoves at hmoves
  generalize t.reel = b at hmoves
  induction hmoves with
  | refl => exact hs
  | tail _ hmove ih => exact hQ _ _ hmove ih

end Machine

end Sys2Proof
end

section
/-! The laws of the engines and of the segments, kept by each of their moves (R115, R119, R122, R129, R130, R146,
R147). -/

namespace Sys2Proof.Machine

variable {a b : Reel} {s t : State}

/-! ## The queues (R130) -/

/-- An engine holds at most 8 queued descriptors, each ready, and its current one is not (R130). -/
def queuesGood (e : Engine) : Prop :=
  e.queue.length ≤ 8 ∧ (∀ d ∈ e.queue, d.ready = true) ∧ ∀ d, e.current = some d → d.ready = false

theorem queuesGood_of_alike {e f : Engine} (h : e.alike f) (he : queuesGood e) : queuesGood f := by
  obtain ⟨hq, hc, -⟩ := h
  rw [queuesGood, hq, hc]
  exact he

theorem queuesGood_fresh : queuesGood {} := ⟨Nat.zero_le _, by simp, by simp⟩

/-- An engine that takes the head of its queue keeps its queue good. -/
theorem queuesGood_promoted {e f : Engine} {q : Descriptor} (he : queuesGood e) (hq : e.queue = q :: f.queue)
    (hc : f.current = some { q with ready := false }) : queuesGood f := by
  obtain ⟨hl, hr, -⟩ := he
  rw [hq] at hl hr
  refine ⟨(Nat.le_succ _).trans hl, fun d hd => hr d (List.mem_cons_of_mem _ hd), fun d hd => ?_⟩
  rw [hc] at hd
  cases hd
  rfl

theorem started_queuesGood {e : Engine} (he : queuesGood e) : queuesGood e.started := by
  unfold Engine.started
  split
  · exact he
  · exact he
  next q rest _ hq =>
    split
    · exact queuesGood_promoted he hq rfl
    · exact he

/-- A property of each of a table, once the one that changes has it. -/
theorem forall_update {α : Type} {k : Nat} {P : α → Prop} {x : Fin k → α} {n : Fin k} {e : α} (hx : ∀ m, P (x m))
    (he : P e) (m : Fin k) : P (Function.update x n e m) := by
  by_cases h : m = n
  · rw [h, Function.update_self]; exact he
  · rw [Function.update_of_ne h]; exact hx m

theorem reelMove_keeps_queues (h : ReelMove a b) (ha : ∀ n, queuesGood (a.engine n)) : ∀ n, queuesGood (b.engine n) := by
  cases h with
  | played f h => exact fun n => queuesGood_of_alike (h n) (ha n)
  | looped n d e hd hq hc _ =>
    obtain ⟨hl, hr, hn⟩ := ha n
    refine forall_update ha ⟨hq ▸ hl, hq ▸ hr, fun c hcur => ?_⟩
    cases hc.symm.trans hcur
    exact hn d hd
  | ended n d e _ hq hc _ =>
    obtain ⟨hl, hr, -⟩ := ha n
    exact forall_update ha ⟨hq ▸ hl, hq ▸ hr, by simp [hc]⟩
  | followed n d q e _ _ hq hc _ => exact forall_update ha (queuesGood_promoted (ha n) hq hc)
  | paused _ =>
    intro n
    have h : (a.engine n).paused.queue = (a.engine n).queue ∧ (a.engine n).paused.current = (a.engine n).current := by
      unfold Engine.paused; split <;> exact ⟨rfl, rfl⟩
    rw [queuesGood, h.1, h.2]
    exact ha n
  | started => exact fun n => started_queuesGood (ha n)
  | stopped => exact fun n => ha n
  | queued n d e hl _ hr hq hc _ =>
    obtain ⟨-, hready, hcur⟩ := ha n
    refine forall_update ha ⟨by rw [hq]; simpa using hl, ?_, hc ▸ hcur⟩
    rw [hq]
    intro c hmem
    rcases List.mem_append.1 hmem with h | h
    · exact hready c h
    · rw [List.mem_singleton.1 h]; exact hr
  | promoted n q e _ _ hq hc _ => exact forall_update ha (queuesGood_promoted (ha n) hq hc)
  | discarded n e hq hc _ => exact forall_update ha ⟨by simp [hq], by simp [hq], by simp [hc]⟩
  | defined _ _ _ _ _ _ | freed _ _ _ => exact ha
  | rigReset | powerOn => exact fun _ => queuesGood_fresh

theorem step_keeps_engineLaw (hs : s.engineLaw) (ht : step s = .next t) : t.engineLaw :=
  step_keeps_reel (Q := fun a => ∀ n, queuesGood (a.engine n)) (fun _ _ => reelMove_keeps_queues) hs ht

/-! ## The states and the current descriptors (R129, R146, R147) -/

/-- What an engine plays fits the part mode (R129, R146, R147). -/
def playGood (m : Mode) (e : Engine) : Prop :=
  (e.state = .running → m = .run ∧ e.current.isSome = true) ∧ (e.state = .paused → m = .safe ∧ e.current.isSome = true)

theorem playGood_of_idle {m : Mode} {e : Engine} (h : e.state = .idle ∨ e.state = .underrun) : playGood m e := by
  rcases h with h | h <;> constructor <;> simp [h]

theorem playGood_started {m : Mode} {e : Engine} (he : playGood m e) : playGood .run e.started := by
  obtain ⟨hrun, hpause⟩ := he
  have hrest (hc : e.current = none) : playGood .run e := by
    rw [hc] at hrun hpause
    exact ⟨fun h => absurd (hrun h).2 (by decide), fun h => absurd (hpause h).2 (by decide)⟩
  unfold Engine.started
  split
  next hc => exact ⟨fun _ => ⟨rfl, by simp [hc]⟩, nofun⟩
  next hc _ => exact hrest hc
  next hc _ =>
    split
    · exact ⟨fun _ => ⟨rfl, rfl⟩, nofun⟩
    · exact hrest hc

theorem playGood_paused {m : Mode} {e : Engine} (he : playGood m e) (hm : m = .run) : playGood .safe e.paused := by
  obtain ⟨hrun, hpause⟩ := he
  unfold Engine.paused
  split
  next h => exact ⟨nofun, fun _ => ⟨rfl, (hrun h).2⟩⟩
  next h => exact ⟨fun hr => absurd hr h, fun hp => absurd (hm.symm.trans (hpause hp).1) (by decide)⟩

theorem reelMove_keeps_play (h : ReelMove a b) (ha : ∀ n, playGood a.mode (a.engine n)) :
    ∀ n, playGood b.mode (b.engine n) := by
  cases h with
  | played f h =>
    intro n
    obtain ⟨-, hc, hs⟩ := h n
    rw [playGood, hc, hs]
    exact ha n
  | looped n d e hd hq hc hs =>
    refine forall_update ha ?_
    obtain ⟨hrun, hpause⟩ := ha n
    rw [playGood, hs, hc]
    exact ⟨fun h => ⟨(hrun h).1, rfl⟩, fun h => ⟨(hpause h).1, rfl⟩⟩
  | ended n d e _ _ _ hs => exact forall_update ha (playGood_of_idle hs)
  | followed n d q e _ hr _ hc hs =>
    exact forall_update ha ⟨fun _ => ⟨((ha n).1 hr).1, by rw [hc]; rfl⟩, by simp [hs]⟩
  | paused hm => exact fun n => playGood_paused (ha n) hm
  | started => exact fun n => playGood_started (ha n)
  | stopped => exact fun n => playGood_of_idle (.inl rfl)
  | queued n d e _ _ _ _ hc hs =>
    refine forall_update ha ?_
    rw [playGood, hs, hc]
    exact ha n
  | promoted n q e hm _ _ hc hs => exact forall_update ha ⟨fun _ => ⟨hm, by rw [hc]; rfl⟩, by simp [hs]⟩
  | discarded n e _ _ hs => exact forall_update ha (playGood_of_idle (.inl hs))
  | defined _ _ _ _ _ _ | freed _ _ _ => exact ha
  | rigReset | powerOn => exact fun _ => playGood_of_idle (.inl rfl)

theorem step_keeps_playLaw (hs : s.playLaw) (ht : step s = .next t) : t.playLaw :=
  step_keeps_reel (Q := fun a => ∀ n, playGood a.mode (a.engine n)) (fun _ _ => reelMove_keeps_play) hs ht

/-! ## The references (R122) -/

/-- The descriptors of the four engines that name a segment (R122). -/
def namings (x : Fin 4 → Engine) (g : Fin 32) : Nat := ((List.finRange 4).map fun n => (x n).names g).sum

/-- Every reference count is the number of descriptors that name the segment, and a segment that is named is DEFINED
(R122). -/
def refsGood (a : Reel) : Prop :=
  ∀ g, (a.segment g).refs = namings a.engine g ∧ (0 < (a.segment g).refs → (a.segment g).defined = true)

theorem namings_eq (x : Fin 4 → Engine) (g : Fin 32) : namings x g = ∑ n, (x n).names g := by
  rw [namings, ← List.ofFn_eq_map, List.sum_ofFn]

/-- The count changes by what the one engine that changes names. -/
theorem namings_update (x : Fin 4 → Engine) (n : Fin 4) (e : Engine) (g : Fin 32) :
    namings (Function.update x n e) g + (x n).names g = namings x g + e.names g := by
  have hrest : ∑ m ∈ Finset.univ.erase n, (Function.update x n e m).names g = ∑ m ∈ Finset.univ.erase n, (x m).names g :=
    Finset.sum_congr rfl fun m hm => by rw [Function.update_of_ne (Finset.ne_of_mem_erase hm)]
  rw [namings_eq, namings_eq, ← Finset.add_sum_erase _ _ (Finset.mem_univ n),
    ← Finset.add_sum_erase _ (fun m => (x m).names g) (Finset.mem_univ n), Function.update_self, hrest]
  omega

theorem names_le_namings (x : Fin 4 → Engine) (n : Fin 4) (g : Fin 32) : (x n).names g ≤ namings x g := by
  rw [namings_eq]
  exact Finset.single_le_sum (f := fun m => (x m).names g) (fun _ _ => Nat.zero_le _) (Finset.mem_univ n)

/-- The current descriptor and the queued ones are counted one by one. -/
theorem names_eq (e : Engine) (g : Fin 32) : e.names g =
    e.current.toList.countP (fun d => d.segment == g) + e.queue.countP fun d => d.segment == g := by
  rw [Engine.names, heldDescriptors, ← List.countP_eq_length_filter, List.countP_append]

theorem names_congr {e f : Engine} (hq : f.queue = e.queue) (hc : f.current = e.current) (g : Fin 32) :
    f.names g = e.names g := by
  rw [names_eq, names_eq, hq, hc]

/-- A descriptor that moves from the queue to the current place is counted as before. -/
theorem names_promoted {e f : Engine} {q : Descriptor} (hn : e.current = none) (hq : e.queue = q :: f.queue)
    (hc : f.current = some { q with ready := false }) (g : Fin 32) : f.names g = e.names g := by
  rw [names_eq, names_eq, hn, hq, hc]
  simp [List.countP_cons, Nat.add_comm]

theorem names_started (e : Engine) (g : Fin 32) : e.started.names g = e.names g := by
  unfold Engine.started
  split
  · exact names_congr rfl rfl g
  · rfl
  next hn hq =>
    split
    · exact names_promoted hn hq rfl g
    · rfl

/-- The references after a change of one engine: each count changes by what that engine names. -/
theorem refsGood_of_update (ha : refsGood a) {m : Mode} {n : Fin 4} {e : Engine} {y : Fin 32 → Segment}
    (hrefs : ∀ g, (y g).refs + (a.engine n).names g = (a.segment g).refs + e.names g)
    (hdef : ∀ g, 0 < (y g).refs → (y g).defined = true) : refsGood ⟨m, Function.update a.engine n e, y⟩ := by
  refine fun g => ⟨?_, hdef g⟩
  have hcount := namings_update a.engine n e g
  have hbefore := (ha g).1
  have hchange := hrefs g
  show (y g).refs = namings (Function.update a.engine n e) g
  omega

/-- A change of the engines that keeps what each names. -/
theorem refsGood_of_names (ha : refsGood a) {m : Mode} {x : Fin 4 → Engine}
    (hx : ∀ n g, (x n).names g = (a.engine n).names g) : refsGood ⟨m, x, a.segment⟩ := by
  refine fun g => ⟨?_, (ha g).2⟩
  have hcount : namings x g = namings a.engine g := by simp only [namings, hx]
  exact (ha g).1.trans hcount.symm

/-- The end of a descriptor takes its reference with it. -/
theorem refsGood_of_dropped (ha : refsGood a) {m : Mode} {n : Fin 4} {d : Descriptor} {e : Engine}
    (hn : ∀ g, (a.engine n).names g = e.names g + if d.segment = g then 1 else 0) :
    refsGood ⟨m, Function.update a.engine n e,
      Function.update a.segment d.segment { a.segment d.segment with refs := (a.segment d.segment).refs - 1 }⟩ := by
  refine refsGood_of_update ha (fun g => ?_) fun g hg => ?_
  · have hle := names_le_namings a.engine n g
    have hbefore := (ha g).1
    rw [hn g] at hle ⊢
    by_cases h : g = d.segment
    · subst h
      rw [Function.update_self]
      simp only [if_true] at hle ⊢
      omega
    · rw [Function.update_of_ne h, if_neg (Ne.symm h)]
      rfl
  · by_cases h : g = d.segment
    · subst h
      rw [Function.update_self] at hg ⊢
      exact (ha d.segment).2 (by have : 0 < (a.segment d.segment).refs - 1 := hg; omega)
    · rw [Function.update_of_ne h] at hg ⊢
      exact (ha g).2 hg

theorem refsGood_of_zero {m : Mode} {y : Fin 32 → Segment} (hy : ∀ g, (y g).refs = 0) :
    refsGood ⟨m, fun _ => {}, y⟩ := by
  refine fun g => ⟨(hy g).trans ?_, fun h => ?_⟩
  · simp [namings, Engine.names, heldDescriptors]
  · rw [show ((⟨m, fun _ => {}, y⟩ : Reel).segment g).refs = 0 from hy g] at h
    exact absurd h (Nat.lt_irrefl 0)

theorem reelMove_keeps_refs (h : ReelMove a b) (ha : refsGood a) : refsGood b := by
  cases h with
  | played f h =>
    exact refsGood_of_names ha fun n g => names_congr (h n).1 (h n).2.1 g
  | looped n d e hd hq hc _ =>
    refine refsGood_of_update ha (fun g => ?_) fun g => (ha g).2
    rw [names_eq, names_eq, hd, hq, hc]
    simp
  | ended n d e hd hq hc _ =>
    refine refsGood_of_dropped ha fun g => ?_
    rw [names_eq, names_eq, hd, hq, hc]
    simp [Nat.add_comm]
  | followed n d q e hd _ hq hc _ =>
    refine refsGood_of_dropped ha fun g => ?_
    rw [names_eq, names_eq, hd, hq, hc]
    simp [List.countP_cons, Nat.add_comm]
  | paused _ =>
    refine refsGood_of_names ha fun n g => ?_
    unfold Engine.paused
    split <;> rfl
  | started => exact refsGood_of_names ha fun n g => names_started _ g
  | stopped => exact refsGood_of_names ha fun n g => rfl
  | queued n d e _ hg _ hq hc _ =>
    refine refsGood_of_update ha (fun g => ?_) fun g hpos => ?_
    · rw [names_eq, names_eq, hq, hc]
      by_cases h : g = d.segment
      · subst h; simp; omega
      · simp [Function.update_of_ne h, Ne.symm h]
    · by_cases h : g = d.segment
      · subst h; rw [Function.update_self]; exact hg
      · rw [Function.update_of_ne h] at hpos ⊢
        exact (ha g).2 hpos
  | promoted n q e _ hd hq hc _ =>
    refine refsGood_of_update ha (fun g => ?_) fun g => (ha g).2
    rw [names_promoted hd hq hc]
  | discarded n e hq hc _ =>
    refine refsGood_of_update ha (fun g => ?_) fun g hpos => (ha g).2 (Nat.lt_of_lt_of_le hpos (Nat.sub_le _ _))
    have hle := names_le_namings a.engine n g
    have hbefore := (ha g).1
    have hnone : e.names g = 0 := by simp [names_eq, hq, hc]
    rw [hnone]
    show (a.segment g).refs - _ + _ = _
    omega
  | defined g b l hg _ _ =>
    intro h
    by_cases hh : h = g
    · subst hh
      have hzero : (a.segment h).refs = 0 := by
        by_contra hne
        exact absurd ((ha h).2 (Nat.pos_of_ne_zero hne)) (by simp [hg])
      simpa [hzero] using (ha h).1
    · simpa [Function.update_of_ne hh] using ha h
  | freed g _ hr =>
    intro h
    by_cases hh : h = g
    · subst hh
      simpa [hr] using (ha h).1
    · simpa [Function.update_of_ne hh] using ha h
  | rigReset => exact refsGood_of_zero fun _ => rfl
  | powerOn => exact refsGood_of_zero fun _ => rfl

theorem step_keeps_refLaw (hs : s.refLaw) (ht : step s = .next t) : t.refLaw :=
  step_keeps_reel (Q := refsGood) (fun _ _ => reelMove_keeps_refs) hs ht

/-! ## The segments (R115, R119) -/

/-- Each DEFINED segment lies within Sample Memory, and no two of them meet (R119). -/
def segmentsGood (y : Fin 32 → Segment) : Prop :=
  (∀ g, (y g).defined = true → 2 ≤ (y g).length ∧ (y g).base + (y g).length ≤ memorySize) ∧
  ∀ g h, g ≠ h → (y g).defined = true → (y h).defined = true →
    stretchesMeet (y g).base (y g).length (y h).base (y h).length = false

/-- A change of reference counts alone. -/
theorem segmentsGood_of_refs {y z : Fin 32 → Segment} (h : ∀ g, { z g with refs := 0 } = { y g with refs := 0 })
    (hy : segmentsGood y) : segmentsGood z := by
  have hsame (g : Fin 32) : (z g).defined = (y g).defined ∧ (z g).base = (y g).base ∧ (z g).length = (y g).length := by
    simpa using h g
  obtain ⟨hin, hapart⟩ := hy
  refine ⟨fun g hd => ?_, fun g g' hne hd hd' => ?_⟩
  · obtain ⟨hdef, hb, hl⟩ := hsame g
    rw [hb, hl]
    exact hin g (hdef ▸ hd)
  · obtain ⟨hdef, hb, hl⟩ := hsame g
    obtain ⟨hdef', hb', hl'⟩ := hsame g'
    rw [hb, hl, hb', hl']
    exact hapart g g' hne (hdef ▸ hd) (hdef' ▸ hd')

theorem segmentsGood_update {y : Fin 32 → Segment} {g : Fin 32} {x : Segment} (hy : segmentsGood y)
    (hx : x.defined = true → 2 ≤ x.length ∧ x.base + x.length ≤ memorySize ∧ ∀ h, h ≠ g → (y h).defined = true →
      stretchesMeet x.base x.length (y h).base (y h).length = false) : segmentsGood (Function.update y g x) := by
  obtain ⟨hin, hapart⟩ := hy
  refine ⟨fun h hd => ?_, fun h h' hne hd hd' => ?_⟩
  · by_cases hh : h = g
    · subst hh
      rw [Function.update_self] at hd ⊢
      exact ⟨(hx hd).1, (hx hd).2.1⟩
    · rw [Function.update_of_ne hh] at hd ⊢
      exact hin h hd
  · by_cases hh : h = g
    · subst hh
      rw [Function.update_self] at hd ⊢
      rw [Function.update_of_ne (Ne.symm hne)] at hd' ⊢
      exact (hx hd).2.2 h' (Ne.symm hne) hd'
    · rw [Function.update_of_ne hh] at hd ⊢
      by_cases hh' : h' = g
      · subst hh'
        rw [Function.update_self] at hd' ⊢
        have hmeet := (hx hd').2.2 h hh hd
        rw [stretchesMeet_eq_false_iff] at hmeet ⊢
        exact hmeet.symm
      · rw [Function.update_of_ne hh'] at hd' ⊢
        exact hapart h h' hne hd hd'

theorem segmentsGood_update_refs {y : Fin 32 → Segment} {g : Fin 32} {n : Nat} (hy : segmentsGood y) :
    segmentsGood (Function.update y g { y g with refs := n }) := by
  refine segmentsGood_of_refs (fun h => ?_) hy
  by_cases hh : h = g
  · subst hh; rw [Function.update_self]
  · rw [Function.update_of_ne hh]

theorem reelMove_keeps_segments (h : ReelMove a b) (ha : segmentsGood a.segment) : segmentsGood b.segment := by
  cases h with
  | ended _ _ _ _ _ _ _ | followed _ _ _ _ _ _ _ _ _ | queued _ _ _ _ _ _ _ _ _ => exact segmentsGood_update_refs ha
  | discarded _ _ _ _ _ | rigReset => exact segmentsGood_of_refs (fun _ => rfl) ha
  | defined g b l _ hl ho => exact segmentsGood_update ha fun _ => ⟨hl.1, hl.2, ho⟩
  | freed g _ _ => exact segmentsGood_update ha nofun
  | powerOn => exact ⟨nofun, nofun⟩
  | played _ _ | looped _ _ _ _ _ _ _ | paused _ | started | stopped | promoted _ _ _ _ _ _ _ _ => exact ha

theorem step_keeps_segmentLaw (hs : s.segmentLaw) (ht : step s = .next t) : t.segmentLaw :=
  step_keeps_reel (Q := fun a => segmentsGood a.segment) (fun _ _ => reelMove_keeps_segments) hs ht

/-- A DEFINED segment ends within Sample Memory (R115). -/
def endsWithin (x : Segment) : Prop := x.defined = true → x.base + x.length ≤ memorySize

theorem reelMove_keeps_ends (h : ReelMove a b) (ha : ∀ g, endsWithin (a.segment g)) : ∀ g, endsWithin (b.segment g) := by
  cases h with
  | ended _ d _ _ _ _ _ | followed _ d _ _ _ _ _ _ _ | queued _ d _ _ _ _ _ _ _ => exact forall_update ha (ha d.segment)
  | discarded _ _ _ _ _ | rigReset => exact fun g => ha g
  | defined g b l _ hl _ => exact forall_update ha fun _ => hl.2
  | freed g _ _ => exact forall_update ha nofun
  | powerOn => exact fun _ => nofun
  | played _ _ | looped _ _ _ _ _ _ _ | paused _ | started | stopped | promoted _ _ _ _ _ _ _ _ => exact ha

theorem reelMoves_keep_ends (h : ReelMoves s t) (hs : ∀ g, endsWithin (s.segment g)) : ∀ g, endsWithin (t.segment g) := by
  change ∀ g, endsWithin (s.reel.segment g) at hs
  change ∀ g, endsWithin (t.reel.segment g)
  unfold ReelMoves at h
  generalize t.reel = b at h ⊢
  induction h with
  | refl => exact hs
  | tail _ hmove ih => exact reelMove_keeps_ends hmove ih

/-! ## Sample Memory (R115) -/

/-- Sample Memory with the transfers under way. -/
def State.stored (s : State) : List (Nat × Half) × Option Transfer × Option Transfer := (s.memory, s.moving, s.queued)

/-- The canonical form of Sample Memory, with transfers that stay within it. -/
def storedGood (x : List (Nat × Half) × Option Transfer × Option Transfer) : Prop :=
  Memory.wf x.1 ∧ (∀ y, x.2.1 = some y → y.within) ∧ ∀ y, x.2.2 = some y → y.within

theorem memoryLaw_iff : s.memoryLaw ↔ storedGood s.stored ∧ ∀ g, endsWithin (s.segment g) := by
  simp only [State.memoryLaw, storedGood, State.stored, endsWithin, and_assoc]

/-- A request changes Sample Memory and the transfers only where it resets the part or begins a transfer. -/
theorem leaves_stored (h : Leaves s t) : t = s.rigReset ∨ t.stored = s.stored ∨
    ∃ x : Transfer, (endsWithin (s.segment x.segment) → x.within) ∧ t = s.beginTransfer x := by
  have hsame (hm : t.memory = s.memory) (hv : t.moving = s.moving) (hq : t.queued = s.queued) : t.stored = s.stored := by
    rw [State.stored, State.stored, hm, hv, hq]
  cases h with
  | reset => exact .inl rfl
  | transfer x hx hg hr hw =>
    refine .inr (.inr ⟨x, fun hend => ⟨?_, hw⟩, rfl⟩)
    have hseg := hend hg
    have hrange : x.offset + x.count ≤ (s.segment x.segment).length := by
      simp only [rangeGood, Bool.and_eq_true, decide_eq_true_eq] at hr
      exact hr.2
    omega
  | counted => exact .inr (.inl (by rw [judgedForStop_frame]; rfl))
  | stop _ _ _ =>
    have h : s.judgedForStop.stopRun.stored = s.judgedForStop.stored := by simp [State.stored, State.stopRun]
    exact .inr (.inl (h.trans (by rw [judgedForStop_frame]; rfl)))
  | live l => exact .inr (.inl (by rw [liveUpdated_frame]; rfl))
  | stepMark => exact .inr (.inl (by rw [marked_frame]; rfl))
  | channel c g _ =>
    have h : (s.fieldsWritten c g).stored = s.stored := by rw [fieldsWritten_frame]; rfl
    refine .inr (.inl ?_)
    split
    · exact h
    · exact Eq.trans (by simp [State.stored]) h
  | force c v =>
    have h : (s.forcedWritten c v).stored = s.stored := by rw [forcedWritten_frame]; rfl
    exact .inr (.inl (Eq.trans (by simp [State.stored]) h))
  | release k => exact .inr (.inl (by rw [release_eq_safeRecord]; simp [State.stored]))
  | queueReplay n d _ _ _ => exact .inr (.inl (by rw [enqueue_frame]; rfl))
  | stopReplay n =>
    have h : (s.discardAll n).stored = s.stored := by rw [discardAll_frame]; rfl
    exact .inr (.inl (Eq.trans (by simp [State.stored]) h))
  | clearNotices p w => exact .inr (.inl (by rw [recoveries_frame]; simp [State.stored]))
  | _ => exact .inr (.inl (hsame (by simp) (by simp) (by simp)))

theorem storedGood_beginTransfer {x : Transfer} (hs : storedGood s.stored) (hx : x.within) :
    storedGood (s.beginTransfer x).stored := by
  obtain ⟨hwf, hmoving, hqueued⟩ := hs
  unfold State.beginTransfer
  split
  · exact ⟨hwf, fun y hy => by cases hy; exact hx, hqueued⟩
  · exact ⟨hwf, hmoving, fun y hy => by cases hy; exact hx⟩

theorem storedGood_rigReset (hs : storedGood s.stored) : storedGood s.rigReset.stored := by
  obtain ⟨hwf, hmoving, -⟩ := hs
  refine ⟨?_, nofun, nofun⟩
  show Memory.wf s.memoryAtReset
  unfold State.memoryAtReset
  split
  next x hx =>
    split
    next hw =>
      obtain ⟨hend, hlen⟩ := hmoving x hx
      have hlen := hlen hw
      refine memWriteRun_wf _ hwf ?_
      rw [List.length_take]
      omega
    · exact hwf
  · exact hwf

theorem storedGood_transferMemory {x : Transfer} (hs : storedGood s.stored) (hx : s.moving = some x) :
    Memory.wf (transferMemory s x) := by
  obtain ⟨hwf, hmoving, -⟩ := hs
  unfold transferMemory
  split
  next hw =>
    obtain ⟨hend, hlen⟩ := hmoving x hx
    exact memWriteRun_wf _ hwf (by rw [hlen hw]; exact hend)
  · exact hwf

theorem kept_memoryLaw : Kept State.memoryLaw where
  pending _ _ h := h
  port s p f _ h := by simpa [State.memoryLaw, State.segment] using h
  request i s h := by
    obtain ⟨hstored, hends⟩ := memoryLaw_iff.1 h
    refine memoryLaw_iff.2 ⟨?_, reelMoves_keep_ends (reelMoves_leaves (handle_leaves s i)) hends⟩
    obtain heq | heq | ⟨x, hx, heq⟩ := leaves_stored (handle_leaves s i)
    · rw [heq]; exact storedGood_rigReset hstored
    · rw [heq]; exact hstored
    · rw [heq]; exact storedGood_beginTransfer hstored (hx (hends x.segment))
  transfer s x hx h := by
    obtain ⟨hstored, hends⟩ := memoryLaw_iff.1 h
    exact memoryLaw_iff.2 ⟨⟨storedGood_transferMemory hstored hx, hstored.2.2, nofun⟩, hends⟩
  perform s e h := by
    obtain ⟨hstored, hends⟩ := memoryLaw_iff.1 h
    refine memoryLaw_iff.2 ⟨?_, reelMoves_keep_ends (reelMoves_perform e) hends⟩
    have heq : (s.perform e).stored = s.stored := by cases e <;> simp [State.stored, State.perform]
    rw [heq]; exact hstored
  settle s h := by simpa [State.memoryLaw, State.segment] using h
  due _ _ h := h
  pins _ _ h := h
  count s b h := by simpa [State.memoryLaw, State.segment] using h
  tick s h := by
    obtain ⟨hstored, hends⟩ := memoryLaw_iff.1 h
    refine memoryLaw_iff.2 ⟨?_, reelMoves_keep_ends reelMoves_makeTick hends⟩
    have heq : s.makeTick.stored = s.stored := by simp [State.stored, State.makeTick]
    rw [heq]; exact hstored
  voltage s i v h := by simpa [State.memoryLaw, State.segment] using h
  powerOn s h :=
    memoryLaw_iff.2 ⟨⟨reset_memory_wf, nofun, nofun⟩,
      reelMoves_keep_ends (reelMoves_of_move .powerOn powerOn_reel) (memoryLaw_iff.1 h).2⟩
  rigReset s h := by
    obtain ⟨hstored, hends⟩ := memoryLaw_iff.1 h
    exact memoryLaw_iff.2 ⟨storedGood_rigReset hstored, reelMoves_keep_ends (reelMoves_of_move .rigReset rigReset_reel) hends⟩

theorem step_keeps_memoryLaw (hs : s.memoryLaw) (ht : step s = .next t) : t.memoryLaw := kept_memoryLaw.step hs ht

/-- Settles O56: a write fills only addresses within its segment, which lies within Sample Memory, and a defined segment
meets no other. -/
theorem stepKeepsSampleMemory : Obligations.StepKeepsSampleMemory :=
  ⟨fun _ _ => step_keeps_memoryLaw, fun _ _ => step_keeps_segmentLaw⟩

/-- Settles O57: each move of the engines changes a count by as much as the descriptors that name its segment. -/
theorem stepKeepsReferenceCounts : Obligations.StepKeepsReferenceCounts := fun _ _ => step_keeps_refLaw

end Sys2Proof.Machine
end

section
/-! The queues of the ports (R190, R194) and the capture queues (R157), kept by every step. -/

namespace Sys2Proof.Machine

variable {s t : State}

/-! ## The inbound queues and the response queues (R190, R194) -/

/-- The inbound queue and the response queue of a port hold at most 8 (R190, R194). -/
def portGood (q : PortState) : Prop := q.inbound.length ≤ 8 ∧ q.responses.length ≤ 8

theorem queueLaw_iff : s.queueLaw ↔ ∀ p, portGood (s.port p) := by
  refine ⟨fun ⟨hm, hb⟩ p => ?_, fun h => ⟨h .M, h .B⟩⟩
  cases p
  · exact hm
  · exact hb

theorem portGood_of_lane {x y : PortState} (h : PortState.lane x = PortState.lane y) (hy : portGood y) : portGood x := by
  rw [portGood, inbound_of_lane h, responses_of_lane h]
  exact hy

theorem queueLaw_of_lane (h : ∀ p, PortState.lane (t.port p) = PortState.lane (s.port p)) (hs : s.queueLaw) :
    t.queueLaw :=
  queueLaw_iff.2 fun p => portGood_of_lane (h p) (queueLaw_iff.1 hs p)

/-- A change of one port that keeps its queues within their limits. -/
theorem queueLaw_updPort {p : Port} {f : PortState → PortState} (hf : portGood (s.port p) → portGood (f (s.port p)))
    (hs : s.queueLaw) : (s.updPort p f).queueLaw := by
  obtain ⟨hm, hb⟩ := hs
  cases p
  · exact ⟨hf hm, hb⟩
  · exact ⟨hm, hf hb⟩

theorem portGood_receive {q : PortState} (hq : portGood q) (w : Word) : portGood (q.receive w) := by
  obtain ⟨hi, hr⟩ := hq
  unfold PortState.receive
  split
  · exact ⟨by simpa using hi, hr⟩
  · split
    · split
      · exact ⟨hi, hr⟩
      · split
        · exact ⟨hi, hr⟩
        · split <;> exact ⟨hi, hr⟩
    · split
      · exact ⟨hi, hr⟩
      · split
        next h =>
          have hroom : q.inbound.length < 8 := by simpa [PortState.hasRoom] using h.2
          exact ⟨by rw [List.length_append]; exact hroom, hr⟩
        · exact ⟨hi, hr⟩

theorem portGood_send {q : PortState} (hq : portGood q) : portGood q.send := by
  obtain ⟨hi, hr⟩ := hq
  unfold PortState.send
  split
  · exact ⟨hi, hr⟩
  · dsimp only
    split
    · exact ⟨hi, hr⟩
    · exact ⟨hi, by rw [List.length_drop]; omega⟩

/-- A response takes a place that is free (R191). -/
theorem portGood_place {q : PortState} (hi : q.inbound.length ≤ 8) (hr : q.responses.length < 8) (k g : Byte)
    (r : Option Reply) : portGood (q.place k g r) :=
  ⟨hi, by rw [PortState.place, List.length_append]; exact hr⟩

theorem portGood_fresh : portGood {} := ⟨Nat.zero_le _, Nat.zero_le _⟩

theorem rigReset_queueLaw : s.rigReset.queueLaw := queueLaw_iff.2 fun p => by rw [rigReset_port]; exact portGood_fresh

/-- The state a handled request leaves has either been reset or has the ports' own fields unchanged, and it is reset
where no response is formed. -/
theorem deliver_queueLaw {p : Port} {k g : Byte} {x : Handled} (hx : Leaves s x.state) (hs : s.queueLaw)
    (hp : (s.port p).responses.length < 8) : (deliver p k g x).queueLaw := by
  have hstate : x.state.queueLaw ∧ (x.state.port p).responses.length < 8 := by
    obtain h | h := leaves_lane hx
    · rw [h, rigReset_port]; exact ⟨rigReset_queueLaw, by decide⟩
    · exact ⟨queueLaw_of_lane h hs, by rw [responses_of_lane (h p)]; exact hp⟩
  obtain ⟨hlaw, hroom⟩ := hstate
  cases x with
  | answered u r => exact queueLaw_updPort (fun h => portGood_place h.1 hroom _ _ _) hlaw
  | begun u => exact queueLaw_updPort (fun h => portGood_place h.1 hroom _ _ _) hlaw
  | resetPart u => exact hlaw

theorem carried_queueLaw : Carried State.queueLaw where
  receive _ _ w h := queueLaw_updPort (fun hq => portGood_receive hq w) h
  send _ _ h := queueLaw_updPort portGood_send h
  outWord _ _ _ h := queueLaw_updPort id h
  taken s p q rest hq h := queueLaw_updPort (fun hg => by
    obtain ⟨hi, hr⟩ := hg
    rw [hq, List.length_cons] at hi
    exact ⟨by show rest.length ≤ 8; omega, hr⟩) h
  answered s p k g x hfree h := by
    have hroom : (s.port p).responses.length < 8 ∧ s.transferring p = false := by simpa [State.portFree] using hfree
    exact deliver_queueLaw (judged_leaves s x) h hroom.1
  ended s x _ h := by
    refine queueLaw_updPort (fun hq => ⟨hq.1, ?_⟩) h
    rw [PortState.formReserved, List.length_map]
    exact hq.2
  perform s e h := by
    refine queueLaw_of_lane (lane_of_ports ?_ ?_) h <;> cases e <;> simp [State.perform]
  settle _ h := queueLaw_of_lane (lane_of_ports (by simp) (by simp)) h
  due _ _ h := h
  pins _ _ h := h
  count _ _ h := queueLaw_of_lane (lane_of_ports (by simp) (by simp)) h
  tick _ h := queueLaw_of_lane (lane_of_ports (by simp) (by simp)) h
  voltage _ _ _ h := queueLaw_of_lane (lane_of_ports (by simp) (by simp)) h
  powerOn _ _ := ⟨portGood_fresh, portGood_fresh⟩
  rigReset _ _ := rigReset_queueLaw

theorem step_keeps_queueLaw (hs : s.queueLaw) (ht : step s = .next t) : t.queueLaw :=
  carried_queueLaw.step (fun _ _ h => h) hs ht

/-! ## The capture queues (R157) -/

/-- The record behind is no earlier (R157). -/
def notLater (x y : CaptureRecord) : Prop := timeSince y.stamp.time x.stamp.time ≤ 2 ^ 47

theorem captureOrder_iff {l : List CaptureRecord} : captureOrder l ↔ l.length ≤ 128 ∧ l.IsChain notLater := by
  rw [List.isChain_iff_forall_rel_of_append_cons_cons]
  exact and_congr_right' ⟨fun h x y a b hl => h a x y b hl, fun h a x y b hl => h hl⟩

theorem captureOrder_nil : captureOrder [] := captureOrder_iff.2 ⟨Nat.zero_le _, .nil⟩

theorem captureOrder_drop {l : List CaptureRecord} (h : captureOrder l) (n : Nat) : captureOrder (l.drop n) := by
  obtain ⟨hl, hc⟩ := captureOrder_iff.1 h
  exact captureOrder_iff.2 ⟨(l.length_drop ▸ Nat.sub_le _ _).trans hl, hc.drop n⟩

/-- A record is no earlier than one that is not later than it. -/
theorem notLater_of_not_laterBy {r x : CaptureRecord} (h : r.laterBy x = false) : notLater x r := by
  have hlater : ¬(1 ≤ timeSince x.stamp.time r.stamp.time ∧ timeSince x.stamp.time r.stamp.time ≤ 2 ^ 47) := by
    simpa [CaptureRecord.laterBy, laterThan] using h
  simp only [timeSince, notLater] at hlater ⊢
  generalize x.stamp.time = a at *
  generalize r.stamp.time = b at *
  bv_omega

theorem notLater_of_laterBy {r x : CaptureRecord} (h : r.laterBy x = true) : notLater r x := by
  simp only [CaptureRecord.laterBy, laterThan, Bool.and_eq_true, decide_eq_true_eq] at h
  exact h.2

/-- A record placed keeps the order. -/
theorem placeRecord_isChain {l : List CaptureRecord} {r : CaptureRecord} (h : l.IsChain notLater) :
    (placeRecord r l).IsChain notLater := by
  have hparts : (l.rdropWhile r.laterBy ++ l.rtakeWhile r.laterBy).IsChain notLater := by
    rwa [List.rdropWhile_append_rtakeWhile]
  obtain ⟨hbefore, hbehind, -⟩ := List.isChain_append.1 hparts
  rw [placeRecord_eq, List.isChain_append]
  refine ⟨hbefore, ?_, fun x hx y hy => ?_⟩
  · rw [List.isChain_cons]
    exact ⟨fun y hy => notLater_of_laterBy (List.mem_rtakeWhile_imp (p := r.laterBy) (List.mem_of_mem_head? hy)), hbehind⟩
  · obtain rfl : r = y := by simpa using hy
    obtain ⟨hne, rfl⟩ := List.mem_getLast?_eq_getLast hx
    exact notLater_of_not_laterBy (Bool.eq_false_of_not_eq_true (List.rdropWhile_last_not _ l hne))

theorem offer_captureOrder {q : PortState} (h : captureOrder q.captures) (r : CaptureRecord) :
    captureOrder (q.offer r).captures := by
  by_cases hroom : q.captures.length < 128
  · rw [PortState.offer_of_room hroom]
    exact captureOrder_iff.2 ⟨by rw [placeRecord_length]; exact hroom, placeRecord_isChain (captureOrder_iff.1 h).2⟩
  · rw [PortState.offer_of_full (not_lt.1 hroom)]
    exact h

theorem captureLaw_iff : s.captureLaw ↔ ∀ p, captureOrder (s.port p).captures := by
  refine ⟨fun ⟨hm, hb⟩ p => ?_, fun h => ⟨h .M, h .B⟩⟩
  cases p
  · exact hm
  · exact hb

theorem captureLaw_of_captures (h : ∀ p, (t.port p).captures = (s.port p).captures) (hs : s.captureLaw) :
    t.captureLaw :=
  captureLaw_iff.2 fun p => by rw [h p]; exact captureLaw_iff.1 hs p

theorem captureLaw_updPort {p : Port} {f : PortState → PortState}
    (hf : captureOrder (s.port p).captures → captureOrder (f (s.port p)).captures) (hs : s.captureLaw) :
    (s.updPort p f).captureLaw := by
  obtain ⟨hm, hb⟩ := hs
  cases p
  · exact ⟨hf hm, hb⟩
  · exact ⟨hm, hf hb⟩

theorem captureLaw_of_steady (h : t.steady = s.steady) : s.captureLaw → t.captureLaw :=
  captureLaw_of_captures (captures_of_steady h)

/-- The capture queues of the ports. -/
def State.captures (s : State) : Port → List CaptureRecord := fun p => (s.port p).captures

theorem captures_of_ports (hm : t.portM = s.portM) (hb : t.portB = s.portB) : t.captures = s.captures := by
  funext p
  cases p
  · exact congrArg PortState.captures hm
  · exact congrArg PortState.captures hb

theorem captureLaw_congr (h : t.captures = s.captures) : s.captureLaw → t.captureLaw :=
  captureLaw_of_captures (congrFun h)

theorem captures_congr_of_steady (h : t.steady = s.steady) : t.captures = s.captures := funext (captures_of_steady h)

theorem updPort_captures {p : Port} {f : PortState → PortState} (hf : ∀ q, (f q).captures = q.captures) :
    (s.updPort p f).captures = s.captures := by
  funext q
  cases p <;> cases q <;> simp [State.captures, State.updPort, State.port, hf]

theorem enterSafe_captures (why : SafeCause) : (s.enterSafe why).captures = s.captures := by
  by_cases h : s.run.mode = .run
  · have hentry : (s.safeEntry why).steady = s.steady := by simp [State.safeEntry]
    have hhalt : (s.safeEntry why).haltGenerators.captures = (s.safeEntry why).captures :=
      captures_of_ports (by simp) (by simp)
    have hpause (u : State) : u.pauseEngines.captures = u.captures := captures_of_ports (by simp) (by simp)
    rw [enterSafe_eq why h, hpause, captures_congr_of_steady (steady_safeFaults _), hhalt,
      captures_congr_of_steady hentry]
  · rw [enterSafe_of_not_run why h]

theorem makeTick_captures : s.makeTick.captures = s.captures := by
  have hlines (u : State) : u.sampleLimits.tickMonitor.sampleSafeLine.captures = u.captures :=
    captures_of_ports (by simp) (by simp)
  have hgrid (u : State) : (u.sampleInputs.countGenerators.addDue (clockEvents u.sampleInputs.countGenerators.rigTime).2).captures =
      u.captures := captures_of_ports (by simp) (by simp)
  have hclocked : s.clocked.evaluatePulses.captures = s.captures :=
    captures_of_ports (by simp [State.clocked]) (by simp [State.clocked])
  rw [makeTick_eq, captures_congr_of_steady (steady_settle _), State.tickSampled, hlines, State.tickGridded, hgrid,
    captures_congr_of_steady (steady_tickFired s), hclocked]

theorem edgeRecorded_captureLaw {i : Fin 16} {l : Bool} {x : Stamp} (hs : s.captureLaw) :
    (s.edgeRecorded i l x).captureLaw := by
  have hoffer (u : State) (d : PortSet) (r : CaptureRecord) (hu : u.captureLaw) : (u.offer d r).captureLaw := by
    obtain ⟨hm, hb⟩ := hu
    constructor
    · show captureOrder (if d.m then u.portM.offer r else u.portM).captures
      split
      · exact offer_captureOrder hm r
      · exact hm
    · show captureOrder (if d.b then u.portB.offer r else u.portB).captures
      split
      · exact offer_captureOrder hb r
      · exact hb
  have hcount (u : State) (b : Bool) : (u.countEdge i b).captures = u.captures := captures_of_ports (by simp) (by simp)
  unfold State.edgeRecorded
  dsimp only
  split
  · exact captureLaw_congr (hcount _ _) (hoffer _ _ _ hs)
  · exact captureLaw_congr (hcount _ _) hs

theorem takeCaptureReport_captureLaw (i : Fin 16) (hs : s.captureLaw) : (s.takeCaptureReport i).captureLaw := by
  obtain h | ⟨l, st, -, -, ⟨-, h⟩ | ⟨-, h⟩⟩ := takeCaptureReport_cases s i
  · rw [h]; exact hs
  · rw [h]; exact edgeRecorded_captureLaw hs
  · rw [h]; exact captureLaw_congr (enterSafe_captures _) (edgeRecorded_captureLaw hs)

theorem takeSafeLine_captures : s.takeSafeLine.captures = s.captures := by
  unfold State.takeSafeLine
  dsimp only
  split_ifs
  · exact enterSafe_captures _
  · rfl
  · rfl

theorem raiseBoth_captures (x : Notice) : (s.raiseBoth x).captures = s.captures := by
  funext p
  cases p <;> rfl

theorem takeDeadline_captures : s.takeDeadline.captures = s.captures := by
  unfold State.takeDeadline
  dsimp only
  split_ifs
  · exact (enterSafe_captures _).trans (raiseBoth_captures _)
  · exact raiseBoth_captures _
  · rfl

theorem takeDriverTrip_captures (c : Fin 24) : (s.takeDriverTrip c).captures = s.captures := by
  unfold State.takeDriverTrip
  split
  · exact raiseBoth_captures _
  · rfl

theorem perform_captureLaw (e : Event) (hs : s.captureLaw) : (s.perform e).captureLaw := by
  cases e with
  | captureReport i => exact takeCaptureReport_captureLaw i hs
  | safeLine => exact captureLaw_congr takeSafeLine_captures hs
  | deadline => exact captureLaw_congr takeDeadline_captures hs
  | driverTrip c => exact captureLaw_congr (takeDriverTrip_captures c) hs
  | replayAdvance _ | moveComplete _ _ | moveFail _ _ | atTime _ | onCapture _ | durationEnd _ =>
    exact captureLaw_of_steady (by simp [State.perform]) hs
  | _ => exact captureLaw_congr (captures_of_ports (by simp [State.perform]) (by simp [State.perform])) hs

theorem rigReset_captureLaw : s.rigReset.captureLaw := ⟨captureOrder_nil, captureOrder_nil⟩

theorem leaves_captureLaw (h : Leaves s t) (hs : s.captureLaw) : t.captureLaw := by
  cases h with
  | reset => exact rigReset_captureLaw
  | takeCaptures p n => exact captureLaw_updPort (fun hq => captureOrder_drop hq n) hs
  | enterSafe _ =>
    exact captureLaw_congr ((captures_congr_of_steady (steady_settle _)).trans (enterSafe_captures .request)) hs
  | counted => exact captureLaw_of_steady (steady_judgedForStop s) hs
  | stop _ _ _ =>
    have h : s.judgedForStop.stopRun.captures = s.judgedForStop.captures :=
      captures_of_ports (by simp [State.stopRun]) (by simp [State.stopRun])
    exact captureLaw_congr (h.trans (captures_congr_of_steady (steady_judgedForStop s))) hs
  | live l => exact captureLaw_congr (by rw [liveUpdated_frame]; rfl) hs
  | stepMark => exact captureLaw_congr (by rw [marked_frame]; rfl) hs
  | channel c g _ =>
    have h : (s.fieldsWritten c g).captures = s.captures := by rw [fieldsWritten_frame]; rfl
    refine captureLaw_congr ?_ hs
    split
    · exact h
    · exact (captures_of_ports (by simp) (by simp)).trans h
  | force c v =>
    have h : (s.forcedWritten c v).captures = s.captures := by rw [forcedWritten_frame]; rfl
    exact captureLaw_congr ((captures_of_ports (by simp) (by simp)).trans h) hs
  | release k => exact captureLaw_of_steady (by simp) hs
  | transfer x _ _ _ _ => exact captureLaw_congr (by rw [beginTransfer_frame]; rfl) hs
  | queueReplay n d _ _ _ => exact captureLaw_congr (by rw [enqueue_frame]; rfl) hs
  | stopReplay n =>
    have h : (s.discardAll n).captures = s.captures := by rw [discardAll_frame]; rfl
    exact captureLaw_congr ((captures_congr_of_steady (by simp)).trans h) hs
  | clearNotices p w =>
    have h (u : State) : (u.recoveries p w).captures = u.captures := by rw [recoveries_frame]; rfl
    exact captureLaw_congr ((h _).trans (updPort_captures fun _ => rfl)) hs
  | enables p w => exact captureLaw_congr (updPort_captures fun _ => rfl) hs
  | same | start _ | resume _ _ | deadline _ _ _ | speed _ _ _ | angleBase _ _ | active _ _ _ | staged _ _ _ | timing _
  | arm _ _ _ _ _ | clear _ _ | define _ _ _ _ _ _ | free _ _ _ | setReplay _ _ _ _ _ | setCapture _ _ _ _ =>
    exact captureLaw_congr (captures_of_ports (by simp) (by simp)) hs

theorem kept_captureLaw : Kept State.captureLaw where
  pending _ _ h := h
  port _ _ _ hf h := captureLaw_congr (updPort_captures hf) h
  request i s h := leaves_captureLaw (handle_leaves s i) h
  transfer _ _ _ h := h
  perform _ e h := perform_captureLaw e h
  settle _ h := captureLaw_of_steady (by simp) h
  due _ _ h := h
  pins _ _ h := h
  count _ _ h := captureLaw_congr (captures_of_ports (by simp) (by simp)) h
  tick _ h := captureLaw_congr makeTick_captures h
  voltage _ _ _ h := captureLaw_congr (captures_of_ports (by simp) (by simp)) h
  powerOn _ _ := ⟨captureOrder_nil, captureOrder_nil⟩
  rigReset _ _ := rigReset_captureLaw

/-- Settles O58: the engines by their moves, the capture queues by the place a record takes, and the queues of the ports
by the room that each addition finds. -/
theorem stepKeepsQueues : Obligations.StepKeepsQueues :=
  ⟨fun _ _ => step_keeps_engineLaw, fun _ _ => step_keeps_playLaw, fun _ _ => kept_captureLaw.step,
    fun _ _ => step_keeps_queueLaw⟩

end Sys2Proof.Machine
end

section
/-! The law of the fault records at rest and of the relay wait list (R91, R93, R95), kept by every step. While a pass goes
through the list, the records it has still to judge, or has kept, stand in a list of their own. -/

namespace Sys2Proof.Machine

variable {s t u : State} {x : List (Fin 64)} {k : Fin 64}

/-! ## What the operations leave of the records -/

theorem fault_of_faults (h : t.faults = s.faults) (k : Fin 64) : t.fault k = s.fault k := by
  rw [State.fault, State.fault, h]

@[simp] theorem raiseSet_fault (l : PortSet) (n : Notice) : (s.raiseSet l n).fault k = s.fault k :=
  fault_of_faults (by simp) k

@[simp] theorem showFree_fault (c : Fin 24) : (s.showFree c).fault k = s.fault k := fault_of_faults (by simp) k

theorem updFault_fault (f : FaultRecord → FaultRecord) (j : Fin 64) :
    (s.updFault k f).fault j = if j = k then f (s.fault k) else s.fault j := by
  by_cases h : j = k
  · subst h; simp
  · simp [h, Ne.symm h]

/-- Entry to ACTIVE (R70, R94, R109). -/
theorem enterActive_fault (j : Fin 64) :
    (s.enterActive k).fault j = if j = k then s.activeNow k else s.fault j := by
  have h : (s.enterActive k).fault j = (s.updFault k fun _ => s.activeNow k).fault j := by
    unfold State.enterActive
    dsimp only
    split
    · rw [showFree_fault, raiseSet_fault, updFault_fault, updFault_fault]; rfl
    · rw [raiseSet_fault, updFault_fault, updFault_fault]; rfl
  rw [h, updFault_fault]

theorem enterDone_fault (j : Fin 64) : (s.enterDone k).fault j =
    if j = k then { s.fault k with state := .done, frozen := none, seq := none } else s.fault j := by
  rw [State.enterDone, raiseSet_fault, updFault_fault]

theorem enterFailed_fault (why : FailReason) (j : Fin 64) : (s.enterFailed k why).fault j =
    if j = k then { s.fault k with state := .failed, failReason := some why, seq := none } else s.fault j := by
  rw [State.enterFailed, raiseSet_fault, updFault_fault]

/-- A relay record joins the wait list (R93, R95). -/
def State.joined (s : State) (k : Fin 64) : State :=
  { s.updFault k fun r => { r with state := .waiting, fresh := true } with
    joining := insertIndex k s.joining, examineDue := true }

/-- The cases of a trigger that fires (R78, R84, R93). -/
theorem fireFuel_succ (n : Nat) : fireFuel (n + 1) s k =
    if (s.fault k).state = .armed then
      if (s.fault k).kind.electronic then ((s.enterActive k).listeners k .start).foldl (fireFuel n) (s.enterActive k)
      else if s.outOfService (s.fault k) then s.enterFailed k .outOfService
      else s.joined k
    else s := by
  rw [fireFuel]
  rfl

/-- Only ARMED records change where a trigger fires. -/
theorem fireFuel_fault_of_not_armed (n : Nat) : ∀ {s : State} {k j : Fin 64}, (s.fault j).state ≠ .armed →
    (fireFuel n s k).fault j = s.fault j := by
  induction n with
  | zero => exact fun _ => rfl
  | succ n ih =>
    intro s k j hj
    rw [fireFuel_succ]
    split
    next harmed =>
      have hne : j ≠ k := fun h => hj (h ▸ harmed)
      split
      · have hfold (l : List (Fin 64)) : ∀ u : State, (u.fault j).state ≠ .armed →
            (l.foldl (fireFuel n) u).fault j = u.fault j := by
          induction l with
          | nil => exact fun _ _ => rfl
          | cons i l ihl =>
            intro u hu
            have hstep := ih (k := i) hu
            rw [List.foldl_cons, ihl _ (by rw [hstep]; exact hu), hstep]
        have hactive : (s.enterActive k).fault j = s.fault j := by rw [enterActive_fault, if_neg hne]
        rw [hfold _ _ (by rw [hactive]; exact hj), hactive]
      · split
        · rw [enterFailed_fault, if_neg hne]
        · show (s.updFault k _).fault j = s.fault j
          rw [updFault_fault, if_neg hne]
    · rfl

theorem fire_fault_of_not_armed {j : Fin 64} (hj : (s.fault j).state ≠ .armed) : (s.fire k).fault j = s.fault j :=
  fireFuel_fault_of_not_armed 65 hj

/-- A list of triggers that fire in turn. -/
theorem fireAll_fault_of_not_armed {j : Fin 64} (l : List (Fin 64)) :
    ∀ {s : State}, (s.fault j).state ≠ .armed → (l.foldl State.fire s).fault j = s.fault j := by
  induction l with
  | nil => exact fun _ => rfl
  | cons i l ih =>
    intro s hj
    have hstep := fire_fault_of_not_armed (k := i) hj
    rw [List.foldl_cons, ih (by rw [hstep]; exact hj), hstep]

theorem produce_fault_of_not_armed {j : Fin 64} {e : FaultEvent} (hj : (s.fault j).state ≠ .armed) :
    (s.produce k e).fault j = s.fault j := fireAll_fault_of_not_armed _ hj

/-- Outside RUN no record listens (R83). -/
theorem produce_of_not_run {e : FaultEvent} (h : s.run.mode ≠ .run) : s.produce k e = s := by
  rw [State.produce, State.listeners, if_neg h]
  rfl

/-! ## The law -/

/-- The law of the records with the list `x` of those that a pass has taken off the wait list and not yet put back. -/
structure Booked (x : List (Fin 64)) (s : State) : Prop where
  rest : s.run.mode = .config → ∀ k, (s.fault k).state.passing = false
  nodup : (x ++ s.wholeList).Nodup
  sorted : s.joining.Pairwise (· < ·)
  listed : ∀ k, k ∈ x ++ s.wholeList ↔ (s.fault k).state = .waiting
  seq : ∀ k, (s.fault k).seq.isSome = true → (s.fault k).state = .starting ∨ (s.fault k).state = .stopping

theorem recordLaw_iff : s.recordLaw ↔ Booked [] s :=
  ⟨fun ⟨hrest, hnodup, hsorted, hlisted, hseq⟩ => ⟨hrest, hnodup, hsorted, hlisted, hseq⟩,
    fun ⟨hrest, hnodup, hsorted, hlisted, hseq⟩ => ⟨hrest, hnodup, hsorted, hlisted, hseq⟩⟩

/-- What the law reads of the records and the list. -/
def State.ledger (s : State) : List (Fin 64) × List (Fin 64) × (Fin 64 → FaultState × Bool) :=
  (s.waitList, s.joining, fun k => ((s.fault k).state, (s.fault k).seq.isSome))

/-- A change of nothing that the law reads; CONFIG is not entered. -/
theorem Booked.of_ledger (h : Booked x s) (hl : t.ledger = s.ledger) (hm : t.run.mode = .config → s.run.mode = .config) :
    Booked x t := by
  simp only [State.ledger, Prod.mk.injEq] at hl
  obtain ⟨hwait, hjoin, hrec⟩ := hl
  have hstate (k : Fin 64) : (t.fault k).state = (s.fault k).state := congrArg Prod.fst (congrFun hrec k)
  have hseq (k : Fin 64) : (t.fault k).seq.isSome = (s.fault k).seq.isSome := congrArg Prod.snd (congrFun hrec k)
  have hwhole : t.wholeList = s.wholeList := by rw [State.wholeList, State.wholeList, hwait, hjoin]
  refine ⟨fun hc k => ?_, hwhole ▸ h.nodup, hjoin ▸ h.sorted, fun k => ?_, fun k hk => ?_⟩
  · rw [hstate]; exact h.rest (hm hc) k
  · rw [hwhole, hstate]; exact h.listed k
  · rw [hstate]; rw [hseq] at hk; exact h.seq k hk

theorem ledger_of_fields (hf : t.faults = s.faults) (hw : t.waitList = s.waitList) (hj : t.joining = s.joining) :
    t.ledger = s.ledger := by
  have h (k : Fin 64) : t.fault k = s.fault k := by rw [State.fault, State.fault, hf]
  simp only [State.ledger, hw, hj, h]

theorem ledger_of_records (hw : t.waitList = s.waitList) (hj : t.joining = s.joining)
    (hr : ∀ k, (t.fault k).state = (s.fault k).state ∧ (t.fault k).seq = (s.fault k).seq) : t.ledger = s.ledger := by
  simp only [State.ledger, hw, hj, (hr _).1, (hr _).2]

theorem Booked.of_fields (h : Booked x s) (hf : t.faults = s.faults) (hw : t.waitList = s.waitList)
    (hj : t.joining = s.joining) (hm : t.run = s.run) : Booked x t :=
  h.of_ledger (ledger_of_fields hf hw hj) (by rw [hm]; exact id)

/-- A change of one record that neither enters nor leaves WAITING. -/
theorem Booked.updFault (h : Booked x s) {f : FaultRecord → FaultRecord}
    (hw : (f (s.fault k)).state = .waiting ↔ (s.fault k).state = .waiting)
    (hp : (f (s.fault k)).state.passing = true → s.run.mode ≠ .config)
    (hq : (f (s.fault k)).seq.isSome = true → (f (s.fault k)).state = .starting ∨ (f (s.fault k)).state = .stopping) :
    Booked x (s.updFault k f) := by
  refine ⟨fun hc j => ?_, h.nodup, h.sorted, fun j => ?_, fun j hj => ?_⟩
  · rw [updFault_fault]
    split
    · exact Bool.eq_false_iff.2 fun hpass => hp hpass hc
    · exact h.rest hc j
  · rw [updFault_fault]
    split
    next heq => subst heq; rw [hw]; exact h.listed _
    · exact h.listed j
  · rw [updFault_fault] at hj ⊢
    split
    next heq => rw [if_pos heq] at hj; exact hq hj
    next heq => rw [if_neg heq] at hj; exact h.seq j hj

theorem passing_mode (h : Booked x s) (hk : (s.fault k).state.passing = true) : s.run.mode ≠ .config :=
  fun hc => absurd (h.rest hc k) (by simp [hk])

/-! ## Firing (R78, R84, R93, R95) -/

theorem raiseSet_ledger (l : PortSet) (n : Notice) : (s.raiseSet l n).ledger = s.ledger :=
  ledger_of_fields (by simp) (by simp) (by simp)

theorem Booked.raiseSet (h : Booked x s) (l : PortSet) (n : Notice) : Booked x (s.raiseSet l n) :=
  h.of_fields (by simp) (by simp) (by simp) (by simp)

theorem Booked.showFree (h : Booked x s) (c : Fin 24) : Booked x (s.showFree c) :=
  h.of_fields (by simp) (by simp) (by simp) (by simp)

theorem Booked.enterDone (h : Booked x s) (hk : (s.fault k).state ≠ .waiting) : Booked x (s.enterDone k) :=
  (h.updFault (by simpa using hk) (by simp [FaultState.passing]) (by simp)).raiseSet _ _

theorem Booked.enterFailed (h : Booked x s) (hk : (s.fault k).state ≠ .waiting) (why : FailReason) :
    Booked x (s.enterFailed k why) :=
  (h.updFault (by simpa using hk) (by simp [FaultState.passing]) (by simp)).raiseSet _ _

theorem Booked.enterActive (h : Booked x s) (hk : (s.fault k).state ≠ .waiting) (hm : s.run.mode ≠ .config)
    (hq : (s.fault k).seq = none) : Booked x (s.enterActive k) := by
  refine (h.updFault (k := k) (f := fun _ => s.activeNow k) ⟨nofun, fun hw => absurd hw hk⟩ (fun _ => hm)
    (by simp [State.activeNow, hq])).of_ledger ?_ (by simp)
  simp only [State.ledger, State.enterActive_frame, State.updFault_waitList, State.updFault_joining, enterActive_fault,
    updFault_fault]

theorem mem_insertIndex {l : List (Fin 64)} {j : Fin 64} : j ∈ insertIndex k l ↔ j = k ∨ j ∈ l := by
  induction l with
  | nil => simp [insertIndex]
  | cons i l ih =>
    unfold insertIndex
    split_ifs with hlt heq
    · simp
    · subst heq; simp
    · simp only [List.mem_cons, ih]
      tauto

theorem insertIndex_pairwise {l : List (Fin 64)} (h : l.Pairwise (· < ·)) : (insertIndex k l).Pairwise (· < ·) := by
  induction l with
  | nil => simp [insertIndex]
  | cons i l ih =>
    obtain ⟨hi, hl⟩ := List.pairwise_cons.1 h
    unfold insertIndex
    split_ifs with hlt heq
    · exact List.pairwise_cons.2 ⟨fun j hj => by
        rcases List.mem_cons.1 hj with rfl | hj
        · exact hlt
        · exact hlt.trans (hi j hj), h⟩
    · exact h
    · refine List.pairwise_cons.2 ⟨fun j hj => ?_, ih hl⟩
      rcases mem_insertIndex.1 hj with rfl | hj
      · omega
      · exact hi j hj

theorem Booked.joined (h : Booked x s) (hk : (s.fault k).state = .armed) (hm : s.run.mode ≠ .config) :
    Booked x (s.joined k) := by
  have hnot : k ∉ x ++ s.wholeList := fun hin => absurd ((h.listed k).1 hin) (by simp [hk])
  have hfault (j : Fin 64) : (s.joined k).fault j =
      if j = k then { s.fault k with state := .waiting, fresh := true } else s.fault j := updFault_fault _ j
  have hperm : (x ++ (s.joined k).wholeList).Perm (k :: (x ++ s.wholeList)) := by
    have hinsert : (insertIndex k s.joining).Perm (k :: s.joining) := by
      refine (List.perm_ext_iff_of_nodup (insertIndex_pairwise h.sorted).nodup ?_).2 fun j => by
        rw [mem_insertIndex, List.mem_cons]
      exact List.nodup_cons.2 ⟨fun hin => hnot (by simp [State.wholeList, hin]), h.sorted.nodup⟩
    show (x ++ (s.waitList ++ insertIndex k s.joining)).Perm _
    rw [← List.append_assoc, State.wholeList, ← List.append_assoc]
    exact (hinsert.append_left _).trans List.perm_middle
  refine ⟨fun hc => absurd hc hm, hperm.nodup_iff.2 (List.nodup_cons.2 ⟨hnot, h.nodup⟩),
    insertIndex_pairwise h.sorted, fun j => ?_, fun j hj => ?_⟩
  · rw [hperm.mem_iff, hfault, List.mem_cons]
    split
    next heq => exact ⟨fun _ => rfl, fun _ => .inl heq⟩
    next hne => exact ⟨fun hin => (h.listed j).1 (hin.resolve_left hne), fun hw => .inr ((h.listed j).2 hw)⟩
  · rw [hfault] at hj ⊢
    split
    next heq =>
      subst heq
      rw [if_pos rfl] at hj
      have := h.seq _ hj
      simp [hk] at this
    next hne => rw [if_neg hne] at hj; exact h.seq j hj

theorem Booked.fireFuel (n : Nat) : ∀ {s : State} {k : Fin 64}, Booked x s → s.run.mode ≠ .config →
    Booked x (fireFuel n s k) := by
  induction n with
  | zero => exact fun h _ => h
  | succ n ih =>
    intro s k h hm
    have hfold (l : List (Fin 64)) : ∀ u : State, Booked x u → u.run.mode ≠ .config →
        Booked x (l.foldl (Machine.fireFuel n) u) := by
      induction l with
      | nil => exact fun _ hu _ => hu
      | cons i l ihl => exact fun u hu hum => ihl _ (ih hu hum) (by simpa using hum)
    rw [fireFuel_succ]
    split_ifs with harmed helec hout
    · refine hfold _ _ (h.enterActive (by simp [harmed]) hm ?_) (by simpa using hm)
      by_contra hseq
      have := h.seq k (Option.isSome_iff_ne_none.2 hseq)
      simp [harmed] at this
    · exact h.enterFailed (by simp [harmed]) _
    · exact h.joined harmed hm
    · exact h

theorem Booked.fireAll (l : List (Fin 64)) : ∀ {s : State}, Booked x s → s.run.mode ≠ .config →
    Booked x (l.foldl State.fire s) := by
  induction l with
  | nil => exact fun h _ => h
  | cons i l ih => exact fun h hm => ih (h.fireFuel 65 hm) (by simpa [State.fire] using hm)

theorem Booked.produce (h : Booked x s) (e : FaultEvent) : Booked x (s.produce k e) := by
  by_cases hm : s.run.mode = .run
  · exact Booked.fireAll _ h (by simp [hm])
  · rw [produce_of_not_run hm]; exact h

/-! ## The end of an activation (R89, R103) -/

/-- The end stamp and the count of an activation that ends (R103). -/
def State.stamped (s : State) (k : Fin 64) : State :=
  s.updFault k fun r => { r with endStamp := some s.stampNow, activations := r.activations + 1 }

/-- A record after its END event: re-armed for a repeat, or DONE (R89, R103). -/
def State.rearmedOrDone (s : State) (k : Fin 64) : State :=
  if (s.fault k).releasePending = false ∧ 0 < (s.fault k).repeats then s.updFault k FaultRecord.rearm else s.enterDone k

theorem endActivation_eq : s.endActivation k =
    if ((((s.stamped k).produce k .stop).rearmedOrDone k).fault k).kind.electronic then
      (((s.stamped k).produce k .stop).rearmedOrDone k).showFree (s.fault k).target
    else ((s.stamped k).produce k .stop).rearmedOrDone k := rfl

theorem Booked.stamped (h : Booked x s) : Booked x (s.stamped k) :=
  h.of_ledger (by
    simp only [State.ledger, State.stamped, State.updFault_waitList, State.updFault_joining, updFault_fault]
    congr 2
    funext j
    split
    next heq => rw [heq]
    · rfl) id

theorem Booked.rearmedOrDone (h : Booked x s) (hk : (s.fault k).state ≠ .waiting) : Booked x (s.rearmedOrDone k) := by
  unfold State.rearmedOrDone
  split
  · exact h.updFault (by simpa [FaultRecord.rearm] using hk) (by simp [FaultRecord.rearm, FaultState.passing])
      (by simp [FaultRecord.rearm])
  · exact h.enterDone hk

theorem Booked.endActivation (h : Booked x s) (hk : (s.fault k).state ≠ .waiting) (ha : (s.fault k).state ≠ .armed) :
    Booked x (s.endActivation k) := by
  have hstamped : ((s.stamped k).fault k).state = (s.fault k).state := by simp [State.stamped]
  have hproduced : ((s.stamped k).produce k .stop).fault k = (s.stamped k).fault k :=
    produce_fault_of_not_armed (by rw [hstamped]; exact ha)
  have hended := ((h.stamped (k := k)).produce (k := k) .stop).rearmedOrDone (k := k) (by rw [hproduced, hstamped]; exact hk)
  rw [endActivation_eq]
  split
  · exact hended.showFree _
  · exact hended

/-! ## Sequences (R54, R55, R99 to R102) -/

theorem Booked.runSteps (h : Booked x s) (i : Nat) (l : List (List Wish)) : Booked x (runSteps s i l).1 := by
  rw [runSteps_eq]
  exact h.of_fields rfl rfl rfl rfl

@[simp] theorem runSteps_fault (i : Nat) (l : List (List Wish)) : (runSteps s i l).1.fault k = s.fault k := by
  rw [runSteps_eq]
  rfl

theorem Booked.releaseHolders (h : Booked x s) : Booked x (s.releaseHolders k) :=
  h.of_fields (by simp) (by simp) (by simp) (by simp)

@[simp] theorem releaseHolders_fault {j : Fin 64} : (s.releaseHolders j).fault k = s.fault k :=
  fault_of_faults (by simp) k

/-- A record in its start or stop sequence. -/
def inSequence (r : FaultRecord) : Prop := r.state = .starting ∨ r.state = .stopping

theorem passing_of_inSequence {r : FaultRecord} (h : inSequence r) : r.state.passing = true := by
  rcases h with h | h <;> rw [h] <;> rfl

theorem not_resting_of_inSequence {r : FaultRecord} (h : inSequence r) : r.state ≠ .waiting ∧ r.state ≠ .armed := by
  rcases h with h | h <;> rw [h] <;> exact ⟨nofun, nofun⟩

/-- The sequence of a record is over. -/
def State.unsequenced (s : State) (k : Fin 64) : State := s.updFault k fun r => { r with seq := none }

theorem unsequenced_fault_self : (s.unsequenced k).fault k = { s.fault k with seq := none } :=
  (updFault_fault _ k).trans (if_pos rfl)

theorem Booked.unsequenced (h : Booked x s) : Booked x (s.unsequenced k) :=
  h.updFault Iff.rfl (fun hp => passing_mode h hp) (by simp)

theorem stopComplete_eq : s.stopComplete k = ((s.unsequenced k).releaseHolders k).endActivation k := rfl

theorem Booked.stopComplete (h : Booked x s) (hk : inSequence (s.fault k)) : Booked x (s.stopComplete k) := by
  have hfault : ((s.unsequenced k).releaseHolders k).fault k = { s.fault k with seq := none } := by
    rw [releaseHolders_fault, unsequenced_fault_self]
  obtain ⟨hwait, harmed⟩ := not_resting_of_inSequence hk
  rw [stopComplete_eq]
  exact (h.unsequenced (k := k)).releaseHolders.endActivation (by rw [hfault]; exact hwait) (by rw [hfault]; exact harmed)

/-- A sequence that goes on: in flight in a later step, or complete. -/
theorem Booked.goOn (h : Booked x s) (b : Bool) (i : Nat) {done : State → Fin 64 → State}
    (hk : inSequence (s.fault k)) (hdone : ∀ u : State, Booked x u → inSequence (u.fault k) → Booked x (done u k)) :
    Booked x (s.goOn k b i done) := by
  unfold State.goOn
  dsimp only
  split
  · refine (h.runSteps i _).updFault Iff.rfl (fun hp => passing_mode (h.runSteps i _) hp) fun _ => ?_
    rw [runSteps_fault]
    exact hk
  · exact hdone _ (h.runSteps i _) (by rw [runSteps_fault]; exact hk)

/-- Entry to STOPPING, from a record that is none of the waiting ones (R100). -/
theorem Booked.beginStop (h : Booked x s) (hk : (s.fault k).state.passing = true) (hw : (s.fault k).state ≠ .waiting) :
    Booked x (s.beginStop k) := by
  have hstop : Booked x (s.updFault k fun r => { r with state := .stopping }) :=
    h.updFault (by simpa using hw) (fun _ => passing_mode h hk) (fun _ => .inr rfl)
  exact hstop.goOn true 0 (.inr (by simp)) fun u hu hseq => hu.stopComplete hseq

theorem startComplete_eq : s.startComplete k =
    if ((((s.unsequenced k).enterActive k).produce k .start).fault k).releasePending then
      (((s.unsequenced k).enterActive k).produce k .start).beginStop k
    else ((s.unsequenced k).enterActive k).produce k .start := rfl

theorem startComplete_active : ((((s.unsequenced k).enterActive k).produce k .start).fault k).state = .active := by
  have h : (((s.unsequenced k).enterActive k).fault k).state = .active := by
    rw [enterActive_fault, if_pos rfl]; rfl
  rw [produce_fault_of_not_armed (by rw [h]; nofun), h]

theorem Booked.startComplete (h : Booked x s) (hk : inSequence (s.fault k)) : Booked x (s.startComplete k) := by
  have hm : s.run.mode ≠ .config := passing_mode h (passing_of_inSequence hk)
  have hactive := ((h.unsequenced (k := k)).enterActive (k := k)
    (by rw [unsequenced_fault_self]; exact (not_resting_of_inSequence hk).1) hm
    (by rw [unsequenced_fault_self])).produce (k := k) .start
  rw [startComplete_eq]
  split
  · exact hactive.beginStop (by rw [startComplete_active]; rfl) (by rw [startComplete_active]; nofun)
  · exact hactive

theorem Booked.beginNorms (h : Booked x s) (l : List (Fin 24)) : Booked x (s.beginNorms l) :=
  h.of_fields (by simp) (by simp) (by simp) (by simp)

theorem Booked.normFrom (h : Booked x s) (c : Fin 24) (i : Nat) : Booked x (s.normFrom c i) :=
  h.of_fields (by simp) (by simp) (by simp) (by simp)

theorem Booked.normFails (h : Booked x s) (c : Fin 24) : Booked x (s.normFails c) :=
  h.of_fields (by simp) (by simp) (by simp) (by simp)

theorem Booked.sequenceFailed (h : Booked x s) (hk : (s.fault k).state ≠ .waiting) : Booked x (s.sequenceFailed k) :=
  (h.enterFailed hk _).beginNorms _

theorem Booked.seqAdvance (h : Booked x s) (hk : inSequence (s.fault k)) (q : Sequence) : Booked x (s.seqAdvance k q) := by
  unfold State.seqAdvance
  dsimp only
  split_ifs
  · exact h
  · exact h.sequenceFailed (not_resting_of_inSequence hk).1
  · exact h.goOn _ _ hk fun u hu hseq => hu.stopComplete hseq
  · exact h.goOn _ _ hk fun u hu hseq => hu.startComplete hseq

theorem Booked.normAdvance (h : Booked x s) (c : Fin 24) (n : NormStep) : Booked x (s.normAdvance c n) := by
  unfold State.normAdvance
  dsimp only
  split_ifs
  · exact h
  · exact h.normFails c
  · exact h.normFrom c _

/-- What a movement that ends is handed to (R49). -/
theorem movementEnded_cases (s : State) (c : Fin 24) :
    (∃ n, (s.relaySet c).normalising = some n ∧ s.movementEnded c = s.normAdvance c n) ∨
    (∃ k q, (s.relaySet c).normalising = none ∧ (s.relaySet c).holder = some k ∧ (s.fault k).seq = some q ∧
      s.movementEnded c = s.seqAdvance k q) ∨
    (s.relaySet c).normalising = none ∧ (∀ k, (s.relaySet c).holder = some k → (s.fault k).seq = none) ∧
      s.movementEnded c = s := by
  cases hn : (s.relaySet c).normalising with
  | some n => exact .inl ⟨n, rfl, by simp only [State.movementEnded, hn]⟩
  | none =>
    cases hh : (s.relaySet c).holder with
    | none => exact .inr (.inr ⟨rfl, nofun, by simp only [State.movementEnded, hn, hh]⟩)
    | some k =>
      cases hq : (s.fault k).seq with
      | none =>
        refine .inr (.inr ⟨rfl, fun j hj => ?_, by simp only [State.movementEnded, hn, hh, hq]⟩)
        cases hj
        exact hq
      | some q => exact .inr (.inl ⟨k, q, rfl, rfl, hq, by simp only [State.movementEnded, hn, hh, hq]⟩)

theorem Booked.movementEnded (h : Booked x s) (c : Fin 24) : Booked x (s.movementEnded c) := by
  obtain ⟨n, -, heq⟩ | ⟨k, q, -, -, hq, heq⟩ | ⟨-, -, heq⟩ := movementEnded_cases s c <;> rw [heq]
  · exact h.normAdvance c n
  · exact h.seqAdvance (h.seq k (by rw [hq]; rfl)) q
  · exact h

theorem Booked.updRelaySet (h : Booked x s) (c : Fin 24) (f : RelaySet → RelaySet) : Booked x (s.updRelaySet c f) :=
  h.of_fields rfl rfl rfl rfl

theorem Booked.takeMoveComplete (h : Booked x s) (c : Fin 24) (r : RelayName) : Booked x (s.takeMoveComplete c r) := by
  unfold State.takeMoveComplete
  split
  · exact (h.updRelaySet c _).movementEnded c
  · exact h

theorem Booked.takeMoveFail (h : Booked x s) (c : Fin 24) (r : RelayName) : Booked x (s.takeMoveFail c r) := by
  unfold State.takeMoveFail
  split
  · exact (h.updRelaySet c _).movementEnded c
  · exact h

/-! ## The wait list (R95 to R98) -/

/-- A record that a pass takes off the list leaves WAITING. -/
theorem Booked.leave (h : Booked (k :: x) s) {f : FaultRecord → FaultRecord} (hw : (f (s.fault k)).state ≠ .waiting)
    (hp : (f (s.fault k)).state.passing = true → s.run.mode ≠ .config)
    (hq : (f (s.fault k)).seq.isSome = true → inSequence (f (s.fault k))) : Booked x (s.updFault k f) := by
  have hnodup := h.nodup
  rw [List.cons_append, List.nodup_cons] at hnodup
  refine ⟨fun hc j => ?_, hnodup.2, h.sorted, fun j => ?_, fun j hj => ?_⟩
  · rw [updFault_fault]
    split
    · exact Bool.eq_false_iff.2 fun hpass => hp hpass hc
    · exact h.rest hc j
  · rw [updFault_fault]
    have hlisted := h.listed j
    rw [List.cons_append, List.mem_cons] at hlisted
    split
    next heq =>
      subst heq
      exact ⟨fun hin => absurd hin hnodup.1, fun hwait => absurd hwait hw⟩
    next hne => rw [← hlisted]; exact ⟨.inr, fun hin => hin.resolve_left hne⟩
  · rw [updFault_fault] at hj ⊢
    split
    next heq => rw [if_pos heq] at hj; exact hq hj
    next heq => rw [if_neg heq] at hj; exact h.seq j hj

theorem Booked.waiting (h : Booked (k :: x) s) : (s.fault k).state = .waiting := (h.listed k).1 (by simp)

theorem Booked.leaveFailed (h : Booked (k :: x) s) (why : FailReason) : Booked x (s.enterFailed k why) :=
  (h.leave (by simp) (by simp [FaultState.passing]) (by simp)).raiseSet _ _

theorem Booked.beginStart (h : Booked (k :: x) s) : Booked x (s.beginStart k) := by
  have hm : s.run.mode ≠ .config := passing_mode (k := k) h (by rw [h.waiting]; rfl)
  have hstart : Booked x (s.updFault k fun r => { r with state := .starting }) :=
    h.leave (by simp) (fun _ => hm) (fun _ => .inl rfl)
  exact hstart.goOn false 0 (.inl (by simp)) fun u hu hseq => hu.startComplete hseq

/-- The channels that a record needs are held by it. -/
def State.heldBy (s : State) (k : Fin 64) : State :=
  { s with relays := mapV (fun c x => if (needs (s.fault k)).contains c then { x with holder := some k } else x) s.relays }

/-- A PIN_SHORT record takes a cross bus. -/
def State.withBus (s : State) (k : Fin 64) (b : Bus) : State :=
  { s.updFault k fun r => { r with bus := some b } with buses := s.buses.put b (some k) }

/-- A record takes the first free cross bus, where there is one (R96). -/
def State.withFreeBus (s : State) (k : Fin 64) : State :=
  match s.freeBus with
  | some b => s.withBus k b
  | none => s

/-- What a granted record takes (R53, R96). -/
theorem take_eq : s.take k =
    if s.outOfService (s.fault k) then s.enterFailed k .outOfService
    else if (s.fault k).kind = .shortBat ∧ s.battery.level = false then s.enterFailed k .noBattery
    else if (s.fault k).kind = .pinShort then ((s.heldBy k).withFreeBus k).beginStart k
    else (s.heldBy k).beginStart k := by
  have h : s.take k = if s.outOfService (s.fault k) then s.enterFailed k .outOfService
    else if (s.fault k).kind = .shortBat ∧ s.battery.level = false then s.enterFailed k .noBattery
    else (if (s.fault k).kind = .pinShort then (s.heldBy k).withFreeBus k else s.heldBy k).beginStart k := rfl
  rw [h]
  split_ifs <;> rfl

theorem withBus_fault (b : Bus) (j : Fin 64) :
    (s.withBus k b).fault j = if j = k then { s.fault k with bus := some b } else s.fault j := updFault_fault _ j

theorem Booked.withBus (h : Booked x s) (b : Bus) : Booked x (s.withBus k b) := by
  refine h.of_ledger (ledger_of_records rfl rfl fun j => ?_) id
  rw [withBus_fault]
  split
  next heq => rw [heq]; exact ⟨rfl, rfl⟩
  · exact ⟨rfl, rfl⟩

theorem Booked.take (h : Booked (k :: x) s) : Booked x (s.take k) := by
  have hheld : Booked (k :: x) (s.heldBy k) :=
    h.of_fields (by simp [State.heldBy]) (by simp [State.heldBy]) (by simp [State.heldBy]) (by simp [State.heldBy])
  rw [take_eq]
  split_ifs
  · exact h.leaveFailed _
  · exact h.leaveFailed _
  · refine Booked.beginStart ?_
    unfold State.withFreeBus
    split
    · exact hheld.withBus _
    · exact hheld
  · exact hheld.beginStart

theorem Booked.perm {y : List (Fin 64)} (h : Booked x s) (hp : y.Perm x) : Booked y s :=
  ⟨h.rest, (hp.append_right _).nodup_iff.2 h.nodup, h.sorted, fun k => ((hp.append_right _).mem_iff).trans (h.listed k),
    h.seq⟩

/-- The rest of a pass. -/
theorem Booked.examineRest (l : List (Fin 64)) : ∀ {acc : State × List (Fin 64)}, Booked (l ++ acc.2) acc.1 →
    Booked (l.foldl examineOne acc).2 (l.foldl examineOne acc).1 := by
  induction l with
  | nil => exact fun h => h
  | cons k l ih =>
    rintro ⟨u, kept⟩ h
    rw [List.foldl_cons]
    refine ih ?_
    unfold examineOne
    dsimp only
    split
    · exact Booked.take h
    · refine h.perm ?_
      rw [← List.append_assoc]
      exact List.perm_append_singleton k _

/-- The records of the wait list as a pass begins. -/
theorem Booked.beginPass (h : Booked [] s) :
    Booked (s.wholeList ++ []) { s with waitList := [], joining := [], examineDue := false } := by
  have hw : (s.wholeList ++ []) ++ State.wholeList { s with waitList := [], joining := [], examineDue := false } =
      [] ++ s.wholeList := by simp [State.wholeList]
  exact ⟨h.rest, hw ▸ h.nodup, .nil, fun k => hw ▸ h.listed k, h.seq⟩

/-- The records that a pass has kept take their places on the list. -/
theorem Booked.endPass {l : List (Fin 64)} (h : Booked l s) : Booked [] { s with waitList := l ++ s.waitList } := by
  have hw : [] ++ State.wholeList { s with waitList := l ++ s.waitList } = l ++ s.wholeList := by simp [State.wholeList]
  exact ⟨h.rest, hw ▸ h.nodup, h.sorted, fun k => hw ▸ h.listed k, h.seq⟩

theorem Booked.examine (h : Booked [] s) : Booked [] s.examine := (h.beginPass.examineRest s.wholeList).endPass

theorem Booked.settleFuel (n : Nat) : ∀ {s : State}, Booked [] s → Booked [] (settleFuel n s) := by
  induction n with
  | zero => exact fun h => h
  | succ n ih =>
    intro s h
    unfold Machine.settleFuel
    split
    · exact ih h.examine
    · exact h

theorem Booked.settle (h : Booked [] s) : Booked [] s.settle := h.settleFuel 65

/-! ## Entry to SAFE and releases (R75, R113) -/

/-- A WAITING record leaves the list and the state. -/
theorem Booked.leaveList (h : Booked [] s) (hw : (s.fault k).state = .waiting) :
    Booked [] ((s.leaveList k).enterDone k) := by
  have hfault (j : Fin 64) : ((s.leaveList k).enterDone k).fault j =
      if j = k then { s.fault k with state := .done, frozen := none, seq := none } else s.fault j := enterDone_fault j
  have hlist : ((s.leaveList k).enterDone k).wholeList = s.waitList.erase k ++ s.joining.erase k := by
    simp [State.wholeList, State.leaveList]
  have hjoin : ((s.leaveList k).enterDone k).joining = s.joining.erase k := by simp [State.leaveList]
  have hmode : ((s.leaveList k).enterDone k).run = s.run := by simp [State.leaveList]
  have hnodup := h.nodup
  simp only [List.nil_append, State.wholeList] at hnodup
  obtain ⟨hnw, hnj, -⟩ := List.nodup_append.1 hnodup
  refine ⟨fun hc => ?_, ?_, ?_, fun j => ?_, fun j hj => ?_⟩
  · rw [hmode] at hc
    exact absurd hc (passing_mode (k := k) h (by rw [hw]; rfl))
  · rw [List.nil_append, hlist]
    exact hnodup.sublist (List.erase_sublist.append List.erase_sublist)
  · rw [hjoin]
    exact h.sorted.sublist List.erase_sublist
  · have hlisted := h.listed j
    rw [List.nil_append, hlist, hfault, List.mem_append, hnw.mem_erase_iff, hnj.mem_erase_iff]
    simp only [List.nil_append, State.wholeList, List.mem_append] at hlisted
    split
    next heq => simp [heq]
    next hne => rw [← hlisted]; simp [hne]
  · rw [hfault] at hj ⊢
    split
    next heq => simp [heq] at hj
    next hne => rw [if_neg hne] at hj; exact h.seq j hj

/-- A release is noted in a record. -/
theorem Booked.noteRelease (h : Booked x s) : Booked x (s.updFault k fun r => { r with releasePending := true }) :=
  h.updFault Iff.rfl (fun hp => passing_mode h hp) (fun hq => h.seq k hq)

theorem Booked.safeRecord (h : Booked [] s) (k : Fin 64) : Booked [] (s.safeRecord k) := by
  unfold State.safeRecord
  split
  next hk => exact h.enterDone (by rw [hk]; nofun)
  next hk => exact h.leaveList hk
  · exact h.noteRelease
  · exact h.noteRelease
  next hk =>
    have hstate : ((s.updFault k fun r => { r with releasePending := true }).fault k).state = .active := by simp [hk]
    dsimp only
    split
    · exact h.noteRelease.endActivation (by rw [hstate]; nofun) (by rw [hstate]; nofun)
    · exact h.noteRelease.beginStop (by rw [hstate]; rfl) (by rw [hstate]; nofun)
  all_goals exact h

theorem Booked.safeFaults (h : Booked [] s) : Booked [] s.safeFaults := by
  unfold State.safeFaults
  generalize List.finRange 64 = l
  induction l generalizing s with
  | nil => exact h
  | cons k l ih => exact ih (h.safeRecord k)

theorem Booked.takeOnCapture (h : Booked x s) (k : Fin 64) : Booked x (s.takeOnCapture k) := by
  unfold State.takeOnCapture
  split
  next hrun => exact h.fireFuel 65 (by simp [hrun.1])
  · exact h

theorem Booked.fireCounted (h : Booked x s) : Booked x s.fireCounted := by
  unfold State.fireCounted
  split
  · have hfold (l : List Event) : ∀ {u : State}, Booked x u → Booked x (l.foldl takeCaptureTrigger u) := by
      induction l with
      | nil => exact fun hu => hu
      | cons e l ih =>
        intro u hu
        refine ih ?_
        cases e with
        | onCapture k => exact hu.takeOnCapture k
        | _ => exact hu
    exact hfold _ (h.of_fields rfl rfl rfl rfl)
  · exact h

theorem Booked.enterSafe (h : Booked [] s) (why : SafeCause) : Booked [] (s.enterSafe why) := by
  by_cases hm : s.run.mode = .run
  · have hentry : Booked [] (s.safeEntry why).haltGenerators :=
      h.fireCounted.of_ledger (ledger_of_fields (by simp [State.safeEntry]) (by simp [State.safeEntry])
        (by simp [State.safeEntry])) (by simp [State.safeEntry])
    rw [enterSafe_eq why hm]
    exact hentry.safeFaults.of_fields (by simp) (by simp) (by simp) (by simp)
  · rw [enterSafe_of_not_run why hm]
    exact h

/-! ## Requests, events and ticks -/

theorem Booked.enterRun (h : Booked x s) (hl : t.ledger = s.ledger) (hm : t.run.mode = .run) : Booked x t :=
  h.of_ledger hl (by simp [hm])

theorem fresh_booked (hf : ∀ k, s.fault k = {}) (hl : s.wholeList = []) : Booked [] s := by
  have hjoin : s.joining = [] := (List.append_eq_nil_iff.1 hl).2
  refine ⟨fun _ k => by rw [hf]; rfl, by simp [hl], by simp [hjoin], fun k => ?_, fun k hk => ?_⟩
  · simp [hl, hf]
  · simp [hf] at hk

theorem powerOn_booked : Booked [] s.powerOn :=
  fresh_booked (fun k => by
    simp only [State.powerOn, State.reset, State.fault, Vector.get_eq_getElem, Vector.getElem_replicate]) rfl

theorem rigReset_booked : Booked [] s.rigReset :=
  fresh_booked (fun k => by
    simp only [State.rigReset, State.powerOn, State.reset, State.fault, Vector.get_eq_getElem,
      Vector.getElem_replicate]) rfl

theorem Booked.judgedForStop (h : Booked [] s) : Booked [] s.judgedForStop := by
  unfold State.judgedForStop
  split
  · exact h.fireCounted.settle
  · exact h

theorem Booked.stopRun (h : Booked [] s) (hf : ∀ k, stopBusy (s.fault k) = false) : Booked [] s.stopRun := by
  have hfault (k : Fin 64) : s.stopRun.fault k = s.fault k := fault_of_faults (by simp [State.stopRun]) k
  have hlist : s.stopRun.wholeList = s.wholeList := by simp [State.wholeList, State.stopRun]
  have hjoin : s.stopRun.joining = s.joining := by simp [State.stopRun]
  refine ⟨fun _ k => ?_, by rw [hlist]; exact h.nodup, by rw [hjoin]; exact h.sorted, fun k => ?_, fun k hk => ?_⟩
  · rw [hfault]
    have hbusy := hf k
    cases hs : (s.fault k).state <;> simp_all [stopBusy, FaultState.passing]
  · rw [hlist, hfault]; exact h.listed k
  · rw [hfault] at hk ⊢; exact h.seq k hk

theorem judgeFault_state {g : FaultArgs} {r : FaultRecord} (h : judgeFault s k g = some r) :
    r.state = .armed ∧ r.seq = none := by
  unfold judgeFault at h
  split at h
  · dsimp only at h
    split at h
    · split at h
      · cases h; exact ⟨rfl, rfl⟩
      · cases h
    · cases h
  · cases h

/-- A record that is not in use is written anew, not WAITING. -/
theorem Booked.rewrite (h : Booked x s) (hk : s.recordBusy k = false) {r : FaultRecord}
    (hr : r.state = .armed ∨ r.state = .free) (hq : r.seq = none) : Booked x (s.updFault k fun _ => r) := by
  have hrest : (s.fault k).state ≠ .waiting := by
    intro hw
    simp [State.recordBusy, hw, FaultState.inUse] at hk
  refine h.updFault ⟨fun hw => ?_, fun hw => absurd hw hrest⟩ (fun hp => ?_) (by simp [hq])
  · rcases hr with hr | hr <;> rw [hr] at hw <;> cases hw
  · rcases hr with hr | hr <;> rw [hr] at hp <;> cases hp

theorem leaves_booked (hl : Leaves s t) (h : Booked [] s) : Booked [] t := by
  cases hl with
  | start _ => exact h.enterRun (ledger_of_fields (by simp) (by simp) (by simp)) (by rw [startRun_run])
  | resume _ _ => exact h.enterRun (ledger_of_fields (by simp) (by simp) (by simp)) (by rw [resumeRun_run])
  | counted => exact h.judgedForStop
  | stop _ hf _ => exact h.judgedForStop.stopRun hf
  | enterSafe _ => exact (h.enterSafe _).settle
  | reset => exact rigReset_booked
  | deadline m _ _ => exact h.of_ledger rfl id
  | arm k g r hk hr => exact h.rewrite hk (.inl (judgeFault_state hr).1) (judgeFault_state hr).2
  | clear k hk => exact h.rewrite hk (.inr rfl) rfl
  | release k => rw [release_eq_safeRecord]; exact (h.safeRecord k).settle
  | live l =>
    refine h.of_fields ?_ ?_ ?_ ?_ <;> rw [liveUpdated_frame]
  | stepMark =>
    have hmode : s.marked.run.mode = s.run.mode := congrArg Reel.mode marked_reel
    exact h.of_ledger (by rw [marked_frame]; rfl) (by rw [hmode]; exact id)
  | channel c g _ =>
    have hw : Booked [] (s.fieldsWritten c g) := by
      refine h.of_fields ?_ ?_ ?_ ?_ <;> rw [fieldsWritten_frame]
    split
    · exact hw
    · exact hw.of_fields (by simp) (by simp) (by simp) (by simp)
  | force c v =>
    have hw : Booked [] (s.forcedWritten c v) := by
      refine h.of_fields ?_ ?_ ?_ ?_ <;> rw [forcedWritten_frame]
    exact hw.of_fields (by simp) (by simp) (by simp) (by simp)
  | transfer x _ _ _ _ =>
    refine h.of_fields ?_ ?_ ?_ ?_ <;> rw [beginTransfer_frame]
  | queueReplay n d _ _ _ =>
    refine h.of_fields ?_ ?_ ?_ ?_ <;> rw [enqueue_frame]
  | stopReplay n =>
    have hd : Booked [] ((s.discardAll n).took (.replayAdvance n)) := by
      refine h.of_fields ?_ ?_ ?_ ?_ <;> rw [discardAll_frame] <;> rfl
    exact hd.settle
  | clearNotices p w =>
    refine h.of_fields ?_ ?_ ?_ ?_ <;> rw [recoveries_frame] <;> simp
  | same | speed _ _ _ | angleBase _ _ | active _ _ _ | staged _ _ _ | timing _ | define _ _ _ _ _ _ | free _ _ _
  | setReplay _ _ _ _ _ | setCapture _ _ _ _ | takeCaptures _ _ | enables _ _ =>
    exact h.of_fields (by simp) (by simp) (by simp) (by simp)

theorem edgeRecord_keeps (run : Bool) (i : Fin 16) (rise : Bool) (r : FaultRecord) :
    (edgeRecord run i rise r).state = r.state ∧ (edgeRecord run i rise r).seq = r.seq := by
  unfold edgeRecord
  (repeat' split) <;> exact ⟨rfl, rfl⟩

theorem countEdge_fault (i : Fin 16) (rise : Bool) :
    (s.countEdge i rise).fault k = edgeRecord (s.run.mode == .run) i rise (s.fault k) := by
  simp only [State.countEdge, State.fault, mapV_get]

theorem Booked.countEdge (h : Booked x s) (i : Fin 16) (rise : Bool) : Booked x (s.countEdge i rise) := by
  refine h.of_ledger (ledger_of_records (by simp) (by simp) fun k => ?_) (by simp)
  rw [countEdge_fault]
  exact edgeRecord_keeps _ i rise _

theorem Booked.edgeRecorded (h : Booked x s) (i : Fin 16) (l : Bool) (st : Stamp) : Booked x (s.edgeRecorded i l st) := by
  unfold State.edgeRecorded
  dsimp only
  refine Booked.countEdge ?_ i (!l)
  split
  · exact h.of_fields (by simp) (by simp) (by simp) (by simp)
  · exact h.of_fields (by simp) (by simp) (by simp) (by simp)

theorem Booked.takeCaptureReport (h : Booked [] s) (i : Fin 16) : Booked [] (s.takeCaptureReport i) := by
  obtain heq | ⟨l, st, -, -, ⟨-, heq⟩ | ⟨-, heq⟩⟩ := takeCaptureReport_cases s i <;> rw [heq]
  · exact h
  · exact h.edgeRecorded i l st
  · exact (h.edgeRecorded i l st).enterSafe _

theorem Booked.updRun (h : Booked x s) {f : RunControl → RunControl} (hf : (f s.run).mode = s.run.mode) :
    Booked x (s.updRun f) := h.of_ledger rfl (by rw [State.updRun_run, hf]; exact id)

theorem Booked.takeSafeLine (h : Booked [] s) : Booked [] s.takeSafeLine := by
  unfold State.takeSafeLine
  dsimp only
  split_ifs
  · exact Booked.enterSafe (h.updRun rfl) _
  · exact h.updRun rfl
  · exact h

theorem Booked.takeDeadline (h : Booked [] s) : Booked [] s.takeDeadline := by
  have hmiss : Booked [] ((s.updRun fun r => { r with monitor := r.monitor.miss }).raiseBoth .deadlineMissed) :=
    (h.updRun (f := fun r => { r with monitor := r.monitor.miss }) rfl).of_fields (by simp) (by simp) (by simp) (by simp)
  unfold State.takeDeadline
  dsimp only
  split_ifs
  · exact hmiss.enterSafe _
  · exact hmiss
  · exact h

theorem Booked.takeAtTime (h : Booked x s) (k : Fin 64) : Booked x (s.takeAtTime k) := by
  unfold State.takeAtTime
  dsimp only
  split
  · split
    next hrun => exact h.fireFuel 65 (by simp [hrun.1])
    · exact h
  all_goals exact h

theorem Booked.takeDurationEnd (h : Booked [] s) (k : Fin 64) : Booked [] (s.takeDurationEnd k) := by
  unfold State.takeDurationEnd
  dsimp only
  split
  next hk =>
    split
    · exact h.endActivation (by rw [hk.1]; nofun) (by rw [hk.1]; nofun)
    · exact h.beginStop (by rw [hk.1]; rfl) (by rw [hk.1]; nofun)
  · exact h

theorem Booked.perform (h : Booked [] s) (e : Event) : Booked [] (s.perform e) := by
  cases e with
  | moveComplete c r => exact h.takeMoveComplete c r
  | moveFail c r => exact h.takeMoveFail c r
  | atTime k => exact h.takeAtTime k
  | captureReport i => exact h.takeCaptureReport i
  | onCapture k => exact h.takeOnCapture k
  | durationEnd k => exact h.takeDurationEnd k
  | deadline => exact h.takeDeadline
  | safeLine => exact h.takeSafeLine
  | _ => exact h.of_fields (by simp [State.perform]) (by simp [State.perform]) (by simp [State.perform]) (by simp [State.perform])

theorem tickFaults_fault (d : Nat) (w : Bool) : (s.tickFaults d w).fault k = tickRecord d w (s.fault k) := by
  simp only [State.tickFaults, State.fault, mapV_get]

theorem Booked.fireAtAngle (h : Booked x s) (a d : Nat) (c c' : Half) : Booked x (s.fireAtAngle a d c c') := by
  unfold State.fireAtAngle
  split
  next hm => exact Booked.fireAll _ h (by simp [hm])
  · exact h

theorem Booked.tickSampled (h : Booked [] s) : Booked [] s.tickSampled := by
  have hplayed : Booked [] (((s.tickPlayed.addDue (clockEvents s.tickPlayed.rigTime).1).tickRelays).sampleBattery) :=
    h.of_fields (by simp [State.tickPlayed, State.clocked]) (by simp [State.tickPlayed, State.clocked])
      (by simp [State.tickPlayed, State.clocked]) (by simp [State.tickPlayed, State.clocked])
  have hcounted : Booked [] s.tickCounted := by
    refine hplayed.of_ledger ?_ (by simp [State.tickCounted])
    have hfault (k : Fin 64) : s.tickCounted.fault k = tickRecord s.advanceNow s.wraps
        ((((s.tickPlayed.addDue (clockEvents s.tickPlayed.rigTime).1).tickRelays).sampleBattery).fault k) := by
      rw [← tickFaults_fault]
      exact fault_of_faults (by simp [State.tickCounted]) k
    simp only [State.ledger, hfault]
    simp [State.tickCounted, tickRecord]
  have hfired : Booked [] s.tickFired := hcounted.fireAtAngle _ _ _ _
  refine hfired.of_ledger (ledger_of_fields ?_ ?_ ?_) ?_
  · simp [State.tickSampled, State.tickGridded]
  · simp [State.tickSampled, State.tickGridded]
  · simp [State.tickSampled, State.tickGridded]
  · rw [State.tickSampled, sampleSafeLine_mode, tickMonitor_mode]
    simp [State.tickGridded]

theorem Booked.makeTick (h : Booked [] s) : Booked [] s.makeTick := by
  rw [makeTick_eq]
  exact h.tickSampled.settle

theorem kept_booked : Kept (Booked []) where
  pending _ _ h := h.of_fields rfl rfl rfl rfl
  port _ _ _ _ h := h.of_fields (by simp) (by simp) (by simp) (by simp)
  request i s h := leaves_booked (handle_leaves s i) h
  transfer _ _ _ h := h.of_fields rfl rfl rfl rfl
  perform _ e h := h.perform e
  settle _ h := h.settle
  due _ _ h := h.of_fields rfl rfl rfl rfl
  pins _ _ h := h.of_fields rfl rfl rfl rfl
  count _ _ h := h.of_fields (by simp) (by simp) (by simp) (by simp)
  tick _ h := h.makeTick
  voltage _ _ _ h := h.of_fields (by simp) (by simp) (by simp) (by simp)
  powerOn _ _ := powerOn_booked
  rigReset _ _ := rigReset_booked

/-- Settles O59: the law with the records that a pass has in hand, kept by every operation on the Fault Table. -/
theorem stepKeepsFaultRecords : Obligations.StepKeepsFaultRecords := fun _ _ hs ht =>
  recordLaw_iff.2 (kept_booked.step (recordLaw_iff.1 hs) ht)

end Sys2Proof.Machine
end

section
/-! The state after a power-on reset meets every law (R22, R46, R66, R114, R128, R149, R168, R186, R200). -/

namespace Sys2Proof.Machine

/-! ## What the tables hold after a power-on reset -/

theorem reset_channel (c : Fin 24) : State.reset.channel c = resetChannel c := by
  simp only [State.reset, State.channel, Vector.get_eq_getElem, Vector.getElem_ofFn]

theorem reset_relaySet (c : Fin 24) : State.reset.relaySet c = { relays := normalRelays } := by
  simp only [State.reset, State.relaySet, Vector.get_eq_getElem, Vector.getElem_replicate]

theorem reset_fault (k : Fin 64) : State.reset.fault k = {} := by
  simp only [State.reset, State.fault, Vector.get_eq_getElem, Vector.getElem_replicate]

theorem reset_segment (g : Fin 32) : State.reset.segment g = {} := by
  simp only [State.reset, State.segment, Vector.get_eq_getElem, Vector.getElem_replicate]

theorem reset_engine (n : Fin 4) : State.reset.engine n = {} := by
  simp only [State.reset, State.engine, Vector.get_eq_getElem, Vector.getElem_replicate]

theorem reset_input (i : Fin 16) : State.reset.input i = {} := by
  simp only [State.reset, State.input, Vector.get_eq_getElem, Vector.getElem_replicate]

/-! ## The laws -/

theorem reset_channelLaws : State.reset.codeLaw ∧ State.reset.noiseLaw ∧ State.reset.driverLaw ∧
    State.reset.generatorLaw ∧ State.reset.startLaw := by
  refine ⟨fun c _ => ?_, fun c => ?_, fun c => ?_, fun c g hg => ?_, fun c hw => ?_, Nat.zero_le _⟩
  · rw [reset_channel]; exact Nat.zero_le _
  · rw [reset_channel]; revert c; decide
  · rw [reset_channel]; exact ⟨nofun, fun h => absurd rfl h⟩
  · rw [reset_channel] at hg; cases hg
  · rw [reset_channel] at hw; cases hw

theorem reset_inputLaw : State.reset.inputLaw := by
  intro i
  rw [reset_input]
  exact ⟨.inr (.inl rfl), by decide, by decide, fun _ => ⟨rfl, rfl, rfl, rfl⟩⟩

theorem reset_replayLaws : State.reset.memoryLaw ∧ State.reset.segmentLaw ∧ State.reset.refLaw ∧
    State.reset.engineLaw ∧ State.reset.playLaw := by
  have hreel : State.reset.reel = ⟨.config, fun _ => {}, fun _ => {}⟩ := powerOn_reel (s := State.reset)
  have hundefined (g : Fin 32) : (State.reset.segment g).defined ≠ true := by rw [reset_segment]; nofun
  refine ⟨⟨reset_memory_wf, nofun, nofun, fun g hg => absurd hg (hundefined g)⟩,
    ⟨fun g hg => absurd hg (hundefined g), fun g _ _ hg => absurd hg (hundefined g)⟩, ?_, fun n => ?_, fun n => ?_⟩
  · have hrefs : refsGood State.reset.reel := by rw [hreel]; exact refsGood_of_zero fun _ => rfl
    exact hrefs
  · rw [reset_engine]; exact queuesGood_fresh
  · rw [reset_engine]; exact ⟨nofun, nofun⟩

theorem reset_recordLaw : State.reset.recordLaw := recordLaw_iff.2 (fresh_booked reset_fault rfl)

theorem normalRelays_get (r : RelayName) : normalRelays.get r = atRest (normalPosition r) := by
  cases r <;> rfl

theorem reset_holderLaw : State.reset.holderLaw := by
  refine ⟨fun c k hk => ?_, fun b k hk => ?_, fun c b hp => ?_⟩
  · rw [reset_relaySet] at hk; cases hk
  · cases b <;> cases hk
  · rw [reset_relaySet] at hp
    cases b <;> cases hp

theorem reset_breakLaw : State.reset.breakLaw := by
  intro c
  rw [reset_relaySet]
  refine ⟨fun r _ hr _ _ => .inl ?_, fun r hr hne => ?_, fun _ _ _ r => normalRelays_get r⟩
  · exact (normalRelays_get r).trans (by rw [normalPosition, if_neg hr])
  · rcases hr with rfl | rfl <;> exact absurd rfl hne

theorem reset_matrixLaw : State.reset.matrixLaw := by
  refine ⟨reset_holderLaw, reset_breakLaw, ?_⟩
  simp only [reset_fault, reset_relaySet]
  refine ⟨fun k => ⟨by decide, nofun⟩, fun k h => ?_, nofun, nofun, fun k h => ?_, fun c n => ?_, nofun, nofun, nofun, nofun,
    nofun, nofun, nofun, nofun⟩
  · simp at h
  · simp [travels] at h
  · cases n <;> exact ⟨rfl, nofun⟩

/-- Settles O60. -/
theorem lawsHoldAtReset : Obligations.LawsHoldAtReset := by
  obtain ⟨hcode, hnoise, hdriver, hgen, hstart⟩ := reset_channelLaws
  obtain ⟨hmem, hseg, href, heng, hplay⟩ := reset_replayLaws
  have htables : State.reset.tableLaw := fun q =>
    ⟨by cases q <;> exact tableGood_nil _, by cases q <;> exact nofun⟩
  exact ⟨⟨by decide, by decide⟩, htables, hcode, hnoise, hdriver, hgen, hstart, reset_inputLaw, nofun, hmem, hseg, href,
    heng, hplay, ⟨captureOrder_nil, captureOrder_nil⟩, ⟨portGood_fresh, portGood_fresh⟩, reset_recordLaw,
    reset_matrixLaw⟩

end Sys2Proof.Machine
end

section
/-! SET_DEADLINE and the reads: requests that a port takes at once and answers from the state (R14, R18, R30, R45, R64,
R77, R121, R148, R166, R177, R183, R197). -/

namespace Sys2Proof.Machine

variable {s u : State} {p : Port} {t x : Byte} {i : Instr} {k : RequestKind} {ws : List Word} {b : Body} {c : Status}

/-! ## Requests taken at once -/

theorem exec_of_taken (hs : i.sender = some (p, t)) (he : encodePayload i = some (k, ws)) (hl : ws.length ≤ 255)
    (ha : k.allowed p = true) (hn : s.takesNow p = true) : exec i s = .next (deliver p k.code t (handle i s)) :=
  (exec_of_sender hs he).trans (request_of_takesNow he hl ha hn)

/-- A request that its block takes is answered OK. -/
theorem exec_of_okay (hs : i.sender = some (p, t)) (he : encodePayload i = some (k, ws)) (hl : ws.length ≤ 255)
    (ha : k.allowed p = true) (hn : s.takesNow p = true) (h : handle i s = okay u b) :
    exec i s = .next (u.answerOk p k t b) := by
  rw [exec_of_taken hs he hl ha hn, h, deliver_okay]

/-- A request that its block refuses is answered with the status alone. -/
theorem exec_of_refuse (hs : i.sender = some (p, t)) (he : encodePayload i = some (k, ws)) (hl : ws.length ≤ 255)
    (ha : k.allowed p = true) (hn : s.takesNow p = true) (h : handle i s = refuse u c) :
    exec i s = .next (u.answerNo p k t c) := by
  rw [exec_of_taken hs he hl ha hn, h, deliver_refuse]

/-! ## SET_DEADLINE (R177) -/

theorem handleSetDeadline_of_config {en : Bool} {l : BitVec 4} {d : Half} (hm : s.run.mode = .config) :
    handleSetDeadline en l d s =
      if 10 ≤ d.toNat ∧ 1 ≤ l.toNat then
        okay (s.updRun fun r => { r with monitor := { s.run.monitor with
          enabled := en, deadline := d.toNat, limit := l.toNat,
          state := if en then s.run.monitor.state else .off, misses := if en then s.run.monitor.misses else 0 } })
          (.monitor { s.run.monitor with
            enabled := en, deadline := d.toNat, limit := l.toNat,
            state := if en then s.run.monitor.state else .off, misses := if en then s.run.monitor.misses else 0 })
      else refuse s .badValue := by
  rw [handleSetDeadline, if_neg (not_not.2 hm)]
  cases en <;> rfl

/-- Settles O51. -/
theorem setDeadlineWritesSettings : Obligations.SetDeadlineWritesSettings := by
  refine ⟨fun s t en l d hn => ⟨fun hm => ?_, fun hm hbad => ?_, fun hm hd hl => ⟨_, rfl, ?_⟩⟩,
    fun s => ⟨rfl, rfl, rfl, rfl⟩⟩
  · exact exec_of_refuse (i := .setDeadline .B t en l d) rfl rfl (by simp) rfl hn (if_pos hm)
  · refine exec_of_refuse (i := .setDeadline .B t en l d) rfl rfl (by simp) rfl hn ?_
    have hrange : ¬(10 ≤ d.toNat ∧ 1 ≤ l.toNat) := by
      rcases hbad with h | h
      · omega
      · simp [h]
    exact (handleSetDeadline_of_config hm).trans (if_neg hrange)
  · refine exec_of_okay (i := .setDeadline .B t en l d) rfl rfl (by simp) rfl hn ?_
    have hpos : l.toNat ≠ 0 := fun h => hl (BitVec.eq_of_toNat_eq h)
    exact (handleSetDeadline_of_config hm).trans (if_pos ⟨hd, by omega⟩)

/-! ## Reads -/

theorem allowed_of_both {k : RequestKind} (h : k.allowed .M = true ∧ k.allowed .B = true) (p : Port) : k.allowed p = true := by
  cases p
  · exact h.1
  · exact h.2

theorem handleReadPattern_of_bad {staged : Bool} (h : 2 < x.toNat) : handleReadPattern x staged s = refuse s .badValue := by
  rw [handleReadPattern, patternOf_eq_none h]

theorem handleReadPattern_of_pattern {staged : Bool} {q : Pattern} (h : x.toNat = patternCode q) :
    handleReadPattern x staged s = okay s (.pattern
      (if staged then (s.angle.staged.get q).getD [] else s.angle.active.get q) (s.angle.staged.get q).isSome) := by
  rw [handleReadPattern, h, patternOf_patternCode]
  cases staged <;> rfl

/-- What an indexed read answers: BAD_VALUE for an index above the table, and what `body` has of a record otherwise. -/
theorem exec_of_indexed {n : Nat} {body : Fin n → Body} (hs : i.sender = some (p, t))
    (he : encodePayload i = some (k, ws)) (hl : ws.length ≤ 255) (ha : k.allowed .M = true ∧ k.allowed .B = true)
    (hn : s.takesNow p = true) (hnone : indexIn n x = none → handle i s = refuse s .badValue)
    (hsome : ∀ j, indexIn n x = some j → handle i s = okay s (body j)) :
    (n ≤ x.toNat → exec i s = .next (s.answerNo p k t .badValue)) ∧
      ∀ j : Fin n, x.toNat = j.1 → exec i s = .next (s.answerOk p k t (body j)) :=
  ⟨fun h => exec_of_refuse hs he hl (allowed_of_both ha p) hn (hnone (indexIn_eq_none h)),
    fun j h => exec_of_okay hs he hl (allowed_of_both ha p) hn (hsome j (indexIn_eq_some h))⟩

theorem readChannel_answers (hn : s.takesNow p = true) :
    (24 ≤ x.toNat → exec (.readChannel p t x) s = .next (s.answerNo p .readChannel t .badValue)) ∧
      ∀ c : Fin 24, x.toNat = c.1 → exec (.readChannel p t x) s = .next (s.answerOk p .readChannel t
        (.channelRead (kindOf c) (s.channel c) (s.shownBase c) (s.relaySet c).inService (s.effective c))) :=
  exec_of_indexed (i := .readChannel p t x) rfl rfl (by simp) ⟨rfl, rfl⟩ hn
    (fun h => by show handleReadChannel x s = _; rw [handleReadChannel, h])
    (fun c h => by show handleReadChannel x s = _; rw [handleReadChannel, h])

theorem readRelays_answers (hn : s.takesNow p = true) :
    (24 ≤ x.toNat → exec (.readRelays p t x) s = .next (s.answerNo p .readRelays t .badValue)) ∧
      ∀ c : Fin 24, x.toNat = c.1 → exec (.readRelays p t x) s = .next (s.answerOk p .readRelays t
        (.relays (s.relaySet c) (s.pins.sense.get c) s.buses s.battery.level s.timing)) :=
  exec_of_indexed (i := .readRelays p t x) rfl rfl (by simp) ⟨rfl, rfl⟩ hn
    (fun h => by show handleReadRelays x s = _; rw [handleReadRelays, h])
    (fun c h => by show handleReadRelays x s = _; rw [handleReadRelays, h])

theorem readFault_answers (hn : s.takesNow p = true) :
    (64 ≤ x.toNat → exec (.readFault p t x) s = .next (s.answerNo p .readFault t .badValue)) ∧
      ∀ k : Fin 64, x.toNat = k.1 → exec (.readFault p t x) s = .next (s.answerOk p .readFault t
        (.faultRead (s.fault k) (if (s.fault k).state = .waiting then placeIn k (s.waitList ++ s.joining) else none)
          (if (s.fault k).state = .active ∧ (s.fault k).kind.electronic = true then
            some (decide (s.effective (s.fault k).target = some k)) else none))) :=
  exec_of_indexed (i := .readFault p t x) rfl rfl (by simp) ⟨rfl, rfl⟩ hn
    (fun h => by show handleReadFault x s = _; rw [handleReadFault, h])
    (fun k h => by show handleReadFault x s = _; rw [handleReadFault, h]; simp only [beq_eq_decide]; rfl)

theorem readSegment_answers (hn : s.takesNow p = true) :
    (32 ≤ x.toNat → exec (.readSegment p t x) s = .next (s.answerNo p .readSegment t .badValue)) ∧
      ∀ g : Fin 32, x.toNat = g.1 →
        exec (.readSegment p t x) s = .next (s.answerOk p .readSegment t (.segment (s.segment g))) :=
  exec_of_indexed (i := .readSegment p t x) rfl rfl (by simp) ⟨rfl, rfl⟩ hn
    (fun h => by show handleReadSegment x s = _; rw [handleReadSegment, h])
    (fun g h => by show handleReadSegment x s = _; rw [handleReadSegment, h])

theorem engineBound_eq (n : Fin 4) : s.engineBound n = match (s.engine n).target with
    | .analog c => decide (s.boundEngine (analogChannel c) = some n)
    | .speed => decide (s.angle.source = .replay n) := by
  unfold State.engineBound
  cases (s.engine n).target with
  | analog c => exact beq_eq_decide _ _
  | speed => exact beq_eq_decide _ _

theorem readReplay_answers (hn : s.takesNow p = true) :
    (4 ≤ x.toNat → exec (.readReplay p t x) s = .next (s.answerNo p .readReplay t .badValue)) ∧
      ∀ n : Fin 4, x.toNat = n.1 → exec (.readReplay p t x) s = .next (s.answerOk p .readReplay t
        (.engineRead (s.engine n) ((s.engine n).current.map fun d => d.count - (s.engine n).k) (s.engineBound n))) :=
  exec_of_indexed (i := .readReplay p t x) rfl rfl (by simp) ⟨rfl, rfl⟩ hn
    (fun h => by show handleReadReplay x s = _; rw [handleReadReplay, h])
    (fun n h => by show handleReadReplay x s = _; rw [handleReadReplay, h])

theorem readCaptureState_answers (hn : s.takesNow p = true) :
    (16 ≤ x.toNat → exec (.readCaptureState p t x) s = .next (s.answerNo p .readCaptureState t .badValue)) ∧
      ∀ i : Fin 16, x.toNat = i.1 → exec (.readCaptureState p t x) s = .next (s.answerOk p .readCaptureState t
        (.captureRead (s.input i) ((List.finRange 16).map fun j => (s.input j).level)
          s.portM.captures.length s.portM.gap s.portB.captures.length s.portB.gap)) :=
  exec_of_indexed (i := .readCaptureState p t x) rfl rfl (by simp) ⟨rfl, rfl⟩ hn
    (fun h => by show handleReadCaptureState x s = _; rw [handleReadCaptureState, h])
    (fun i h => by show handleReadCaptureState x s = _; rw [handleReadCaptureState, h])

theorem rampHeld_eq : s.rampHeld =
    decide (s.run.mode = .run ∧ s.run.monitor.state = .late ∧ s.angle.source = .model) := by
  simp [State.rampHeld, beq_eq_decide, Bool.and_assoc]

/-- A read that answers from the state as it is. -/
theorem exec_of_read (hs : i.sender = some (p, t)) (he : encodePayload i = some (k, ws)) (hl : ws.length ≤ 255)
    (ha : k.allowed .M = true ∧ k.allowed .B = true) (hn : s.takesNow p = true) (h : handle i s = okay s b) :
    exec i s = .next (s.answerOk p k t b) := exec_of_okay hs he hl (allowed_of_both ha p) hn h

theorem handleReadNotices_eq : handleReadNotices p s = okay s (.notices (s.port p).flags (s.port p).enables
    (decide ((s.port p).flags &&& (s.port p).enables ≠ 0)) (decide ((s.port p).link = .synced))) := by
  simp [handleReadNotices, PortState.atn, bne, beq_eq_decide]

/-- Settles O18. -/
theorem readsAnswerState : Obligations.ReadsAnswerState := by
  refine ⟨fun s p t hn => ⟨?_, ?_, fun x staged => ⟨fun hx => ?_, fun q hq => ?_⟩, ?_⟩, fun s t hn => ?_,
    fun s p t x hn => ?_⟩
  · exact exec_of_read (i := .readRunState p t) rfl rfl (by simp) ⟨rfl, rfl⟩ hn rfl
  · exact exec_of_read (i := .readAngleBase p t) rfl rfl (by simp) ⟨rfl, rfl⟩ hn (by
      show handleReadAngleBase s = _
      rw [handleReadAngleBase, rampHeld_eq]
      rfl)
  · exact exec_of_refuse (i := .readPattern p t x staged) rfl rfl (by simp) (allowed_of_both ⟨rfl, rfl⟩ p) hn
      (handleReadPattern_of_bad hx)
  · exact exec_of_read (i := .readPattern p t x staged) rfl rfl (by simp) ⟨rfl, rfl⟩ hn
      (handleReadPattern_of_pattern (hq.trans (by cases q <;> rfl)))
  · exact exec_of_read (i := .readNotices p t) rfl rfl (by simp) ⟨rfl, rfl⟩ hn handleReadNotices_eq
  · exact exec_of_okay (i := .echo .B t) rfl rfl (by simp) rfl hn rfl
  · obtain ⟨hchannel, hchannels⟩ := readChannel_answers (t := t) (x := x) hn
    obtain ⟨hrelay, hrelays⟩ := readRelays_answers (t := t) (x := x) hn
    obtain ⟨hfault, hfaults⟩ := readFault_answers (t := t) (x := x) hn
    obtain ⟨hsegment, hsegments⟩ := readSegment_answers (t := t) (x := x) hn
    obtain ⟨hreplay, hreplays⟩ := readReplay_answers (t := t) (x := x) hn
    obtain ⟨hcapture, hcaptures⟩ := readCaptureState_answers (t := t) (x := x) hn
    refine ⟨fun h => ⟨hchannel h, hrelay h⟩, fun c h => ⟨hchannels c h, hrelays c h⟩, hfault, hfaults, hsegment,
      hsegments, hreplay, fun n h => ?_, hcapture, hcaptures⟩
    rw [hreplays n h, engineBound_eq] <;> cases (s.engine n).target <;> rfl

end Sys2Proof.Machine
end

section
/-! The angle count, the increment and the angle advance as arithmetic (R3, R6, R7), and the effective record of a channel
(R111). -/

namespace Sys2Proof.Machine

variable {s : State}

/-! ## Angle counts -/

theorem angleCount_eq (x : BitVec 32) : angleCount x = x.toNat * 45 / 16777216 := rfl

theorem increment_eq (v : Nat) : increment v = (v * 4294967296 + 240000000) / 480000000 := rfl

theorem increment_le {v : Nat} (hv : v ≤ 64000) : increment v ≤ 572662 := by
  rw [increment_eq]; omega

/-- The first phase value of an angle count. -/
def firstPhase (a : Nat) : Nat := (a * 16777216 + 44) / 45

theorem angleCount_eq_iff {x : BitVec 32} {a : Nat} : angleCount x = a ↔ firstPhase a ≤ x.toNat ∧ x.toNat < firstPhase (a + 1) := by
  rw [angleCount_eq, firstPhase, firstPhase]; omega

theorem firstPhase_succ (a : Nat) : firstPhase (a + 1) = firstPhase a + 372827 ∨ firstPhase (a + 1) = firstPhase a + 372828 := by
  rw [firstPhase, firstPhase]; omega

theorem angleAdvance_spec {a b : Nat} (ha : a < 11520) (hb : b < 11520) :
    angleAdvance a b < 11520 ∧ (a + angleAdvance a b) % 11520 = b := by
  rw [angleAdvance]; omega

theorem angleCount_lt (x : BitVec 32) : angleCount x < 11520 := by
  have hx := x.isLt
  rw [angleCount_eq]; omega

/-- The angle counts around a phase addition that is at most 572,662. -/
theorem angleAdvance_of_addition {x y n : Nat} (hx : x < 4294967296) (hn : n ≤ 572662) (hy : y = (x + n) % 4294967296) :
    angleAdvance (x * 45 / 16777216) (y * 45 / 16777216) ≤ 2 ∧
      (angleAdvance (x * 45 / 16777216) (y * 45 / 16777216) = 2 → 372827 < n) := by
  have hturn : y * 45 / 16777216 = (x + n) * 45 / 16777216 ∨ y * 45 / 16777216 + 11520 = (x + n) * 45 / 16777216 := by
    by_cases hwrap : x + n < 4294967296
    · exact .inl (by rw [hy, Nat.mod_eq_of_lt hwrap])
    · have hless : y + 4294967296 = x + n := by omega
      exact .inr (by rw [← hless]; omega)
  have hrise : x * 45 / 16777216 ≤ (x + n) * 45 / 16777216 ∧ (x + n) * 45 / 16777216 ≤ x * 45 / 16777216 + 2 ∧
      ((x + n) * 45 / 16777216 = x * 45 / 16777216 + 2 → 372827 < n) := by omega
  have hlow : x * 45 / 16777216 < 11520 ∧ y * 45 / 16777216 < 11520 := by omega
  rw [angleAdvance]
  generalize x * 45 / 16777216 = a at *
  generalize y * 45 / 16777216 = b at *
  generalize (x + n) * 45 / 16777216 = c at *
  omega

/-- Settles O14. -/
theorem angleCountAndIncrement : Obligations.AngleCountAndIncrement := by
  refine ⟨fun x => ?_, by decide, by decide, fun a ha => ?_, ⟨1, 0, 372828, 0, fun x => ?_⟩, fun v => ?_, fun v hv => increment_le hv,
    by decide, fun a b => angleAdvance_spec, fun x v hv => ⟨?_, ?_⟩⟩
  · have hx := x.isLt
    rw [angleCount_eq]
    refine ⟨rfl, ?_, ?_, ?_⟩ <;> omega
  · obtain h | h := firstPhase_succ a
    · exact ⟨firstPhase a, 372827, .inl rfl, fun x => h ▸ angleCount_eq_iff⟩
    · exact ⟨firstPhase a, 372828, .inr rfl, fun x => h ▸ angleCount_eq_iff⟩
  · exact ⟨angleCount_eq_iff, angleCount_eq_iff⟩
  · rw [increment_eq]; omega
  · exact (angleAdvance_spec (angleCount_lt _) (angleCount_lt _)).2
  · have hinc := increment_le hv
    have hsum : (x + BitVec.ofNat 32 (increment v)).toNat = (x.toNat + increment v) % 4294967296 := by
      rw [BitVec.toNat_add, BitVec.toNat_ofNat]
      omega
    exact angleAdvance_of_addition x.isLt hinc hsum

/-! ## The effective record (R111) -/

/-- A record that may shape the output of a channel: ACTIVE, electronic, on it. -/
def State.shapes (s : State) (c : Fin 24) (k : Fin 64) : Prop :=
  (s.fault k).state = .active ∧ (s.fault k).kind.electronic = true ∧ (s.fault k).target = c

/-- Record `k` goes before `j`: a higher level, or the same and a lower index. -/
def State.outranks (s : State) (k j : Fin 64) : Prop :=
  (s.fault j).level < (s.fault k).level ∨ (s.fault j).level = (s.fault k).level ∧ k ≤ j

/-- The best of the records of a list: none of them shapes the channel, or the one that does and outranks the others. -/
def State.bestOf (s : State) (c : Fin 24) (l : List (Fin 64)) : Option (Fin 64) → Prop
  | none => ∀ j ∈ l, ¬s.shapes c j
  | some k => k ∈ l ∧ s.shapes c k ∧ ∀ j ∈ l, s.shapes c j → s.outranks k j

theorem betterRecord_bestOf {c : Fin 24} {l : List (Fin 64)} {best : Option (Fin 64)} {k : Fin 64}
    (hb : s.bestOf c l best) (hl : ∀ j ∈ l, j < k) : s.bestOf c (l ++ [k]) (betterRecord s c best k) := by
  unfold betterRecord
  dsimp only
  split
  next hk =>
    have hself : s.outranks k k := .inr ⟨rfl, le_refl k⟩
    cases best with
    | none =>
      refine ⟨by simp, hk, fun j hj hs => ?_⟩
      rcases List.mem_append.1 hj with hj | hj
      · exact absurd hs (hb j hj)
      · rw [List.mem_singleton.1 hj]; exact hself
    | some b =>
      obtain ⟨hmem, hshape, hbest⟩ := hb
      dsimp only
      split
      next hlt =>
        refine ⟨by simp, hk, fun j hj hs => ?_⟩
        rcases List.mem_append.1 hj with hj | hj
        · obtain h | ⟨h, -⟩ := hbest j hj hs
          · exact .inl (h.trans hlt)
          · exact .inl (h ▸ hlt)
        · rw [List.mem_singleton.1 hj]; exact hself
      next hge =>
        refine ⟨by simp [hmem], hshape, fun j hj hs => ?_⟩
        rcases List.mem_append.1 hj with hj | hj
        · exact hbest j hj hs
        · rw [List.mem_singleton.1 hj]
          rcases Nat.lt_or_eq_of_le (not_lt.1 hge) with h | h
          · exact .inl h
          · exact .inr ⟨h, (hl b hmem).le⟩
  next hk =>
    cases best with
    | none =>
      intro j hj
      rcases List.mem_append.1 hj with hj | hj
      · exact hb j hj
      · rw [List.mem_singleton.1 hj]; exact hk
    | some b =>
      obtain ⟨hmem, hshape, hbest⟩ := hb
      refine ⟨by simp [hmem], hshape, fun j hj hs => ?_⟩
      rcases List.mem_append.1 hj with hj | hj
      · exact hbest j hj hs
      · rw [List.mem_singleton.1 hj] at hs
        exact absurd hs hk

theorem foldl_bestOf {c : Fin 24} (r : List (Fin 64)) : ∀ {l : List (Fin 64)} {best : Option (Fin 64)},
    (l ++ r).Pairwise (· < ·) → s.bestOf c l best → s.bestOf c (l ++ r) (r.foldl (betterRecord s c) best) := by
  induction r with
  | nil => intro l best _ hb; simpa using hb
  | cons k r ih =>
    intro l best hp hb
    have hl : ∀ j ∈ l, j < k := fun j hj => (List.pairwise_append.1 hp).2.2 j hj k (by simp)
    rw [List.append_cons] at hp ⊢
    exact ih hp (betterRecord_bestOf hb hl)

theorem effective_bestOf (c : Fin 24) : s.bestOf c (List.finRange 64) (s.effective c) :=
  foldl_bestOf (List.finRange 64) (l := []) (List.pairwise_lt_finRange 64) (fun _ h => nomatch h)

theorem outranks_antisymm {j k : Fin 64} (hj : s.outranks j k) (hk : s.outranks k j) : j = k := by
  rcases hj with h | ⟨h, hle⟩
  · rcases hk with h' | ⟨h', -⟩ <;> omega
  · rcases hk with h' | ⟨-, hle'⟩
    · omega
    · exact le_antisymm hle hle'

/-- Settles O21. -/
theorem effectiveRecordIsHighest : Obligations.EffectiveRecordIsHighest := by
  intro s c
  have hbest := effective_bestOf (s := s) c
  cases he : s.effective c with
  | none =>
    rw [he] at hbest
    refine ⟨⟨fun _ k => hbest k (List.mem_finRange k), fun _ => rfl⟩, fun k => ⟨nofun, fun hk => ?_⟩⟩
    exact absurd ⟨hk.1, hk.2.1, hk.2.2.1⟩ (hbest k (List.mem_finRange k))
  | some b =>
    rw [he] at hbest
    obtain ⟨-, hshape, hall⟩ := hbest
    refine ⟨⟨nofun, fun h => absurd hshape (h b)⟩, fun k => ⟨fun hk => ?_, fun ⟨ha, helec, ht, hk⟩ => ?_⟩⟩
    · cases hk
      exact ⟨hshape.1, hshape.2.1, hshape.2.2, fun j hj hje hjt => hall j (List.mem_finRange j) ⟨hj, hje, hjt⟩⟩
    · exact congrArg some (outranks_antisymm (hall k (List.mem_finRange k) ⟨ha, helec, ht⟩)
        (hk b hshape.1 hshape.2.1 hshape.2.2))

end Sys2Proof.Machine
end

section
/-! The output computations of the replay engines, and the millisecond boundary and the refresh that make them (R8 to
R12, R24 to R26, R37, R39, R139 to R143). -/

namespace Sys2Proof.Machine

variable {s : State} {g : Engine} {d : Descriptor} {n : Fin 4} {v : Event}

/-! ## Events that bring about no pass -/

/-- An event that is taken, with what is due and the mark of the list as they were. -/
theorem takeEvent_of_quiet (h : v ∈ s.due) (hq : s.noPassAfter v) (hd : ((s.took v).perform v).due = s.due.erase v)
    (hx : ((s.took v).perform v).examineDue = s.examineDue) : s.takeEvent v = (s.took v).perform v :=
  takeEvent_of_due h (by rw [hd, hx]; exact hq)

theorem no_advance_due (h : ∀ n, Event.replayAdvance n ∉ s.due) : ∀ e ∈ s.due, Event.isAdvance e = false := by
  intro e he
  cases e with
  | replayAdvance n => exact absurd he (h n)
  | _ => rfl

/-! ## Output computations (R139 to R141) -/

theorem fdiv_of_pos (a : Int) {b : Int} (h : 0 ≤ b) : Int.fdiv a b = a / b := Int.fdiv_eq_ediv_of_nonneg a h

theorem scale_eq (g : Engine) (a b : Int) (f : Nat) : g.scale a b f =
    Int.fdiv ((if g.interp then a + Int.fdiv ((b - a) * f) 256 else a) * g.gain) 4096 + g.offset := by
  rw [fdiv_of_pos _ (by decide), fdiv_of_pos _ (by decide)]
  rfl

theorem fraction_eq (g : Engine) (phase : BitVec 32) : g.fraction phase = match g.pacing with
    | .time p => g.e * 256 / p
    | .angle m => phase.toNat * m * 256 / 2 ^ 32 % 256 := by
  unfold Engine.fraction
  cases g.pacing <;> rfl

/-- The value of an output computation before its clamp (R140). -/
def State.computedValue (s : State) (g : Engine) (d : Descriptor) : Int :=
  g.scale (s.sampleAt d g.k) (if g.k + 1 < d.count then s.sampleAt d (g.k + 1) else s.sampleAt d g.k)
    (g.fraction s.angle.phase)

theorem computeOutput_of_plays (hr : g.state = .running) (hw : g.awaiting = false) (hd : g.current = some d) :
    computeOutput s g = { g with
      lastOut := some (clampInt 0 g.target.top (s.computedValue g d))
      clamped := decide (s.computedValue g d < 0 ∨ g.target.top < s.computedValue g d) } := by
  have h : computeOutput s g = g.output (s.computedValue g d) := by
    simp only [computeOutput, hr, hw, hd]
    rfl
  rw [h, Bool.decide_or]
  rfl

theorem computeOutput_of_not_plays (h : g.state ≠ .running ∨ g.awaiting = true ∨ g.current = none) :
    computeOutput s g = g := by
  unfold computeOutput
  split
  next hr hw hd =>
    rcases h with h | h | h
    · exact absurd hr h
    · rw [hw] at h; cases h
    · rw [hd] at h; cases h
  · rfl

/-- The parts of a computed value (R140). -/
theorem computedValue_parts (s : State) (g : Engine) (d : Descriptor) : ∃ (x y i : Int) (f : Nat),
    x = (memRead s.memory ((s.segment d.segment).base + d.first + g.k)).toInt ∧
    y = (if g.k + 1 < d.count then (memRead s.memory ((s.segment d.segment).base + d.first + g.k + 1)).toInt else x) ∧
    f = (match g.pacing with
      | .time p => g.e * 256 / p
      | .angle m => s.angle.phase.toNat * m * 256 / 2 ^ 32 % 256) ∧
    i = (if g.interp then x + Int.fdiv ((y - x) * f) 256 else x) ∧
    s.computedValue g d = Int.fdiv (i * g.gain) 4096 + g.offset :=
  ⟨_, _, _, _, rfl, rfl, fraction_eq g s.angle.phase, rfl, scale_eq g _ _ _⟩

/-! ## The SPEED target (R12, R143) -/

theorem computeSpeed_eq : s.computeSpeed = { s with
    engines := s.computeSpeed.engines, angle := { s.angle with target := s.computeSpeed.angle.target } } := by
  unfold State.computeSpeed
  dsimp only
  (repeat' split) <;> rfl

theorem computeOutput_computes (s : State) (g : Engine) : (computeOutput s g).computes = g.computes := by
  unfold computeOutput
  split
  · rfl
  · rfl

theorem computes_iff : g.computes = true ↔ g.state = .running ∧ g.awaiting = false ∧ g.current.isSome = true := by
  simp [Engine.computes, and_assoc]

theorem computeSpeed_engine_of_speed (h : (s.engine n).target = .speed) :
    s.computeSpeed.engine n = computeOutput s (s.engine n) := by
  rw [computeSpeed_engine]
  simp only [h]

theorem computeSpeed_engine_of_analog {c : Fin 12} (h : (s.engine n).target = .analog c) :
    s.computeSpeed.engine n = s.engine n := by
  rw [computeSpeed_engine]
  simp only [h]

theorem computeSpeed_target_of_source (h : s.angle.source = .replay n) : s.computeSpeed.angle.target =
    if (s.computeSpeed.engine n).target = .speed ∧ (s.computeSpeed.engine n).computes = true then
      ((s.computeSpeed.engine n).lastOut.getD 0).toNat else s.angle.target := by
  have hengines : s.computeSpeed.engines = mapV (fun _ g => match g.target with
      | .speed => computeOutput s g
      | .analog _ => g) s.engines := by
    unfold State.computeSpeed
    dsimp only
    (repeat' split) <;> rfl
  rw [State.engine, hengines, State.computeSpeed]
  simp only [h]
  exact apply_ite (fun v : State => v.angle.target) _ _ _

/-- The engine that the speed source names gives the target where it computes (R143). -/
theorem computeSpeed_target_of_plays (h : s.angle.source = .replay n) (ht : (s.engine n).target = .speed)
    (hp : (s.engine n).computes = true) :
    s.computeSpeed.angle.target = ((s.computeSpeed.engine n).lastOut.getD 0).toNat := by
  rw [computeSpeed_target_of_source h, computeSpeed_engine_of_speed ht]
  exact if_pos ⟨by rw [computeOutput_target, ht], by rw [computeOutput_computes, hp]⟩

theorem computeSpeed_target_of_not_plays (h : s.angle.source = .replay n)
    (hp : (s.engine n).target ≠ .speed ∨ (s.engine n).computes = false) :
    s.computeSpeed.angle.target = s.angle.target := by
  rw [computeSpeed_target_of_source h, if_neg]
  rintro ⟨ht, hc⟩
  cases htarget : (s.engine n).target with
  | analog c => rw [computeSpeed_engine_of_analog htarget, htarget] at ht; cases ht
  | speed =>
    rw [computeSpeed_engine_of_speed htarget, computeOutput_computes] at hc
    rcases hp with hp | hp
    · exact hp htarget
    · rw [hc] at hp; cases hp

theorem computeSpeed_target_of_other (h : ∀ n, s.angle.source ≠ .replay n) :
    s.computeSpeed.angle.target = s.angle.target := by
  unfold State.computeSpeed
  dsimp only
  split
  next n hn => exact absurd hn (h n)
  · rfl
  · rfl

/-! ## The ramp (R8, R9) -/

theorem rampBoundary_of_run (h : s.run.mode = .run) :
    s.rampBoundary = if s.rampHeld then s else s.updAngle AngleBase.rampStep := by
  simp only [State.rampBoundary, h]

theorem rampStep_eq (a : AngleBase) : a.rampStep = { a with speed := a.rampStep.speed } := by
  unfold AngleBase.rampStep
  split_ifs <;> rfl

/-- One ramp step toward the target (R8). -/
theorem rampStep_speed (a : AngleBase) : (a.ramp = 0 → a.rampStep.speed = a.target) ∧ (0 < a.ramp →
    (a.speed < a.target → a.rampStep.speed = min a.target (a.speed + a.ramp)) ∧
    (a.target < a.speed → a.rampStep.speed = max a.target (a.speed - a.ramp)) ∧
    (a.speed = a.target → a.rampStep.speed = a.speed)) := by
  unfold AngleBase.rampStep
  refine ⟨fun h => by rw [if_pos h], fun h => ⟨fun hlt => ?_, fun hlt => ?_, fun heq => ?_⟩⟩
  · rw [if_neg (by omega), if_pos hlt]
  · rw [if_neg (by omega), if_neg (by omega)]
  · rw [if_neg (by omega), if_neg (by omega)]
    show max a.target (a.speed - a.ramp) = a.speed
    omega

/-- The millisecond boundary in RUN (R8, R9, R143). -/
theorem takeMillisecond_of_run (h : s.run.mode = .run) : s.takeMillisecond =
    { s with
      engines := s.computeSpeed.engines
      angle := { s.angle with
        target := s.computeSpeed.angle.target
        speed := if s.rampHeld then s.angle.speed
          else (AngleBase.rampStep { s.angle with target := s.computeSpeed.angle.target }).speed } } := by
  have hheld : s.computeSpeed.rampHeld = s.rampHeld := by
    rw [computeSpeed_eq]
    rfl
  have hmode : s.computeSpeed.run.mode = .run := by
    rw [computeSpeed_eq]
    exact h
  rw [State.takeMillisecond, if_pos h, rampBoundary_of_run hmode, hheld]
  conv_lhs => rw [computeSpeed_eq]
  split
  · rfl
  · rw [State.updAngle, rampStep_eq]

theorem exec_millisecondBoundary (hdue : Event.millisecond ∈ s.due) (hadv : ∀ n, Event.replayAdvance n ∉ s.due)
    (hq : s.noPassAfter .millisecond) :
    exec .millisecondBoundary s = .next (s.took .millisecond).takeMillisecond := by
  have h : s.takeAfter Event.isAdvance .millisecond = (s.took .millisecond).takeMillisecond := by
    rw [takeAfter_of_none (no_advance_due hadv)]
    exact takeEvent_of_quiet hdue hq (by simp [State.perform]) (by simp [State.perform])
  rw [show exec .millisecondBoundary s = .next (s.takeAfter Event.isAdvance .millisecond) from rfl, h]

/-- Settles O15. -/
theorem millisecondRamps : Obligations.MillisecondRamps := by
  intro s hdue hadv hq
  rw [exec_millisecondBoundary hdue hadv hq]
  refine ⟨fun hm => ?_, fun hm => ?_, fun hm => ?_⟩
  · have hm' : (s.took .millisecond).run.mode = .config := hm
    rw [State.takeMillisecond, if_neg (by simp [hm])]
    simp only [State.rampBoundary, hm']
    rfl
  · have hm' : (s.took .millisecond).run.mode = .safe := hm
    rw [State.takeMillisecond, if_neg (by simp [hm])]
    simp only [State.rampBoundary, hm']
    rfl
  · set u := s.took .millisecond with hu
    have hm' : u.run.mode = .run := hm
    have hengine (n : Fin 4) : u.takeMillisecond.engine n = u.computeSpeed.engine n := by
      rw [takeMillisecond_of_run hm']; rfl
    have htarget : u.takeMillisecond.angle.target = u.computeSpeed.angle.target := by
      rw [takeMillisecond_of_run hm']
    have hspeed : u.takeMillisecond.angle.speed = if u.rampHeld then u.angle.speed
        else (AngleBase.rampStep { u.angle with target := u.computeSpeed.angle.target }).speed := by
      rw [takeMillisecond_of_run hm']
    have hheld : u.rampHeld = true ↔ s.run.monitor.state = .late ∧ s.angle.source = .model := by
      rw [rampHeld_eq, decide_eq_true_eq]
      exact ⟨fun h => h.2, fun h => ⟨hm, h⟩⟩
    refine ⟨u.takeMillisecond, rfl, ?_, fun n c hc => ?_, fun n hn => ?_, fun n d ht hr hw hd => ?_, fun hsrc => ?_,
      fun n hsrc hn => ?_, fun hl hsrc => ?_, fun hfree => ?_⟩
    · rw [takeMillisecond_of_run hm']; rfl
    · rw [hengine]; exact computeSpeed_engine_of_analog hc
    · rw [hengine]
      cases ht : (s.engine n).target with
      | analog c => exact computeSpeed_engine_of_analog ht
      | speed => exact (computeSpeed_engine_of_speed (s := u) ht).trans (computeOutput_of_not_plays hn)
    · obtain ⟨x, y, i, f, hx, hy, hf, hi, hv⟩ := computedValue_parts u (u.engine n) d
      have hout : u.takeMillisecond.engine n = { s.engine n with
          lastOut := some (clampInt 0 64000 (u.computedValue (u.engine n) d))
          clamped := decide (u.computedValue (u.engine n) d < 0 ∨ 64000 < u.computedValue (u.engine n) d) } := by
        have htop : (u.engine n).target.top = 64000 := by rw [show (u.engine n).target = .speed from ht]; rfl
        rw [hengine, computeSpeed_engine_of_speed (s := u) ht, computeOutput_of_plays (g := u.engine n) hr hw hd, htop]
        rfl
      refine ⟨x, y, i, u.computedValue (u.engine n) d, f, hx, hy, hf, hi, hv, hout, fun hsrc => ?_⟩
      have hcomp : (u.engine n).computes = true := computes_iff.2 ⟨hr, hw, by rw [show (u.engine n).current = _ from hd]; rfl⟩
      rw [htarget, computeSpeed_target_of_plays (s := u) hsrc ht hcomp, ← hengine, hout]
      simp only [Option.getD_some, clampInt]
      omega
    · rw [htarget]; exact computeSpeed_target_of_other hsrc
    · rw [htarget]
      refine computeSpeed_target_of_not_plays hsrc (hn.imp_right fun h => ?_)
      rw [Bool.eq_false_iff, Ne, computes_iff]
      rintro ⟨hr, hw, hd⟩
      rcases h with h | h | h
      · exact h hr
      · rw [show (s.engine n).awaiting = false from hw] at h; cases h
      · rw [show (u.engine n).current = none from h] at hd; cases hd
    · rw [hspeed, if_pos (hheld.2 ⟨hl, hsrc⟩)]
      rfl
    · have hnot : ¬u.rampHeld = true := fun h => by
        obtain ⟨hl, hsrc⟩ := hheld.1 h
        rcases hfree with h | h
        · exact h hl
        · exact h hsrc
      rw [htarget, hspeed, if_neg hnot]
      exact rampStep_speed { u.angle with target := u.computeSpeed.angle.target }

end Sys2Proof.Machine
end

section
/-! The base value of a channel (R24), and the refresh of the analog and switch channels (R25, R26, R37, R39, R142). -/

namespace Sys2Proof.Machine

variable {s u : State} {c : Fin 24} {n : Fin 4}

/-! ## Base values (R24) -/

/-- An engine's target is the channel. -/
def State.bound (s : State) (c : Fin 24) (n : Fin 4) : Bool :=
  match (s.engine n).target with
  | .analog a => analogChannel a == c
  | .speed => false

theorem bound_iff : s.bound c n = true ↔ ∃ a, (s.engine n).target = .analog a ∧ a.1 = c.1 := by
  unfold State.bound
  split
  next a ha =>
    rw [ha, beq_iff_eq, Fin.ext_iff]
    exact ⟨fun h => ⟨a, rfl, h⟩, fun ⟨b, hb, h⟩ => by cases hb; exact h⟩
  next h => simp [h]

theorem boundEngine_eq : s.boundEngine c = (List.finRange 4).find? (s.bound c) := rfl

theorem boundEngine_of_none (h : ∀ n a, (s.engine n).target = .analog a → a.1 ≠ c.1) : s.boundEngine c = none := by
  rw [boundEngine_eq, List.find?_eq_none]
  intro n _ hb
  obtain ⟨a, ha, hc⟩ := bound_iff.1 hb
  exact h n a ha hc

/-- The lowest engine that is bound to the channel counts. -/
theorem boundEngine_of_first {a : Fin 12} (ha : (s.engine n).target = .analog a) (hc : a.1 = c.1)
    (hlow : ∀ m < n, ∀ b, (s.engine m).target = .analog b → b.1 ≠ c.1) : s.boundEngine c = some n := by
  have hn : s.bound c n = true := bound_iff.2 ⟨a, ha, hc⟩
  have hbelow (m : Fin 4) (hm : m < n) : s.bound c m = false := by
    rw [Bool.eq_false_iff]
    intro hb
    obtain ⟨b, hb, hbc⟩ := bound_iff.1 hb
    exact hlow m hm b hb hbc
  have hsplit : ∀ n : Fin 4, List.finRange 4 = (List.finRange 4).take n.1 ++ n :: (List.finRange 4).drop (n.1 + 1) ∧
      ∀ m ∈ (List.finRange 4).take n.1, m < n := by decide
  rw [boundEngine_eq, List.find?_eq_some_iff_append]
  exact ⟨hn, _, _, (hsplit n).1, fun m hm => by rw [hbelow m ((hsplit n).2 m hm)]; rfl⟩

theorem baseValue_congr (hs : (u.channel c).source = (s.channel c).source) (hl : (u.channel c).live = (s.channel c).live)
    (hf : (u.channel c).forced = (s.channel c).forced) (he : u.engines = s.engines) : u.baseValue c = s.baseValue c := by
  have hengine (n : Fin 4) : u.engine n = s.engine n := by rw [State.engine, State.engine, he]
  simp only [State.baseValue, State.boundEngine, hs, hl, hf, hengine]

theorem baseValue_of_source (c : Fin 24) :
    ((s.channel c).source = .live → s.baseValue c = (s.channel c).live) ∧
    ((s.channel c).source = .forced → s.baseValue c = (s.channel c).forced) ∧
    ((s.channel c).source = .replay → s.boundEngine c = none → s.baseValue c = {}) ∧
    ((s.channel c).source = .replay → ∀ n, s.boundEngine c = some n →
      s.baseValue c = { value := (s.engine n).lastOut.getD 0 }) := by
  refine ⟨fun h => ?_, fun h => ?_, fun h hb => ?_, fun h n hb => ?_⟩
  · simp only [State.baseValue, h]
  · simp only [State.baseValue, h]
  · simp only [State.baseValue, h, hb]
  · simp only [State.baseValue, h, hb]

/-! ## The refresh -/

theorem computeAnalog_engine (n : Fin 4) : s.computeAnalog.engine n = match (s.engine n).target with
    | .analog _ => computeOutput s (s.engine n)
    | .speed => s.engine n := by
  simp only [State.computeAnalog, State.engine, mapV_get] <;> rfl

theorem refreshChannels_channel (c : Fin 24) : s.refreshChannels.channel c = match kindOf c with
    | .analog => refreshAnalog s c (s.channel c)
    | .switch => refreshSwitch s c (s.channel c)
    | .pulse => s.channel c := by
  simp only [State.refreshChannels, State.channel, mapV_get] <;> rfl

theorem takeRefresh_engines : s.takeRefresh.engines = s.computeAnalog.engines := by
  simp only [State.takeRefresh, State.refreshChannels]

theorem takeRefresh_engine (n : Fin 4) : s.takeRefresh.engine n = s.computeAnalog.engine n := by
  rw [State.engine, State.engine, takeRefresh_engines]

theorem computeAnalog_channel (c : Fin 24) : s.computeAnalog.channel c = s.channel c := by
  simp only [State.computeAnalog, State.channel]

/-- A refresh keeps the base value it has computed. -/
theorem takeRefresh_baseValue (c : Fin 24) : s.takeRefresh.baseValue c = s.computeAnalog.baseValue c := by
  have hchannel : (s.takeRefresh.channel c).source = (s.channel c).source ∧
      (s.takeRefresh.channel c).live = (s.channel c).live ∧ (s.takeRefresh.channel c).forced = (s.channel c).forced := by
    rw [State.takeRefresh, refreshChannels_channel, computeAnalog_channel]
    split <;> exact ⟨rfl, rfl, rfl⟩
  obtain ⟨hsource, hlive, hforced⟩ := hchannel
  exact baseValue_congr (by rw [hsource, computeAnalog_channel]) (by rw [hlive, computeAnalog_channel])
    (by rw [hforced, computeAnalog_channel]) takeRefresh_engines

theorem exec_analogRefresh (hdue : Event.refresh ∈ s.due) (hadv : ∀ n, Event.replayAdvance n ∉ s.due)
    (hq : s.noPassAfter .refresh) : exec .analogRefresh s = .next (s.took .refresh).takeRefresh := by
  have h : s.takeAfter Event.isAdvance .refresh = (s.took .refresh).takeRefresh := by
    rw [takeAfter_of_none (no_advance_due hadv)]
    exact takeEvent_of_quiet hdue hq (by simp [State.perform]) (by simp [State.perform])
  rw [show exec .analogRefresh s = .next (s.takeAfter Event.isAdvance .refresh) from rfl, h]

/-- The value that enters the overlay of a channel at a refresh (R39). -/
theorem enteringValue_eq : s.computeAnalog.enteringValue c =
    if s.run.mode = .safe then ((s.channel c).safe : Int) else (s.takeRefresh.baseValue c).value := by
  rw [takeRefresh_baseValue, State.enteringValue, computeAnalog_channel]
  simp

theorem takeRefresh_analog (hk : kindOf c = .analog) :
    s.takeRefresh.channel c = refreshAnalog s.computeAnalog c (s.channel c) := by
  rw [State.takeRefresh, refreshChannels_channel, computeAnalog_channel]
  simp only [hk]

theorem takeRefresh_switch (hk : kindOf c = .switch) :
    s.takeRefresh.channel c = refreshSwitch s.computeAnalog c (s.channel c) := by
  rw [State.takeRefresh, refreshChannels_channel, computeAnalog_channel]
  simp only [hk]

theorem takeRefresh_pulse (hk : kindOf c = .pulse) : s.takeRefresh.channel c = s.channel c := by
  rw [State.takeRefresh, refreshChannels_channel, computeAnalog_channel]
  simp only [hk]

/-- The refresh of an analog channel (R25, R26, R39, R110). -/
theorem takeRefresh_analog_parts (hk : kindOf c = .analog) : ∃ (b v : Int) (r : Half),
    b = (if s.run.mode = .safe then ((s.channel c).safe : Int) else (s.takeRefresh.baseValue c).value) ∧
    r = (if (s.effectiveRecord c).any (fun f => f.kind == .noise) then noiseNext (s.channel c).noise
      else (s.channel c).noise) ∧
    v = analogOverlay (s.effectiveRecord c) r b ∧
    s.takeRefresh.channel c = { s.channel c with
      noise := r
      drawn := (s.effectiveRecord c).any fun f => f.kind == .noise
      lastOutput := (clampInt 0 4000 v).toNat
      clamped := decide (v < 0 ∨ 4000 < v)
      pin := if (s.channel c).driver = .driving then (clampInt 0 4000 v).toNat else (s.channel c).pin } := by
  have heff : s.computeAnalog.effectiveRecord = s.effectiveRecord := effectiveRecord_congr (by simp)
  have henter := enteringValue_eq (s := s) (c := c)
  rw [takeRefresh_analog hk, refreshAnalog, heff, drawsNoise_eq, henter]
  refine ⟨_, _, _, rfl, rfl, rfl, ?_⟩
  rw [Bool.decide_or]

/-- The refresh of a switch channel (R37, R39). -/
theorem takeRefresh_switch_parts (hk : kindOf c = .switch) : ∃ (b : Int) (l : Nat),
    b = (if s.run.mode = .safe then ((s.channel c).safe : Int) else (s.takeRefresh.baseValue c).value) ∧
    l = (switchOverlay (s.effectiveRecord c) b).toNat ∧
    s.takeRefresh.channel c = { s.channel c with
      lastOutput := l
      pin := if (s.channel c).driver = .driving then
        (if (s.channel c).inverted then 1 - l else l) else (s.channel c).pin } := by
  have heff : s.computeAnalog.effectiveRecord = s.effectiveRecord := effectiveRecord_congr (by simp)
  have henter := enteringValue_eq (s := s) (c := c)
  rw [takeRefresh_switch hk, refreshSwitch, heff, henter]
  exact ⟨_, _, rfl, rfl, rfl⟩

theorem took_effectiveRecord (e : Event) : (s.took e).effectiveRecord = s.effectiveRecord := effectiveRecord_congr rfl

/-- Settles O19. -/
theorem refreshComputesOutputs : Obligations.RefreshComputesOutputs := by
  refine ⟨fun s c => ?_, fun s hdue hadv hq => ⟨(s.took .refresh).takeRefresh, exec_analogRefresh hdue hadv hq, ?_,
    fun n hn => ?_, fun n a d ht hr hw hd => ?_, fun c hc => takeRefresh_pulse hc, fun c hc => ?_, fun c hc => ?_⟩⟩
  · obtain ⟨hlive, hforced, hnone, hsome⟩ := baseValue_of_source (s := s) c
    exact ⟨hlive, hforced, fun hsrc => ⟨fun h => hnone hsrc (boundEngine_of_none h),
      fun n a ha hac hlow => hsome hsrc n (boundEngine_of_first ha hac hlow)⟩⟩
  · apply State.ext <;> simp [State.takeRefresh]
  · rw [takeRefresh_engine, computeAnalog_engine]
    split
    next ht =>
      rcases hn with hn | hn
      · rw [show (s.engine n).target = _ from ht] at hn; cases hn
      · exact computeOutput_of_not_plays hn
    · rfl
  · obtain ⟨x, y, i, f, hx, hy, hf, hi, hv⟩ := computedValue_parts (s.took .refresh) (s.engine n) d
    refine ⟨x, y, i, _, f, hx, hy, hf, hi, hv, ?_⟩
    have hout : (s.took .refresh).takeRefresh.engine n = computeOutput (s.took .refresh) (s.engine n) := by
      rw [takeRefresh_engine, computeAnalog_engine]
      simp only [show ((s.took .refresh).engine n).target = _ from ht] <;> rfl
    have htop : (s.engine n).target.top = 4000 := by rw [ht]; rfl
    rw [hout, computeOutput_of_plays hr hw hd, htop]
  · have h := takeRefresh_analog_parts (s := s.took .refresh) hc
    rw [took_effectiveRecord] at h
    exact h
  · have h := takeRefresh_switch_parts (s := s.took .refresh) hc
    rw [took_effectiveRecord] at h
    exact h

end Sys2Proof.Machine
end

section
/-! The overlays of the electronic records, the wheel evaluation and the noise source (R35, R36, R105 to R110). -/

namespace Sys2Proof.Machine

variable {s : State} {c : Fin 24} {f : FaultRecord} {r : Half} {b : Int}

/-! ## Value overlays (R105 to R107) -/

theorem noiseDraw_range (r : Half) (n : Nat) : -(n : Int) ≤ noiseDraw r n ∧ noiseDraw r n ≤ n := by
  have hlow := Int.emod_nonneg (r.toNat : Int) (b := 2 * (n : Int) + 1) (by omega)
  have hhigh := Int.emod_lt_of_pos (r.toNat : Int) (b := 2 * (n : Int) + 1) (by omega)
  rw [noiseDraw]
  omega

theorem overlays_of_stuckAt (h : f.kind = .stuckAt) :
    analogOverlay (some f) r b = f.param.num ∧ switchOverlay (some f) b = f.param.num := by
  constructor <;> simp only [analogOverlay, switchOverlay, h]

theorem overlays_of_freeze (h : f.kind = .freeze) : analogOverlay (some f) r b = ((f.frozen.getD 0 : Nat) : Int) ∧
    switchOverlay (some f) b = ((f.frozen.getD 0 : Nat) : Int) := by
  constructor <;> simp only [analogOverlay, switchOverlay, h]

theorem overlays_of_offset (h : f.kind = .offset) :
    analogOverlay (some f) r b = b + f.param.num ∧ periodOverlay (some f) r b = b + f.param.num := by
  constructor <;> simp only [analogOverlay, periodOverlay, h]

theorem overlays_of_gain (h : f.kind = .gain) :
    analogOverlay (some f) r b = b * f.param.num / 4096 ∧ periodOverlay (some f) r b = b * f.param.num / 4096 := by
  constructor <;> simp only [analogOverlay, periodOverlay, h]

theorem overlays_of_noise (h : f.kind = .noise) : analogOverlay (some f) r b = b + noiseDraw r f.param.num ∧
    periodOverlay (some f) r b = b + noiseDraw r f.param.num := by
  constructor <;> simp only [analogOverlay, periodOverlay, h]

theorem periodOverlay_of_level (h : f.kind = .stuckAt ∨ f.kind = .freeze) : periodOverlay (some f) r b = b := by
  rcases h with h | h <;> simp only [periodOverlay, h]

/-! ## Level overlays (R109) -/

theorem pulsePin_of_stuckAt {inverted active : Bool} (h : f.kind = .stuckAt) :
    pulsePin (some f) inverted active = (polarLevel inverted (f.param.num == 1), false) := by
  simp only [pulsePin, h]

theorem pulsePin_of_freeze {inverted active : Bool} (h : f.kind = .freeze) :
    pulsePin (some f) inverted active = (f.frozen.getD 0, true) := by
  simp only [pulsePin, h]

theorem pulsePin_of_other {inverted active : Bool} (hs : f.kind ≠ .stuckAt) (hf : f.kind ≠ .freeze) :
    pulsePin (some f) inverted active = pulsePin none inverted active := by
  cases hk : f.kind with
  | stuckAt => exact absurd hk hs
  | freeze => exact absurd hk hf
  | _ => simp only [pulsePin, hk]

theorem polarLevel_of_level {inverted : Bool} {l : Int} (h : l = 0 ∨ l = 1) :
    polarLevel inverted (l == 1) = if inverted then 1 - l.toNat else l.toNat := by
  rcases h with rfl | rfl <;> cases inverted <;> rfl

/-! ## The wheel (R35, R36, R108) -/

theorem pattern_span (q : Pattern) : q.span = if q = .crank then 5760 else 11520 := by cases q <;> rfl

/-- The channel angle, up to whole turns of the pattern (R35). -/
theorem channelAngle_eq (a o : Nat) (shift : Int) (q : Pattern) : ∃ k : Int,
    (channelAngle a o shift q.span : Int) = a - o - shift + q.span * k ∧ channelAngle a o shift q.span < q.span := by
  have hspan : q.span = 5760 ∨ q.span = 11520 := by rw [pattern_span]; split <;> simp
  have hturn (l : Nat) (hl : l = 5760 ∨ l = 11520) : ∃ k : Int,
      (channelAngle a o shift l : Int) = a - o - shift + l * k ∧ channelAngle a o shift l < l := by
    rcases hl with rfl | rfl
    · refine ⟨((channelAngle a o shift 5760 : Int) - (a - o - shift)) / 5760, ?_, ?_⟩ <;> unfold channelAngle <;> omega
    · refine ⟨((channelAngle a o shift 11520 : Int) - (a - o - shift)) / 11520, ?_, ?_⟩ <;> unfold channelAngle <;> omega
  exact hturn q.span hspan

/-- The windows of a list, numbered from `i` on, that hold an angle (R36). -/
theorem inWindows_iff {x : Nat} {tooth : Option Int} (l : List Window) : ∀ i : Nat, inWindows x tooth i l = true ↔
    ∃ (j : Nat) (w : Window), l[j]? = some w ∧ w.start ≤ x ∧ x < w.stop ∧ tooth ≠ some ((i + j : Nat) : Int) := by
  induction l with
  | nil => intro i; simp [inWindows]
  | cons w l ih =>
    intro i
    rw [inWindows, Bool.or_eq_true, ih (i + 1)]
    simp only [Bool.and_eq_true, decide_eq_true_eq]
    constructor
    · rintro (⟨⟨hs, hx⟩, ht⟩ | ⟨j, v, hj, hs, hx, ht⟩)
      · exact ⟨0, w, rfl, hs, hx, by simpa using ht⟩
      · exact ⟨j + 1, v, hj, hs, hx, by rw [show i + (j + 1) = i + 1 + j by omega]; exact ht⟩
    · rintro ⟨j, v, hj, hs, hx, ht⟩
      cases j with
      | zero => cases hj; exact .inl ⟨⟨hs, hx⟩, by simpa using ht⟩
      | succ j => exact .inr ⟨j, v, hj, hs, hx, by rw [show i + 1 + j = i + (j + 1) by omega]; exact ht⟩

/-- The range of an EXTRA_TOOTH record goes round (R108). -/
theorem wraps_iff {l x a w : Nat} (ha : a < l) (hx : x < l) (hw : w ≤ l) :
    (x + l - a) % l < w ↔ ∃ j < w, (a + j) % l = x := by
  by_cases hax : a ≤ x
  · have hmod : (x + l - a) % l = x - a := by
      rw [show x + l - a = x - a + l by omega, Nat.add_mod_right, Nat.mod_eq_of_lt (by omega)]
    rw [hmod]
    refine ⟨fun h => ⟨x - a, h, by rw [show a + (x - a) = x by omega, Nat.mod_eq_of_lt hx]⟩, fun ⟨j, hj, h⟩ => ?_⟩
    by_cases hlt : a + j < l
    · rw [Nat.mod_eq_of_lt hlt] at h; omega
    · rw [Nat.mod_eq_sub_mod (by omega), Nat.mod_eq_of_lt (by omega)] at h; omega
  · have hmod : (x + l - a) % l = x + l - a := Nat.mod_eq_of_lt (by omega)
    rw [hmod]
    refine ⟨fun h => ⟨x + l - a, h, by rw [show a + (x + l - a) = x + l by omega, Nat.add_mod_right, Nat.mod_eq_of_lt hx]⟩,
      fun ⟨j, hj, h⟩ => ?_⟩
    by_cases hlt : a + j < l
    · rw [Nat.mod_eq_of_lt hlt] at h; omega
    · rw [Nat.mod_eq_sub_mod (by omega), Nat.mod_eq_of_lt (by omega)] at h; omega

theorem inExtraTooth_of_other {e : Option FaultRecord} {l x : Nat} (h : ∀ f, e = some f → f.kind ≠ .extraTooth) :
    inExtraTooth e l x = false := by
  unfold inExtraTooth
  split
  next f =>
    split
    next hk _ => exact absurd hk (h f rfl)
    · rfl
  · rfl

theorem inExtraTooth_of_extra {l x a w : Nat} (hk : f.kind = .extraTooth) (hp : f.param = .extra a w) :
    inExtraTooth (some f) l x = decide ((x + l - a) % l < w) := by
  simp only [inExtraTooth, hk, hp]

/-! ## The noise source (R110) -/

theorem noiseNext_eq (x : Half) : noiseNext x = (x >>> 1) ^^^ (if x.toNat % 2 = 1 then 0xB400 else 0) := by
  have hbit : x.getLsbD 0 = true ↔ x.toNat % 2 = 1 := by
    rw [BitVec.getLsbD, Nat.testBit_zero, decide_eq_true_eq]
  unfold noiseNext
  by_cases h : x.toNat % 2 = 1
  · rw [if_pos (hbit.2 h), if_pos h]
  · rw [if_neg (mt hbit.1 h), if_neg h]
    exact BitVec.xor_zero.symm

/-- The highest bit of the next value is the lowest of the value before, and the others follow from the rest. -/
theorem noiseNext_top (x : Half) : (noiseNext x).getLsbD 15 = x.getLsbD 0 := by
  unfold noiseNext
  split
  next h => rw [h]; simp
  next h => simpa using (Bool.eq_false_of_not_eq_true h).symm

theorem noiseNext_injective {x y : Half} (h : noiseNext x = noiseNext y) : x = y := by
  have hlow : x.getLsbD 0 = y.getLsbD 0 := by rw [← noiseNext_top, ← noiseNext_top, h]
  have hshift : x >>> 1 = y >>> 1 := by
    unfold noiseNext at h
    rw [hlow] at h
    split at h
    · exact (BitVec.xor_left_inj _).1 h
    · exact h
  refine BitVec.eq_of_getLsbD_eq fun i hi => ?_
  cases i with
  | zero => exact hlow
  | succ i =>
    have hbit := congrArg (fun z => BitVec.getLsbD z i) hshift
    simpa [BitVec.getLsbD_ushiftRight, Nat.add_comm] using hbit

/-- Settles O20. -/
theorem overlaysAndNoise : Obligations.OverlaysAndNoise := by
  refine ⟨fun f r b => ⟨overlays_of_stuckAt, fun h v hv => ?_, overlays_of_offset, fun h => ?_, fun h n hn => ?_,
      periodOverlay_of_level, rfl, rfl, rfl⟩,
    fun f inverted active => ⟨fun h l hl hlevel => ?_, fun h v hv => ?_, pulsePin_of_other, rfl⟩, fun s c => ?_,
    fun e l x => inExtraTooth_of_other, fun f l x a w hk hp ha hx hw => ?_, noiseNext_eq, fun x => noiseNext_ne_zero,
    fun x y => noiseNext_injective, by rw [reset_channel]; decide, by rw [reset_channel]; decide,
    by rw [reset_channel]; decide⟩
  · simpa only [hv, Option.getD_some] using overlays_of_freeze (r := r) (b := b) h
  · rw [fdiv_of_pos _ (by decide)]
    exact overlays_of_gain h
  · have hnum : f.param.num = n := by rw [hn]; rfl
    obtain ⟨hlow, hhigh⟩ := noiseDraw_range r n
    exact ⟨noiseDraw r n, rfl, hlow, hhigh, hnum ▸ overlays_of_noise h⟩
  · rw [pulsePin_of_stuckAt h, hl]
    exact congrArg (·, false) (polarLevel_of_level hlevel)
  · rw [pulsePin_of_freeze h, hv]
    rfl
  · obtain ⟨q, hx, hlt⟩ := channelAngle_eq s.angleNow (s.channel c).offset (wheelShift (s.effectiveRecord c)) (s.channel c).pattern
    refine ⟨_, _, wheelShift (s.effectiveRecord c), q, missingTooth (s.effectiveRecord c), pattern_span _, fun h => ?_,
      fun k h => ?_, hx, hlt, ?_⟩
    · rw [State.effectiveRecord, h]; exact ⟨rfl, rfl⟩
    · rw [State.effectiveRecord, h]; exact ⟨rfl, rfl⟩
    · rw [State.wheelActive, Bool.or_eq_true, inWindows_iff]
      simp only [Nat.zero_add]
  · rw [inExtraTooth_of_extra hk hp, decide_eq_true_eq]
    exact wraps_iff ha hx hw

end Sys2Proof.Machine
end

section
/-! What the Fault Table and the Relay Matrix keep of what they do not write, and the events of the sampled lines, the
drivers and the deadline monitor (R41, R62, R169, R170, R174, R178, R180). -/

namespace Sys2Proof.Machine

variable {s t u : State} {k : Fin 64} {c : Fin 24}

/-! ## What no operation on records and relays undoes -/

/-- What must be shown of a property for every operation on records and relays to keep it. -/
structure Unmoved (P : State → Prop) : Prop where
  tables : ∀ (s : State) f r b w j x, P s →
    P { s with faults := f, relays := r, buses := b, waitList := w, joining := j, examineDue := x }
  shown : ∀ s c, P s → P (s.showFree c)
  raiseSet : ∀ (s : State) l, P s → P (s.raiseSet l .faultEvent)
  due : ∀ (s : State) l, P s → P { s with due := l }

namespace Unmoved

variable {P : State → Prop} (h : Unmoved P)
include h

theorem updFault (f : FaultRecord → FaultRecord) (hs : P s) : P (s.updFault k f) := h.tables s _ _ _ _ _ _ hs

theorem updRelaySet (f : RelaySet → RelaySet) (hs : P s) : P (s.updRelaySet c f) := h.tables s _ _ _ _ _ _ hs

theorem enterDone (hs : P s) : P (s.enterDone k) := h.raiseSet _ _ (h.updFault _ hs)

theorem enterFailed (why : FailReason) (hs : P s) : P (s.enterFailed k why) := h.raiseSet _ _ (h.updFault _ hs)

theorem enterActive (hs : P s) : P (s.enterActive k) := by
  unfold State.enterActive
  dsimp only
  split
  · exact h.shown _ _ (h.raiseSet _ _ (h.updFault _ hs))
  · exact h.raiseSet _ _ (h.updFault _ hs)

omit h in
/-- A fold of an operation that keeps the property. -/
theorem foldl {α : Type} {f : State → α → State} (hf : ∀ s a, P s → P (f s a)) (l : List α) (hs : P s) :
    P (l.foldl f s) := by
  induction l generalizing s with
  | nil => exact hs
  | cons a l ih => exact ih (hf s a hs)

theorem fireFuel (n : Nat) : ∀ {s : State} {k : Fin 64}, P s → P (fireFuel n s k) := by
  induction n with
  | zero => exact fun hs => hs
  | succ n ih =>
    intro s k hs
    rw [fireFuel_succ]
    split_ifs
    · exact foldl (fun _ _ hu => ih hu) _ (h.enterActive hs)
    · exact h.enterFailed _ hs
    · exact h.tables s _ _ _ _ _ _ hs
    · exact hs

theorem fire (hs : P s) : P (s.fire k) := h.fireFuel 65 hs

theorem produce (e : FaultEvent) (hs : P s) : P (s.produce k e) := foldl (fun _ _ hu => h.fire hu) _ hs

theorem endActivation (hs : P s) : P (s.endActivation k) := by
  have hstamped : P ((s.stamped k).produce k .stop) := h.produce _ (h.updFault _ hs)
  have hended : P (((s.stamped k).produce k .stop).rearmedOrDone k) := by
    unfold State.rearmedOrDone
    split
    · exact h.updFault _ hstamped
    · exact h.enterDone hstamped
  rw [endActivation_eq]
  split
  · exact h.shown _ _ hended
  · exact hended

theorem runSteps (i : Nat) (l : List (List Wish)) (hs : P s) : P (runSteps s i l).1 := by
  rw [runSteps_eq]
  exact h.tables s _ _ _ _ _ _ hs

theorem releaseHolders (hs : P s) : P (s.releaseHolders k) := h.tables s _ _ _ _ _ _ hs

theorem stopComplete (hs : P s) : P (s.stopComplete k) := h.endActivation (h.releaseHolders (h.updFault _ hs))

theorem goOn (b : Bool) (i : Nat) {done : State → Fin 64 → State} (hdone : ∀ u, P u → P (done u k)) (hs : P s) :
    P (s.goOn k b i done) := by
  unfold State.goOn
  dsimp only
  split
  · exact h.updFault _ (h.runSteps _ _ hs)
  · exact hdone _ (h.runSteps _ _ hs)

theorem beginStop (hs : P s) : P (s.beginStop k) := h.goOn true 0 (fun _ hu => h.stopComplete hu) (h.updFault _ hs)

theorem startComplete (hs : P s) : P (s.startComplete k) := by
  have hactive : P (((s.unsequenced k).enterActive k).produce k .start) := h.produce _ (h.enterActive (h.updFault _ hs))
  rw [startComplete_eq]
  split
  · exact h.beginStop hactive
  · exact hactive

theorem beginStart (hs : P s) : P (s.beginStart k) := h.goOn false 0 (fun _ hu => h.startComplete hu) (h.updFault _ hs)

theorem withBus (b : Bus) (hs : P s) : P (s.withBus k b) := h.tables s _ _ _ _ _ _ hs

theorem take (hs : P s) : P (s.take k) := by
  have hheld : P (s.heldBy k) := h.tables s _ _ _ _ _ _ hs
  rw [take_eq]
  split_ifs
  · exact h.enterFailed _ hs
  · exact h.enterFailed _ hs
  · refine h.beginStart ?_
    unfold State.withFreeBus
    split
    · exact h.withBus _ hheld
    · exact hheld
  · exact h.beginStart hheld

theorem examine (hs : P s) : P s.examine := by
  have hpass (l : List (Fin 64)) : ∀ acc : State × List (Fin 64), P acc.1 → P (l.foldl examineOne acc).1 := by
    induction l with
    | nil => exact fun _ hu => hu
    | cons k l ih =>
      intro acc hu
      refine ih _ ?_
      unfold examineOne
      dsimp only
      split
      · exact h.take hu
      · exact hu
  exact h.tables _ _ _ _ _ _ _ (hpass s.wholeList _ (h.tables s _ _ _ _ _ _ hs))

theorem settle (hs : P s) : P s.settle := by
  have hfuel (n : Nat) : ∀ {u : State}, P u → P (settleFuel n u) := by
    induction n with
    | zero => exact fun hu => hu
    | succ n ih =>
      intro u hu
      unfold settleFuel
      split
      · exact ih (h.examine hu)
      · exact hu
  exact hfuel 65 hs

theorem safeRecord (hs : P s) : P (s.safeRecord k) := by
  unfold State.safeRecord
  split
  · exact h.enterDone hs
  · exact h.enterDone (h.tables s _ _ _ _ _ _ hs)
  · exact h.updFault _ hs
  · exact h.updFault _ hs
  · dsimp only
    split
    · exact h.endActivation (h.updFault _ hs)
    · exact h.beginStop (h.updFault _ hs)
  all_goals exact hs

theorem safeFaults (hs : P s) : P s.safeFaults := foldl (fun _ _ hu => h.safeRecord hu) _ hs

theorem fireCounted (hs : P s) : P s.fireCounted := by
  unfold State.fireCounted
  split
  · refine foldl (fun u e hu => ?_) _ (h.due s _ hs)
    cases e with
    | onCapture k =>
      show P (u.takeOnCapture k)
      unfold State.takeOnCapture
      split
      · exact h.fire hu
      · exact hu
    | _ => exact hu
  · exact hs

theorem fireAtAngle (b d : Nat) (c c' : Half) (hs : P s) : P (s.fireAtAngle b d c c') := by
  unfold State.fireAtAngle
  split
  · exact foldl (fun _ _ hu => h.fire hu) _ hs
  · exact hs

end Unmoved

/-! ## Sticky flags -/

/-- A notice set reaches the ports it names (R195). -/
def names (l : PortSet) (p : Port) : Bool :=
  match p with
  | .M => l.m
  | .B => l.b

theorem raiseSet_port (s : State) (l : PortSet) (n : Notice) (p : Port) :
    (s.raiseSet l n).port p = if names l p then (s.port p).raise n else s.port p := by
  cases p <;> rfl

theorem raise_sticky {q : PortState} {n : Notice} {i : Nat} (h : q.sticky.getLsbD i = true) :
    (q.raise n).sticky.getLsbD i = true := by
  simp [PortState.raise, h]

theorem raise_sticky_self (q : PortState) (n : Notice) : (q.raise n).sticky.getLsbD n.bit = true := by
  have hmask : (Notice.mask n).getLsbD n.bit = true := by cases n <;> decide
  rw [PortState.raise, BitVec.getLsbD_or, hmask, Bool.or_true]

theorem raise_sticky_ne {q : PortState} {n : Notice} {i : Nat} (h : i ≠ n.bit) :
    (q.raise n).sticky.getLsbD i = q.sticky.getLsbD i := by
  have hmask : (Notice.mask n).getLsbD i = false := by
    rw [Notice.mask, BitVec.getLsbD_ofNat, Nat.testBit_two_pow_of_ne (Ne.symm h), Bool.and_false]
  rw [PortState.raise, BitVec.getLsbD_or, hmask, Bool.or_false]

/-- A sticky flag that is set stays set. -/
theorem unmoved_sticky (p : Port) (i : Nat) : Unmoved fun s => (s.port p).sticky.getLsbD i = true where
  tables _ _ _ _ _ _ _ hs := by cases p <;> exact hs
  shown s c hs := by cases p <;> simpa [State.port] using hs
  raiseSet s l hs := by
    rw [raiseSet_port]
    split
    · exact raise_sticky hs
    · exact hs
  due _ _ hs := by cases p <;> exact hs

/-- The flags that no operation on records and relays sets stay as they are. -/
theorem unmoved_other_sticky (p : Port) {i : Nat} {b : Bool} (hi : i ≠ 2) :
    Unmoved fun s => (s.port p).sticky.getLsbD i = b where
  tables _ _ _ _ _ _ _ hs := by cases p <;> exact hs
  shown s c hs := by cases p <;> simpa [State.port] using hs
  raiseSet s l hs := by
    have hraise (q : PortState) : (q.raise .faultEvent).sticky.getLsbD i = q.sticky.getLsbD i := raise_sticky_ne hi
    rw [raiseSet_port]
    split
    · exact (hraise _).trans hs
    · exact hs
  due _ _ hs := by cases p <;> exact hs

end Sys2Proof.Machine
end

section
/-! The events of the drivers, of the sampled lines and of the deadline monitor (R41, R62, R169, R170, R174, R178, R180). -/

namespace Sys2Proof.Machine

variable {s t u : State} {k : Fin 64} {c : Fin 24}

/-! ## Driver trips (R41) -/

theorem drives_iff : s.drives c = true ↔ (s.channel c).driver = .driving ∧ (s.relaySet c).inService = true := by
  simp [State.drives]

theorem limitSample_eq (a b : Bool) (t : Option Nat) : limitSample a b t =
    if a = true ∧ b = true then (match t with | none => some 0 | some n => some (n + 1)) else none := by
  unfold limitSample
  cases a <;> cases b <;> cases t <;> rfl

theorem driverTrip_mem_sampleLimits : Event.driverTrip c ∈ s.sampleLimits.due ↔
    Event.driverTrip c ∈ s.due ∨ (s.sampleLimits.channel c).limitTicks = some 1000 := by
  have hdue : s.sampleLimits.due = s.due ++ ((List.finRange 24).filter fun c =>
      (s.sampleLimits.channel c).limitTicks == some 1000).map Event.driverTrip := rfl
  rw [hdue]
  simp

/-- Settles O27. -/
theorem driverTrips : Obligations.DriverTrips := by
  refine ⟨fun s c hdue hq hd hr hl => ?_, fun s c hdue => ?_, fun s c => ⟨?_, driverTrip_mem_sampleLimits⟩⟩
  · have htrip : (s.took (.driverTrip c)).takeDriverTrip c =
        ((s.took (.driverTrip c)).updChannel c fun ch => { ch with driver := .tripped, limitTicks := none }).raiseBoth
          .overcurrent := if_pos ⟨drives_iff.2 ⟨hd, hr⟩, hl⟩
    have h : s.takeEvent (.driverTrip c) = (s.took (.driverTrip c)).takeDriverTrip c :=
      takeEvent_of_quiet hdue hq (by simp [State.perform]) (by simp [State.perform])
    rw [show exec (.driverTrip c) s = .next (s.takeEvent (.driverTrip c)) from rfl, h, htrip]
    rfl
  · rw [show exec (.driverTrip c) s = .next (s.takeEvent (.driverTrip c)) from rfl, takeEvent_of_not_due hdue]
  · rw [sampleLimits_channel, limitSample_eq]
    simp only [drives_iff, and_assoc] <;> rfl

/-! ## Entry to SAFE: what it leaves of the ports, the angle and the inputs (R174) -/

theorem enterSafe_sticky {why : SafeCause} {p : Port} {i : Nat} (h : (s.port p).sticky.getLsbD i = true) :
    ((s.enterSafe why).port p).sticky.getLsbD i = true := by
  by_cases hm : s.run.mode = .run
  · have hentry : ((s.safeEntry why).port p).sticky.getLsbD i = true := by
      have hcounted := (unmoved_sticky p i).fireCounted h
      cases p <;> exact raise_sticky hcounted
    have hports : (s.safeEntry why).haltGenerators.port p = (s.safeEntry why).port p := by cases p <;> simp [State.port]
    have hlast (v : State) : v.pauseEngines.port p = v.port p := by cases p <;> simp [State.port]
    rw [enterSafe_eq why hm, hlast]
    exact (unmoved_sticky p i).safeFaults (by rw [hports]; exact hentry)
  · rw [enterSafe_of_not_run why hm]
    exact h

theorem enterSafe_announced {why : SafeCause} (hm : s.run.mode = .run) (p : Port) :
    ((s.enterSafe why).port p).sticky.getLsbD 7 = true := by
  have hentry : ((s.safeEntry why).port p).sticky.getLsbD 7 = true := by
    cases p <;> exact raise_sticky_self _ .safeEntered
  have hports : (s.safeEntry why).haltGenerators.port p = (s.safeEntry why).port p := by cases p <;> simp [State.port]
  have hlast (v : State) : v.pauseEngines.port p = v.port p := by cases p <;> simp [State.port]
  rw [enterSafe_eq why hm, hlast]
  exact (unmoved_sticky p 7).safeFaults (by rw [hports]; exact hentry)

theorem enterSafe_angle {why : SafeCause} (hm : s.run.mode = .run) :
    (s.enterSafe why).angle = { s.angle with target := 0 } := by
  rw [enterSafe_eq why hm]
  simp [State.safeEntry]

/-- What an entry to SAFE and the pass of the wait list that follows it leave of all but the records and the pins. -/
theorem settled_enterSafe {why : SafeCause} (hm : s.run.mode = .run) :
    (s.enterSafe why).settle.run =
        { s.run with mode := .safe, cause := some ⟨why, s.rigTime⟩, monitor := { s.run.monitor with timer := none } } ∧
      (∀ p, ((s.enterSafe why).settle.port p).sticky.getLsbD 7 = true) ∧
      (s.enterSafe why).settle.angle = { s.angle with target := 0 } ∧
      (s.enterSafe why).settle.memory = s.memory ∧ (s.enterSafe why).settle.inputs = s.inputs := by
  have hangle := enterSafe_angle (why := why) hm
  refine ⟨?_, fun p => (unmoved_sticky p 7).settle (enterSafe_announced hm p), ?_, ?_, ?_⟩
  · have hrun := enterSafe_run s why
    rw [if_pos hm] at hrun
    simpa using hrun
  · simpa using hangle
  · simp
  · simp

/-- The state of the SAFE line after its four samples (R169). -/
def State.lineChanged (s : State) : State := s.updRun fun r => { r with safe := r.safe.change }

theorem lineChanged_run (s : State) : s.lineChanged.run = { s.run with safe := ⟨!s.run.safe.level, 0⟩ } := by
  simp [State.lineChanged, LineFilter.change]

theorem takeSafeLine_eq (hc : s.run.safe.count = 4) : s.takeSafeLine =
    if s.lineChanged.run.safe.level = true then s.lineChanged.enterSafe .safeLine else s.lineChanged := if_pos hc

theorem takeSafeLine_quiet (hc : s.run.safe.count = 4) (hm : s.run.mode ≠ .run ∨ s.run.safe.level = true) :
    s.takeSafeLine = s.lineChanged := by
  refine (takeSafeLine_eq hc).trans (ite_eq_right_iff.2 fun hlevel => enterSafe_of_not_run _ ?_)
  rw [lineChanged_run] at hlevel ⊢
  exact hm.resolve_right (by simpa using hlevel)

theorem takeSafeLine_asserted (hc : s.run.safe.count = 4) (hl : s.run.safe.level = false) :
    s.takeSafeLine = s.lineChanged.enterSafe .safeLine :=
  (takeSafeLine_eq hc).trans (if_pos (by rw [lineChanged_run, hl]; rfl))

/-- Settles O30. -/
theorem sampledLinesChange : Obligations.SampledLinesChange := by
  refine ⟨fun f l => rfl, fun s => ⟨rfl, by simp [State.sampleSafeLine], fun h => ?_, fun h => ?_⟩,
    fun s hdue hq hc => ?_, fun s hdue hq hc hm => ?_, fun s hdue hc hm hl => ?_⟩
  · simp [State.sampleBattery, h]
  · simp [State.sampleSafeLine, h]
  · have h : s.takeEvent .battery = (s.took .battery).takeBattery :=
      takeEvent_of_quiet hdue hq (by simp [State.perform]) (by simp [State.perform])
    rw [show exec .batteryFlagChange s = .next (s.takeEvent .battery) from rfl, h]
    exact congrArg Host.Outcome.next (if_pos hc)
  · have htake : (s.took .safeLine).takeSafeLine = (s.took .safeLine).lineChanged := takeSafeLine_quiet hc hm
    have h : s.takeEvent .safeLine = (s.took .safeLine).takeSafeLine :=
      takeEvent_of_quiet hdue hq (by rw [State.perform, htake]; rfl) (by rw [State.perform, htake]; rfl)
    rw [show exec .safeLineChange s = .next (s.takeEvent .safeLine) from rfl, h, htake]
    rfl
  · have htake : (s.took .safeLine).takeSafeLine = (s.took .safeLine).lineChanged.enterSafe .safeLine :=
      takeSafeLine_asserted hc hl
    obtain ⟨hrun, hsticky, hrest⟩ := settled_enterSafe (s := (s.took .safeLine).lineChanged) (why := .safeLine) hm
    refine ⟨((s.took .safeLine).lineChanged.enterSafe .safeLine).settle, ?_, ?_, hsticky .M, hsticky .B, hrest⟩
    · rw [show exec .safeLineChange s = .next (s.takeEvent .safeLine) from rfl, State.takeEvent, if_pos hdue,
        State.perform, htake]
    · have hlevel : (s.took .safeLine).run.safe.level = false := hl
      rw [hrun, lineChanged_run, hlevel]
      rfl

/-! ## The deadline monitor (R178, R180) -/

/-- The state as a deadline miss is counted and announced. -/
def State.missed (s : State) : State := (s.updRun fun r => { r with monitor := r.monitor.miss }).raiseBoth .deadlineMissed

theorem takeDeadline_eq (hm : s.run.mode = .run) (ht : s.run.monitor.timer = some 0) : s.takeDeadline =
    if s.missed.run.monitor.state = .lost then s.missed.enterSafe .deadlineLost else s.missed := if_pos ⟨hm, ht⟩

theorem missed_run (s : State) : s.missed.run = { s.run with monitor := s.run.monitor.miss } := by
  simp [State.missed]

theorem missed_sticky (p : Port) : (s.missed.port p).sticky.getLsbD 6 = true := by
  cases p <;> exact raise_sticky_self _ .deadlineMissed

theorem miss_of_below {m : Monitor} (h : m.misses + 1 < m.limit) :
    m.miss = { m with misses := m.misses + 1, state := .late, timer := some (10 * m.deadline) } := if_pos h

theorem miss_of_limit {m : Monitor} (h : m.limit ≤ m.misses + 1) :
    m.miss = { m with misses := m.misses + 1, state := .lost, timer := none } := if_neg (by omega)

theorem missed_of_below (hl : s.run.monitor.misses + 1 < s.run.monitor.limit) : s.missed =
    (s.updRun fun r => { r with monitor :=
      { r.monitor with misses := r.monitor.misses + 1, state := .late, timer := some (10 * r.monitor.deadline) } }).raiseBoth
        .deadlineMissed :=
  congrArg (fun m => (s.updRun fun r => { r with monitor := m }).raiseBoth .deadlineMissed) (miss_of_below hl)

theorem takeDeadline_below (hm : s.run.mode = .run) (ht : s.run.monitor.timer = some 0)
    (hl : s.run.monitor.misses + 1 < s.run.monitor.limit) : s.takeDeadline = s.missed := by
  rw [takeDeadline_eq hm ht, missed_run, miss_of_below hl, if_neg (by simp)]

theorem takeDeadline_limit (hm : s.run.mode = .run) (ht : s.run.monitor.timer = some 0)
    (hl : s.run.monitor.limit ≤ s.run.monitor.misses + 1) : s.takeDeadline = s.missed.enterSafe .deadlineLost := by
  rw [takeDeadline_eq hm ht, missed_run, miss_of_limit hl, if_pos rfl]

theorem tickMonitor_of_running {n : Nat} (hm : s.run.mode = .run) (ht : s.run.monitor.timer = some (n + 1)) :
    s.tickMonitor = (s.updRun fun r => { r with monitor := { r.monitor with timer := some n } }).addDue
      (if n + 1 ≤ 1 then [.deadline] else []) := by
  simp only [State.tickMonitor, hm, ht, Nat.add_sub_cancel]

/-- Settles O52. -/
theorem deadlineExpires : Obligations.DeadlineExpires := by
  refine ⟨fun s hdue hm ht => ⟨fun hq hl => ?_, fun hl => ?_⟩, fun s hdue => ?_, fun s => ⟨fun h => ?_, fun n hm ht => ?_⟩⟩
  · have htake : (s.took .deadline).takeDeadline = (s.took .deadline).missed := takeDeadline_below hm ht hl
    have h : s.takeEvent .deadline = (s.took .deadline).takeDeadline :=
      takeEvent_of_quiet hdue hq (by rw [State.perform, htake]; rfl) (by rw [State.perform, htake]; rfl)
    rw [show exec .deadlineExpiry s = .next (s.takeEvent .deadline) from rfl, h, htake,
      missed_of_below (s := s.took .deadline) hl]
    rfl
  · have htake : (s.took .deadline).takeDeadline = (s.took .deadline).missed.enterSafe .deadlineLost :=
      takeDeadline_limit hm ht hl
    obtain ⟨hrun, hsticky, hrest⟩ := settled_enterSafe (s := (s.took .deadline).missed) (why := .deadlineLost) hm
    refine ⟨((s.took .deadline).missed.enterSafe .deadlineLost).settle, ?_, ?_, fun p => ⟨?_, hsticky p⟩, hrest⟩
    · rw [show exec .deadlineExpiry s = .next (s.takeEvent .deadline) from rfl, State.takeEvent, if_pos hdue,
        State.perform, htake]
    · have hmiss : (s.took .deadline).run.monitor.miss =
          { s.run.monitor with misses := s.run.monitor.misses + 1, state := .lost, timer := none } := miss_of_limit hl
      rw [hrun, missed_run, hmiss]
      rfl
    · exact (unmoved_sticky p 6).settle (enterSafe_sticky (missed_sticky p))
  · rw [show exec .deadlineExpiry s = .next (s.takeEvent .deadline) from rfl, takeEvent_of_not_due hdue]
  · unfold State.tickMonitor
    split
    next n hm ht =>
      rw [hm, ht] at h
      simp at h
    next => rfl
  · rw [tickMonitor_of_running hm ht]
    refine ⟨by simp, ?_, ?_⟩
    · rintro rfl
      simp
    · intro h
      rw [if_neg (by omega)]
      simp

end Sys2Proof.Machine
end

section
/-! The relays of one channel: what a step, a normalisation and a recovery do to its relay set (R51, R57, R60), and the
requests on notices (R42, R60, R196, R198, R199). -/

namespace Sys2Proof

/-- The relays but PATH wanted open (R57). -/
def RelaySet.broken (t : RelayTiming) (x : RelaySet) : RelaySet :=
  { x with relays := ⟨x.relays.path, x.relays.gnd.want t .opened, x.relays.bat.want t .opened,
    x.relays.x0.want t .opened, x.relays.x1.want t .opened⟩ }

/-- PATH wanted closed (R57). -/
def RelaySet.joined (t : RelayTiming) (x : RelaySet) : RelaySet :=
  { x with relays := { x.relays with path := x.relays.path.want t .closed } }

/-- A relay but PATH is moving. -/
def RelaySet.breaks (x : RelaySet) : Bool :=
  x.relays.gnd.state.moving || x.relays.bat.state.moving || x.relays.x0.state.moving || x.relays.x1.state.moving

/-- A relay set at the joining step of its normalisation, or back in service where PATH does not move (R57, R60). -/
def RelaySet.rejoined (t : RelayTiming) (x : RelaySet) : RelaySet :=
  if (x.joined t).relays.path.state.moving then { x.joined t with normalising := some .joining }
  else { x.joined t with normalising := none, inService := true }

/-- A relay set whose normalisation begins (R57). -/
def RelaySet.normalised (t : RelayTiming) (x : RelaySet) : RelaySet :=
  if (x.broken t).breaks then { x.broken t with normalising := some .breaking } else (x.broken t).rejoined t

end Sys2Proof

namespace Sys2Proof.Machine

variable {s t u : State} {c d : Fin 24} {k : Fin 64} {x : RelaySet}

/-! ## Steps on one channel (R51) -/

theorem updRelaySet_updRelaySet (s : State) (c : Fin 24) (f g : RelaySet → RelaySet) :
    (s.updRelaySet c f).updRelaySet c g = s.updRelaySet c fun x => g (f x) := by
  unfold State.updRelaySet
  rw [updV_updV]

theorem updRelaySet_congr {f g : RelaySet → RelaySet} (h : f (s.relaySet c) = g (s.relaySet c)) :
    s.updRelaySet c f = s.updRelaySet c g := by
  unfold State.updRelaySet
  rw [updV_congr h]

theorem wantedIn_want (t : RelayTiming) (pos : Position) (y : Relay) : wantedIn t pos y (y.want t pos) := by
  unfold wantedIn Relay.want
  by_cases hm : y.state.moving = true
  · rw [if_pos hm, if_pos (.inl hm)]
  · by_cases hr : y.state = pos.rest ∧ y.failed = false
    · rw [if_neg hm, if_pos hr, if_pos (.inr hr)]
    · rw [if_neg hm, if_neg hr, if_neg (not_or.2 ⟨hm, hr⟩)]
      rfl

theorem breaks_iff : x.breaks = true ↔ ∃ r, r ≠ .path ∧ (x.relays.get r).state.moving = true := by
  unfold RelaySet.breaks
  rw [Bool.or_eq_true, Bool.or_eq_true, Bool.or_eq_true]
  constructor
  · rintro (((h | h) | h) | h)
    · exact ⟨.gnd, by decide, h⟩
    · exact ⟨.bat, by decide, h⟩
    · exact ⟨.x0, by decide, h⟩
    · exact ⟨.x1, by decide, h⟩
  · rintro ⟨r, hr, h⟩
    cases r with
    | path => exact absurd rfl hr
    | gnd => exact .inl (.inl (.inl h))
    | bat => exact .inl (.inl (.inr h))
    | x0 => exact .inl (.inr h)
    | x1 => exact .inr h

theorem runStep_breaking (s : State) (c : Fin 24) :
    s.runStep [(c, .gnd, .opened), (c, .bat, .opened), (c, .x0, .opened), (c, .x1, .opened)] =
      s.updRelaySet c (RelaySet.broken s.timing) := by
  simp only [State.runStep, List.foldl_cons, List.foldl_nil, State.wish, updRelaySet_updRelaySet,
    State.updRelaySet_timing]
  rfl

theorem runStep_joining (s : State) (c : Fin 24) :
    s.runStep [(c, .path, .closed)] = s.updRelaySet c (RelaySet.joined s.timing) := rfl

theorem stepMoving_breaking (s : State) (c : Fin 24) :
    s.stepMoving [(c, .gnd, .opened), (c, .bat, .opened), (c, .x0, .opened), (c, .x1, .opened)] =
      (s.relaySet c).breaks := by
  simp only [State.stepMoving, List.any_cons, List.any_nil, Bool.or_false, RelaySet.breaks, Bool.or_assoc]
  rfl

theorem stepMoving_joining (s : State) (c : Fin 24) :
    s.stepMoving [(c, .path, .closed)] = (s.relaySet c).relays.path.state.moving := by
  simp only [State.stepMoving, List.any_cons, List.any_nil, Bool.or_false]
  rfl

theorem rejoined_holder (t : RelayTiming) (x : RelaySet) : (x.rejoined t).holder = x.holder := by
  unfold RelaySet.rejoined
  split <;> rfl

theorem normalised_holder (t : RelayTiming) (x : RelaySet) : (x.normalised t).holder = x.holder := by
  unfold RelaySet.normalised
  split
  · rfl
  · exact rejoined_holder t _

/-- What a normalisation under way had been marked with does not count as it begins. -/
theorem normalised_of_marked (t : RelayTiming) (x : RelaySet) (n : Option NormStep) :
    ({ x with normalising := n } : RelaySet).normalised t = x.normalised t := rfl

theorem rejoined_normalising (t : RelayTiming) (x : RelaySet) : (x.rejoined t).normalising =
    if (x.joined t).relays.path.state.moving then some .joining else none := by
  unfold RelaySet.rejoined
  split <;> rfl

theorem rejoined_begins (t : RelayTiming) (x : RelaySet) : ∃ p : Relay, wantedIn t .closed x.relays.path p ∧
    x.rejoined t = { x with
      normalising := if p.state.moving then some .joining else none
      inService := if p.state.moving then x.inService else true
      relays := { x.relays with path := p } } := by
  refine ⟨x.relays.path.want t .closed, wantedIn_want t .closed _, ?_⟩
  unfold RelaySet.rejoined RelaySet.joined
  split <;> simp_all

theorem normalised_begins (t : RelayTiming) (x : RelaySet) : normalisationBegins t x (x.normalised t) := by
  refine ⟨(x.broken t).relays, rfl, fun r hr => ?_, fun h => ?_, fun h => ?_⟩
  · cases r with
    | path => exact absurd rfl hr
    | gnd | bat | x0 | x1 => exact wantedIn_want t .opened _
  · exact if_pos (breaks_iff.2 h)
  · have hb : ¬(x.broken t).breaks = true := fun hb => by
      obtain ⟨r, hr, hm⟩ := breaks_iff.1 hb
      simp [h r hr] at hm
    obtain ⟨p, hp, heq⟩ := rejoined_begins t (x.broken t)
    exact ⟨p, hp, (if_neg hb).trans heq⟩

/-! ## A normalisation on its channel (R57, R60) -/

theorem runSteps_first {i : Nat} {l : List Wish} {rest : List (List Wish)} (h : (s.runStep l).stepMoving l = true) :
    runSteps s i (l :: rest) = (s.runStep l, some i) := if_pos h

theorem runSteps_next {i : Nat} {l : List Wish} {rest : List (List Wish)} (h : (s.runStep l).stepMoving l = false) :
    runSteps s i (l :: rest) = runSteps (s.runStep l) (i + 1) rest := if_neg (by simp [h])

/-- From the joining step a normalisation goes on by its relay set alone, and ends where PATH does not move (R57). -/
theorem normFrom_one (s : State) (c : Fin 24) : s.normFrom c 1 =
    if ((s.relaySet c).joined s.timing).relays.path.state.moving then
      s.updRelaySet c (RelaySet.rejoined s.timing)
    else (s.updRelaySet c (RelaySet.rejoined s.timing)).normEnded c := by
  have hsteps : (normSteps c).drop 1 = [[(c, .path, .closed)]] := rfl
  have hmoving : (s.runStep [(c, .path, .closed)]).stepMoving [(c, .path, .closed)] =
      ((s.relaySet c).joined s.timing).relays.path.state.moving := by
    rw [runStep_joining, stepMoving_joining, State.updRelaySet_relaySet_self]
  cases hb : ((s.relaySet c).joined s.timing).relays.path.state.moving with
  | true =>
    have hf : (s.relaySet c).rejoined s.timing =
      { (s.relaySet c).joined s.timing with normalising := some .joining } := if_pos hb
    rw [if_pos rfl, State.normFrom, hsteps, runSteps_first (hmoving.trans hb), runStep_joining]
    simp only [updRelaySet_updRelaySet]
    exact updRelaySet_congr hf.symm
  | false =>
    have hf : (s.relaySet c).rejoined s.timing =
      { (s.relaySet c).joined s.timing with normalising := none, inService := true } := if_neg (by rw [hb]; decide)
    rw [if_neg (by decide), State.normFrom, hsteps, runSteps_next (hmoving.trans hb), runStep_joining]
    simp only [runSteps, State.normSucceeds, updRelaySet_updRelaySet]
    exact congrArg (State.normEnded · c) (updRelaySet_congr hf.symm)

/-- A normalisation begins by its relay set alone, and ends where no relay has to move (R57). -/
theorem normFrom_zero (s : State) (c : Fin 24) : s.normFrom c 0 =
    if ((s.relaySet c).normalised s.timing).normalising = none then
      (s.updRelaySet c (RelaySet.normalised s.timing)).normEnded c
    else s.updRelaySet c (RelaySet.normalised s.timing) := by
  have hsteps : (normSteps c).drop 0 = [[(c, .gnd, .opened), (c, .bat, .opened), (c, .x0, .opened), (c, .x1, .opened)],
    [(c, .path, .closed)]] := rfl
  have hmoving : (s.runStep [(c, .gnd, .opened), (c, .bat, .opened), (c, .x0, .opened), (c, .x1, .opened)]).stepMoving
      [(c, .gnd, .opened), (c, .bat, .opened), (c, .x0, .opened), (c, .x1, .opened)] =
        ((s.relaySet c).broken s.timing).breaks := by
    rw [runStep_breaking, stepMoving_breaking, State.updRelaySet_relaySet_self]
  cases hb : ((s.relaySet c).broken s.timing).breaks with
  | true =>
    have hf : (s.relaySet c).normalised s.timing =
      { (s.relaySet c).broken s.timing with normalising := some .breaking } := if_pos hb
    rw [if_neg (by rw [hf]; exact Option.some_ne_none _), State.normFrom, hsteps,
      runSteps_first (hmoving.trans hb), runStep_breaking]
    simp only [updRelaySet_updRelaySet]
    exact updRelaySet_congr hf.symm
  | false =>
    have hf : (s.relaySet c).normalised s.timing = ((s.relaySet c).broken s.timing).rejoined s.timing :=
      if_neg (by rw [hb]; decide)
    have hnext : s.normFrom c 0 = (s.updRelaySet c (RelaySet.broken s.timing)).normFrom c 1 := by
      rw [State.normFrom, hsteps, runSteps_next (hmoving.trans hb), runStep_breaking]
      rfl
    rw [hnext, normFrom_one, updRelaySet_updRelaySet, State.updRelaySet_relaySet_self, State.updRelaySet_timing, hf,
      updRelaySet_congr hf.symm, rejoined_normalising]
    cases (((s.relaySet c).broken s.timing).joined s.timing).relays.path.state.moving <;> rfl

theorem normEnded_of_free (h : (s.relaySet c).holder = none) : s.normEnded c = s := by
  simp only [State.normEnded, h]

/-- A free channel's normalisation begins at its own relay set (R60). -/
theorem normFrom_of_free (h : (s.relaySet c).holder = none) :
    s.normFrom c 0 = s.updRelaySet c (RelaySet.normalised s.timing) := by
  have hfree : ((s.updRelaySet c (RelaySet.normalised s.timing)).relaySet c).holder = none := by
    rw [State.updRelaySet_relaySet_self, normalised_holder, h]
  rw [normFrom_zero, normEnded_of_free hfree, ite_self]

/-! ## Recoveries (R60) -/

/-- Only the relay sets differ. -/
def State.relaysOnly (s t : State) : Prop := t = { s with relays := t.relays }

theorem relaysOnly_updRelaySet (f : RelaySet → RelaySet) (h : s.relaysOnly t) : s.relaysOnly (t.updRelaySet c f) := by
  unfold State.relaysOnly at h ⊢
  rw [h]
  rfl

theorem relaysOnly_refl (s : State) : s.relaysOnly s := rfl

theorem relaysOnly_timing (h : s.relaysOnly t) : t.timing = s.timing := by
  rw [h]

/-- Channels with no holder, marked or not, whose normalisations begin one after the other. -/
theorem beginAll_of_free (l : List (Fin 24)) (hfree : ∀ c ∈ l, (t.relaySet c).holder = none) (ht : s.relaysOnly t)
    (hl : l.Nodup) : s.relaysOnly (l.foldl (fun u c => u.normFrom c 0) t) ∧
      ∀ d, (l.foldl (fun u c => u.normFrom c 0) t).relaySet d =
        if d ∈ l then (t.relaySet d).normalised s.timing else t.relaySet d := by
  induction l generalizing t with
  | nil => exact ⟨ht, fun d => (if_neg (List.not_mem_nil)).symm⟩
  | cons c l ih =>
    obtain ⟨hc, hl⟩ := List.nodup_cons.1 hl
    have hstep : t.normFrom c 0 = t.updRelaySet c (RelaySet.normalised s.timing) := by
      rw [normFrom_of_free (hfree c List.mem_cons_self), relaysOnly_timing ht]
    rw [List.foldl_cons, hstep]
    obtain ⟨honly, hset⟩ := ih (t := t.updRelaySet c (RelaySet.normalised s.timing)) (fun d hd => by
      rw [State.updRelaySet_relaySet]
      split
      next h => exact absurd (h ▸ hd) hc
      next => exact hfree d (List.mem_cons_of_mem _ hd)) (relaysOnly_updRelaySet _ ht) hl
    refine ⟨honly, fun d => ?_⟩
    rw [hset d, State.updRelaySet_relaySet]
    by_cases hd : c = d
    · subst hd
      rw [if_neg hc, if_pos rfl, if_pos List.mem_cons_self]
    · simp [hd, Ne.symm hd]

theorem markNormalising_marks (l : List (Fin 24)) (ht : s.relaysOnly t) : s.relaysOnly (t.markNormalising l) ∧
    ∀ d, (t.markNormalising l).relaySet d =
      if d ∈ l then { t.relaySet d with normalising := some .breaking } else t.relaySet d := by
  induction l generalizing t with
  | nil => exact ⟨ht, fun d => (if_neg (List.not_mem_nil)).symm⟩
  | cons c l ih =>
    obtain ⟨honly, hset⟩ := ih (t := t.updRelaySet c fun x => { x with normalising := some .breaking })
      (relaysOnly_updRelaySet _ ht)
    refine ⟨honly, fun d => (hset d).trans ?_⟩
    rw [State.updRelaySet_relaySet]
    by_cases hd : c = d
    · subst hd
      simp
    · simp [hd, Ne.symm hd]

/-- Normalisations that begin on free channels are each its own channel's (R60). -/
theorem beginNorms_of_free {l : List (Fin 24)} (hfree : ∀ c ∈ l, (s.relaySet c).holder = none) (hl : l.Nodup) :
    s.relaysOnly (s.beginNorms l) ∧ ∀ d, (s.beginNorms l).relaySet d =
      if d ∈ l then (s.relaySet d).normalised s.timing else s.relaySet d := by
  obtain ⟨honly, hmarked⟩ := markNormalising_marks l (relaysOnly_refl s)
  obtain ⟨hnorm, hset⟩ := beginAll_of_free l (fun c hc => by rw [hmarked c, if_pos hc]; exact hfree c hc) honly hl
  refine ⟨hnorm, fun d => (hset d).trans ?_⟩
  rw [hmarked d]
  split <;> rfl

/-- A channel that a Port B clear of RELAY_FAULT brings back (R60, R61). -/
def State.recovers (s : State) (c : Fin 24) : Prop :=
  (s.relaySet c).inService = false ∧ (s.channel c).keepOut = false ∧ (s.relaySet c).normalising = none ∧
    (s.relaySet c).holder = none

theorem recover_spec (s : State) : s.relaysOnly s.recover ∧
    (∀ c, s.recovers c → s.recover.relaySet c = (s.relaySet c).normalised s.timing) ∧
    ∀ c, ¬s.recovers c → s.recover.relaySet c = s.relaySet c := by
  have hmem (c : Fin 24) : (c ∈ (List.finRange 24).filter fun c => !(s.relaySet c).inService && !(s.channel c).keepOut &&
      (s.relaySet c).normalising.isNone && (s.relaySet c).holder.isNone) ↔ s.recovers c := by
    simp [State.recovers, and_assoc]
  obtain ⟨honly, hset⟩ := beginNorms_of_free (s := s) (fun c hc => ((hmem c).1 hc).2.2.2)
    ((List.nodup_finRange 24).filter _)
  exact ⟨honly, fun c hc => (hset c).trans (if_pos ((hmem c).2 hc)),
    fun c hc => (hset c).trans (if_neg fun h => hc ((hmem c).1 h))⟩

theorem restore_eq (m : Mode) (d : Driver) :
    d.restore m = if d = .tripped then (if m = .config then .off else .driving) else d := by
  cases d <;> rfl

theorem restoreDrivers_driver (s : State) (c : Fin 24) : s.restoreDrivers.channel c = { s.channel c with driver :=
    if (s.channel c).autoRestore = true ∧ (s.channel c).driver = .tripped then
      (if s.run.mode = .config then .off else .driving) else (s.channel c).driver } := by
  rw [restoreDrivers_channel, restore_eq]
  by_cases ha : (s.channel c).autoRestore = true
  · simp only [ha, if_true, true_and]
  · rw [if_neg ha, if_neg (mt And.left ha)]

/-! ## Requests on notices (R42, R60, R196, R198, R199) -/

theorem recoveries_B (s : State) (w : BitVec 9) : s.recoveries .B w =
    if w.getLsbD 3 then (if w.getLsbD 4 then s.restoreDrivers else s).recover
    else if w.getLsbD 4 then s.restoreDrivers else s := rfl

/-- The part after a Port B clear: drivers where the clear names OVERCURRENT, relays where it names RELAY_FAULT. -/
theorem recoveries_spec (s : State) (w : BitVec 9) :
    s.recoveries .B w = { s with channels := (s.recoveries .B w).channels, relays := (s.recoveries .B w).relays } ∧
    (w.getLsbD 4 = false → (s.recoveries .B w).channels = s.channels) ∧
    (w.getLsbD 4 = true → (s.recoveries .B w).channels = s.restoreDrivers.channels) ∧
    (w.getLsbD 3 = false → (s.recoveries .B w).relays = s.relays) ∧
    (w.getLsbD 3 = true →
      (∀ c, s.recovers c → (s.recoveries .B w).relaySet c = (s.relaySet c).normalised s.timing) ∧
      ∀ c, ¬s.recovers c → (s.recoveries .B w).relaySet c = s.relaySet c) := by
  let t := if w.getLsbD 4 then s.restoreDrivers else s
  have ht : t = { s with channels := t.channels } ∧ (w.getLsbD 4 = false → t.channels = s.channels) ∧
      (w.getLsbD 4 = true → t.channels = s.restoreDrivers.channels) ∧ (∀ c, t.recovers c ↔ s.recovers c) := by
    cases hw : w.getLsbD 4 with
    | false =>
      have htrue : t = s := if_neg (by rw [hw]; decide)
      rw [htrue]
      exact ⟨rfl, fun _ => rfl, nofun, fun _ => Iff.rfl⟩
    | true =>
      have hrestored : t = s.restoreDrivers := if_pos hw
      rw [hrestored]
      refine ⟨rfl, nofun, fun _ => rfl, fun c => ?_⟩
      have hset : s.restoreDrivers.relaySet c = s.relaySet c :=
        congrArg (·.get c) (by simp : s.restoreDrivers.relays = s.relays)
      simp only [State.recovers, restoreDrivers_driver, hset]
  obtain ⟨honly, hoff, hon, hiff⟩ := ht
  have hrelays : t.relays = s.relays := by rw [honly]
  have htiming : t.timing = s.timing := by rw [honly]
  obtain ⟨hrec, hset, hrest⟩ := recover_spec t
  have heq : s.recoveries .B w = if w.getLsbD 3 then t.recover else t := recoveries_B s w
  have hchannels : (s.recoveries .B w).channels = t.channels := by
    rw [heq]
    split
    · rw [hrec]
    · rfl
  have hsame (c : Fin 24) : t.relaySet c = s.relaySet c := congrArg (·.get c) hrelays
  refine ⟨?_, fun h => hchannels.trans (hoff h), fun h => hchannels.trans (hon h), fun h => ?_, fun h => ⟨fun c hc => ?_,
    fun c hc => ?_⟩⟩
  · rw [heq]
    split
    · rw [hrec, honly]
    · exact honly.trans (by rw [hrelays])
  · rw [heq, if_neg (by rw [h]; decide), hrelays]
  · rw [heq, if_pos h, hset c ((hiff c).2 hc), hsame, htiming]
  · rw [heq, if_pos h, hrest c (mt (hiff c).1 hc), hsame]

theorem nineOf_getLsbD {w : Word} {i : Nat} (h : i < 9) : (nineOf w).getLsbD i = w.getLsbD i := by
  simp [nineOf, h]

/-- A port with the named sticky flags cleared (R198). -/
def PortState.cleared (q : PortState) (w : Word) : PortState := { q with sticky := q.sticky &&& ~~~(field w 0 9) }

theorem noticeWordGood_iff {w : Word} : noticeWordGood w = true ↔ w.toNat < 512 := decide_eq_true_iff

theorem handleClearNotices_of_bad {p : Port} {w : Word} (h : 512 ≤ w.toNat) :
    handleClearNotices p w s = refuse s .badValue := if_neg (mt noticeWordGood_iff.1 (by omega))

theorem handleSetNoticeEnable_of_bad {p : Port} {w : Word} (h : 512 ≤ w.toNat) :
    handleSetNoticeEnable p w s = refuse s .badValue := if_neg (mt noticeWordGood_iff.1 (by omega))

theorem handleClearNotices_of_good {p : Port} {w : Word} (h : w.toNat < 512) : handleClearNotices p w s =
    okay ((s.updPort p fun q => PortState.cleared q w).recoveries p (nineOf w))
      (.cleared (PortState.cleared (s.port p) w).flags (PortState.cleared (s.port p) w).atn) := by
  rw [handleClearNotices, if_pos (noticeWordGood_iff.2 h)]
  cases p <;> rfl

theorem handleSetNoticeEnable_of_good {p : Port} {w : Word} (h : w.toNat < 512) : handleSetNoticeEnable p w s =
    okay (s.updPort p fun q => { q with enables := nineOf w })
      (.enables (nineOf w) ({ s.port p with enables := nineOf w } : PortState).flags
        ({ s.port p with enables := nineOf w } : PortState).atn) := by
  rw [handleSetNoticeEnable, if_pos (noticeWordGood_iff.2 h)]
  cases p <;> rfl

theorem atn_eq (q : PortState) : q.atn = decide (q.flags &&& q.enables ≠ 0) := by
  simp only [PortState.atn, bne, beq_eq_decide, decide_not, ne_eq]

theorem updPort_const (s : State) (p : Port) (f : PortState → PortState) :
    (s.updPort p fun _ => f (s.port p)) = s.updPort p f := by
  cases p <;> rfl

/-- Settles O53. -/
theorem noticesClearedAndEnabled : Obligations.NoticesClearedAndEnabled := by
  intro s p tag w hn
  have hclear (hw : w.toNat < 512) := exec_of_okay (i := .clearNotices p tag w) rfl rfl (by simp)
    (allowed_of_both ⟨rfl, rfl⟩ p) hn (handleClearNotices_of_good hw)
  refine ⟨fun hw => ⟨?_, ?_⟩, fun hw => ⟨⟨PortState.cleared (s.port p) w, rfl, ?_, ?_⟩,
    ⟨{ s.port p with enables := field w 0 9 }, rfl, ?_⟩⟩⟩
  · exact exec_of_refuse (i := .clearNotices p tag w) rfl rfl (by simp) (allowed_of_both ⟨rfl, rfl⟩ p) hn
      (handleClearNotices_of_bad hw)
  · exact exec_of_refuse (i := .setNoticeEnable p tag w) rfl rfl (by simp) (allowed_of_both ⟨rfl, rfl⟩ p) hn
      (handleSetNoticeEnable_of_bad hw)
  · intro h
    have hquiet : (s.updPort p fun q => PortState.cleared q w).recoveries p (nineOf w) =
        s.updPort p fun q => PortState.cleared q w := by
      cases p with
      | M => rfl
      | B =>
        obtain ⟨h3, h4⟩ := h.resolve_left nofun
        rw [recoveries_B, nineOf_getLsbD (by decide), nineOf_getLsbD (by decide), if_neg (by rw [h3]; decide),
          if_neg (by rw [h4]; decide)]
    rw [hclear hw, hquiet, ← atn_eq, updPort_const s p fun q => PortState.cleared q w]
  · rintro rfl
    obtain ⟨honly, hoff, hon, hstay, hrec⟩ := recoveries_spec (s.updPort .B fun q => PortState.cleared q w) (nineOf w)
    rw [nineOf_getLsbD (by decide)] at hoff hon hstay hrec
    refine ⟨_, (hclear hw).trans (by rw [← atn_eq]), honly, hoff, fun h c => ?_, hstay, fun h c => ⟨fun hc => ?_, ?_⟩⟩
    · exact (congrArg (·.get c) (hon h)).trans (restoreDrivers_driver _ c)
    · refine (hrec h).2 c fun hr => ?_
      obtain ⟨hservice, hkeep, hnorm, hholder⟩ := hr
      rcases hc with h1 | h1 | h1 | h1
      · exact Bool.false_ne_true (hservice.symm.trans h1)
      · exact Bool.false_ne_true (hkeep.symm.trans h1)
      · exact h1 hnorm
      · exact h1 hholder
    · intro hservice hkeep hnorm hholder
      rw [(hrec h).1 c ⟨hservice, hkeep, hnorm, hholder⟩]
      exact normalised_begins _ _
  · rw [exec_of_okay (i := .setNoticeEnable p tag w) rfl rfl (by simp) (allowed_of_both ⟨rfl, rfl⟩ p) hn
      (handleSetNoticeEnable_of_good hw), ← atn_eq, updPort_const s p fun q => { q with enables := field w 0 9 }]
    rfl

end Sys2Proof.Machine
end

section
/-! Sample transfers as they are taken and as they end (R123 to R126), and the resets (R184 to R186). -/

namespace Sys2Proof.Machine

variable {s t u : State} {p : Port} {tag x : Byte} {g : Fin 32} {o : Word}

/-! ## A transfer is taken (R123, R124, R126) -/

theorem exec_of_begun {i : Instr} {k : RequestKind} {ws : List Word} (hs : i.sender = some (p, tag))
    (he : encodePayload i = some (k, ws)) (hl : ws.length ≤ 255) (ha : k.allowed p = true) (hn : s.takesNow p = true)
    (h : handle i s = .begun u) : exec i s = .next (u.updPort p fun q => q.place k.code tag none) := by
  rw [exec_of_taken hs he hl ha hn, h]
  rfl

theorem rangeGood_iff {y : Segment} {a n : Nat} : rangeGood y a n = true ↔ 1 ≤ n ∧ n ≤ 504 ∧ a + n ≤ y.length := by
  simp [rangeGood, and_assoc]

theorem rangeGood_eq_false {y : Segment} {a n : Nat} (h : n = 0 ∨ 504 < n ∨ y.length < a + n) :
    rangeGood y a n = false := by
  rw [Bool.eq_false_iff, ne_eq, rangeGood_iff]
  omega

theorem beginTransfer_of_idle {y : Transfer} (h : s.moving = none) : s.beginTransfer y = { s with moving := some y } := by
  simp only [State.beginTransfer, h]

theorem beginTransfer_of_moving {y : Transfer} (h : s.moving ≠ none) :
    s.beginTransfer y = { s with queued := some y } := by
  obtain ⟨z, hz⟩ := Option.ne_none_iff_exists'.1 h
  simp only [State.beginTransfer, hz]

section Read

variable {n : Half}

theorem handleReadSamples_of_bad_index (h : 32 ≤ x.toNat) : handleReadSamples p tag x o n s = refuse s .badValue := by
  rw [handleReadSamples, indexIn_eq_none h]

theorem handleReadSamples_eq (h : x.toNat = g.1) : handleReadSamples p tag x o n s =
    if (s.segment g).defined = false then refuse s .notFound
    else if rangeGood (s.segment g) o.toNat n.toNat = false then refuse s .badValue
    else .begun (s.beginTransfer
      ⟨p, tag, false, g, o.toNat, (s.segment g).base + o.toNat, n.toNat, []⟩) := by
  rw [handleReadSamples, indexIn_eq_some h]

theorem exec_readSamples_of_refuse {c : Status} (hn : s.takesNow p = true)
    (h : handleReadSamples p tag x o n s = refuse s c) :
    exec (.readSamples p tag x o n) s = .next (s.answerNo p .readSamples tag c) :=
  exec_of_refuse (i := .readSamples p tag x o n) rfl rfl (by simp) (allowed_of_both ⟨rfl, rfl⟩ p) hn h

end Read

section Write

variable {l : List Half}

theorem handleWriteSamples_of_bad_index (h : 32 ≤ x.toNat) : handleWriteSamples p tag x o l s = refuse s .badValue := by
  rw [handleWriteSamples, indexIn_eq_none h]

theorem handleWriteSamples_eq (h : x.toNat = g.1) : handleWriteSamples p tag x o l s =
    if (s.segment g).defined = false then refuse s .notFound
    else if rangeGood (s.segment g) o.toNat l.length = false then refuse s .badValue
    else if 0 < (s.segment g).refs then refuse s .busy
    else .begun (s.beginTransfer
      ⟨p, tag, true, g, o.toNat, (s.segment g).base + o.toNat, l.length, l⟩) := by
  rw [handleWriteSamples, indexIn_eq_some h]

/-- A packet carries the two words before the samples and up to 506 samples, two to a word (R188, R202). -/
theorem writeSamples_words (i : Byte) (hl : l.length ≤ 506) :
    ((i ++ (0 : Byte) ++ BitVec.ofNat 16 l.length : Word) :: o :: packSamples l).length ≤ 255 := by
  rw [List.length_cons, List.length_cons, Laws.packSamples_length]
  omega

theorem exec_writeSamples_of_refuse {c : Status} (hn : s.takesNow .B = true) (hl : l.length ≤ 506)
    (h : handleWriteSamples .B tag x o l s = refuse s c) :
    exec (.writeSamples .B tag x o l) s = .next (s.answerNo .B .writeSamples tag c) :=
  exec_of_refuse (i := .writeSamples .B tag x o l) rfl rfl (writeSamples_words x hl) rfl hn h

end Write

/-- A taken transfer begins, or waits for the one in flight, its response's place reserved (R124, R191). -/
theorem begun_by_moving {y : Transfer} {c : Byte} {i : Instr}
    (h : exec i s = .next ((s.beginTransfer y).updPort p fun q => q.place c tag none)) :
    (s.moving = none → exec i s = .next ({ s with moving := some y }.updPort p fun q =>
      { q with responses := q.responses ++ [(⟨c, tag, none⟩ : Response)] })) ∧
    (s.moving ≠ none → exec i s = .next ({ s with queued := some y }.updPort p fun q =>
      { q with responses := q.responses ++ [(⟨c, tag, none⟩ : Response)] })) := by
  refine ⟨fun hm => ?_, fun hm => ?_⟩
  · rw [h, beginTransfer_of_idle hm]
    rfl
  · rw [h, beginTransfer_of_moving hm]
    rfl

theorem half_toNat_ne_zero {n : Half} (h : n ≠ 0) : 1 ≤ n.toNat := by
  have hne : n.toNat ≠ 0 := fun h0 => h (BitVec.eq_of_toNat_eq h0)
  omega

/-- Settles O39. -/
theorem transfersAreTaken : Obligations.TransfersAreTaken := by
  intro s p tag x o n l hn
  refine ⟨fun hx => exec_readSamples_of_refuse hn (handleReadSamples_of_bad_index hx), ?_, fun g hx => ⟨fun hd => ⟨?_, ?_⟩,
    fun hd => ⟨fun hr => ?_, ?_, ?_, fun h0 h504 hend => ?_, ?_⟩⟩⟩
  · rintro hx rfl hl
    exact exec_writeSamples_of_refuse hn hl (handleWriteSamples_of_bad_index hx)
  · exact exec_readSamples_of_refuse hn ((handleReadSamples_eq hx).trans (if_pos hd))
  · rintro rfl hl
    exact exec_writeSamples_of_refuse hn hl ((handleWriteSamples_eq hx).trans (if_pos hd))
  · have hrange : rangeGood (s.segment g) o.toNat n.toNat = false :=
      rangeGood_eq_false (hr.imp_left fun h => by rw [h]; rfl)
    exact exec_readSamples_of_refuse hn (by rw [handleReadSamples_eq hx, hd, hrange]; rfl)
  · rintro rfl hr
    have hl : l.length ≤ 506 := by
      rcases hr with rfl | h | h | h
      · exact Nat.zero_le _
      all_goals omega
    have hrange : rangeGood (s.segment g) o.toNat l.length = false := by
      refine rangeGood_eq_false ?_
      rcases hr with rfl | h | h | h
      · exact .inl rfl
      all_goals omega
    exact exec_writeSamples_of_refuse hn hl (by rw [handleWriteSamples_eq hx, hd, hrange]; rfl)
  · rintro rfl hne h504 hend hrefs
    have hrange : rangeGood (s.segment g) o.toNat l.length = true :=
      rangeGood_iff.2 ⟨List.length_pos_iff.2 hne, h504, hend⟩
    exact exec_writeSamples_of_refuse hn (by omega)
      (by rw [handleWriteSamples_eq hx, hd, hrange, if_pos hrefs]; rfl)
  · have hrange : rangeGood (s.segment g) o.toNat n.toNat = true := rangeGood_iff.2 ⟨half_toNat_ne_zero h0, h504, hend⟩
    refine ⟨_, rfl, begun_by_moving (exec_of_begun (i := .readSamples p tag x o n) rfl rfl (by simp)
      (allowed_of_both ⟨rfl, rfl⟩ p) hn ?_)⟩
    exact (handleReadSamples_eq hx).trans (by rw [hd, hrange]; rfl)
  · rintro rfl hne h504 hend hrefs
    have hrange : rangeGood (s.segment g) o.toNat l.length = true :=
      rangeGood_iff.2 ⟨List.length_pos_iff.2 hne, h504, hend⟩
    refine ⟨_, rfl, begun_by_moving (exec_of_begun (i := .writeSamples .B tag x o l) rfl rfl
      (writeSamples_words x (by omega)) rfl hn ?_)⟩
    exact (handleWriteSamples_eq hx).trans (by rw [hd, hrange, hrefs]; rfl)

/-! ## A transfer ends (R124 to R126) -/

theorem formReserved_eq (q : PortState) (r : Reply) : q.formReserved r = { q with
      responses := q.responses.map fun y : Response => if y.reply = none then { y with reply := some r } else y } := by
  unfold PortState.formReserved
  simp only [Option.isNone_iff_eq_none]

/-- With no request waiting on its port a transfer ends in its response, and the waiting one begins. -/
theorem endTransfer_of_quiet {y : Transfer} (h : (s.port y.port).inbound = []) : s.endTransfer y =
    { s with memory := transferMemory s y, moving := s.queued, queued := none }.updPort y.port fun q =>
      q.formReserved (transferReply s y) := by
  refine serve_of_stuck (.inl ?_)
  rw [State.updPort_port_self]
  exact h

theorem memReadRun_eq_map (m : List (Nat × Half)) (a n : Nat) :
    memReadRun m a n = (List.range n).map fun j => memRead m (a + j) := by
  refine List.ext_getElem (by simp) fun j h₁ h₂ => ?_
  rw [memReadRun_length] at h₁
  rw [List.getElem_map, List.getElem_range, ← memReadRun_getD m n a j h₁, List.getD_eq_getElem]

/-- Settles O40. -/
theorem transfersEnd : Obligations.TransfersEnd := by
  intro s y hy hquiet hmem
  refine ⟨fun hw => ?_, fun hw => ⟨?_, fun p hp => ?_, ?_⟩⟩
  · have hdone : s.writeDone = s.endTransfer y := by simp only [State.writeDone, hy, hw, if_true]
    have hread (p : Port) : s.readDone p = s := by simp [State.readDone, hy, hw]
    have hmemory : transferMemory s y = memWriteRun s.memory y.address y.samples := if_pos hw
    have hreply : transferReply s y = .okay (.written y.segment y.offset y.count) := if_pos hw
    refine ⟨_, congrArg Host.Outcome.next (hdone.trans (endTransfer_of_quiet hquiet)), ?_, fun a => ?_,
      fun p => congrArg Host.Outcome.next (hread p)⟩
    · simp only [formReserved_eq, hreply]
      cases y.port <;> rfl
    · have hnew : ({ s with memory := transferMemory s y, moving := s.queued, queued := none }.updPort y.port fun q =>
          q.formReserved (transferReply s y)).memory = memWriteRun s.memory y.address y.samples := by
        rw [State.updPort_memory, hmemory]
      rw [hnew, memRead_memWriteRun _ hmem.1]
      by_cases h : y.address ≤ a ∧ a - y.address < y.samples.length
      · rw [dif_pos h, if_pos (by omega), List.getD_eq_getElem]
      · rw [dif_neg h, if_neg (by omega)]
  · have hdone : s.readDone y.port = s.endTransfer y := by simp [State.readDone, hy, hw]
    have hmemory : transferMemory s y = s.memory := if_neg (by simp [hw])
    have hreply : transferReply s y = .okay (.samples
        ((List.range y.count).map fun j => memRead s.memory (y.address + j))) := by
      rw [transferReply, if_neg (by simp [hw]), memReadRun_eq_map]
    refine (congrArg Host.Outcome.next (hdone.trans (endTransfer_of_quiet hquiet))).trans ?_
    rw [hmemory, hreply]
    simp only [formReserved_eq]
  · have hdone : s.readDone p = s := by simp [State.readDone, hy, Ne.symm hp]
    exact congrArg Host.Outcome.next hdone
  · have hdone : s.writeDone = s := by simp [State.writeDone, hy, hw]
    exact congrArg Host.Outcome.next hdone

/-! ## Resets (R184 to R186) -/

theorem resetInput_eq (mv : Int) : resetInput mv =
    { settings := { enabled := false, level := 0, divider := 1, agreement := 2, edges := .both,
                    dest := ⟨false, false⟩, trip := false, width := false }
      comparator := decide (800 < mv)
      level := none, disagree := 0, runStamp := none, lastEdge := none, edge := none } := by
  have hthreshold : threshold 0 = 800 := by decide
  unfold resetInput comparatorNext
  rw [hthreshold]
  by_cases h : 800 < mv
  · rw [if_pos h, decide_eq_true h]
  · rw [if_neg h, decide_eq_false h, ite_self]

/-- How much of a write in flight a rig reset keeps (R125). -/
theorem memoryAtReset_spec (s : State) : (s.moving = none → s.memoryAtReset = s.memory) ∧
    (∀ y, s.moving = some y → y.write = false → s.memoryAtReset = s.memory) ∧
    ∀ y, s.moving = some y → y.write = true →
      ∃ n ≤ y.samples.length, s.memoryAtReset = memWriteRun s.memory y.address (y.samples.take n) := by
  refine ⟨fun h => by simp only [State.memoryAtReset, h], fun y h hw => by simp [State.memoryAtReset, h, hw],
    fun y h hw => ⟨min (Config.samplesWritten s.freeCount % y.samples.length) y.samples.length, min_le_right _ _, ?_⟩⟩
  simp only [State.memoryAtReset, h, hw, if_true, ← List.take_take, List.take_length]

theorem tick_of_held {l : List PinChange} (h : s.pins.resetLine = true) :
    s.tick l = { s with pins := l.foldl Pins.change s.pins } := if_pos h

/-- Settles O11. -/
theorem powerOnAndResetLine : Obligations.PowerOnAndResetLine := by
  refine ⟨fun s => ⟨rfl, ?_⟩, by decide, fun c => ?_, fun c => ?_, ?_, fun k => ?_, fun a => rfl, fun g => ?_,
    fun n => ?_, fun p => ?_, ⟨rfl, rfl, rfl⟩, fun s h => ?_, fun s h => ?_, fun s => rfl, fun s l h => ?_,
    fun s tag hn => ?_, fun s => ⟨rfl, memoryAtReset_spec s⟩⟩
  · simp only [State.powerOn, resetInput_eq]
  · exact reset_channel c
  · rw [reset_relaySet]
    exact ⟨rfl, rfl, rfl, fun r => by cases r <;> rfl⟩
  · exact ⟨rfl, rfl, rfl, rfl, rfl, rfl, rfl, rfl⟩
  · exact reset_fault k
  · exact reset_segment g
  · exact reset_engine n
  · cases p <;> rfl
  · exact congrArg Host.Outcome.next (if_neg (by simp [h]))
  · exact congrArg Host.Outcome.next (if_pos h)
  · exact congrArg Host.Outcome.next (tick_of_held h)
  · exact exec_of_taken (i := .resetRig .B tag) rfl rfl (by simp) rfl hn

end Sys2Proof.Machine
end

section
/-! The definition of a fault record: its ranges and codes (R69, R73, R205), and ARM_FAULT (R73, R74). -/

namespace Sys2Proof.Machine

variable {s t u : State} {k : Fin 64} {tag x : Byte} {g : FaultArgs} {r : FaultRecord}

/-! ## Indices and codes -/

theorem indexIn_eq_some_iff {n w : Nat} {b : BitVec w} {i : Fin n} : indexIn n b = some i ↔ b.toNat = i.1 := by
  refine ⟨fun h => ?_, indexIn_eq_some⟩
  unfold indexIn at h
  split at h
  · cases h; rfl
  · cases h

theorem indexIn_eq_none_iff {n w : Nat} {b : BitVec w} : indexIn n b = none ↔ n ≤ b.toNat := by
  refine ⟨fun h => not_lt.1 fun hlt => ?_, indexIn_eq_none⟩
  rw [indexIn, dif_pos hlt] at h
  cases h

/-! ## The parts of a definition (R69, R73) -/

theorem paramIn_eq_some {lo hi v : Int} : paramIn lo hi v = some (.int v) ↔ lo ≤ v ∧ v ≤ hi := by
  unfold paramIn
  split <;> simp_all

theorem paramIn_cases (lo hi v : Int) : paramIn lo hi v = none ∨ paramIn lo hi v = some (.int v) := by
  unfold paramIn
  split
  · exact .inr rfl
  · exact .inl rfl

theorem judgePartner_of_other {a : FaultKind} {c : Fin 24} {b : Byte} (h : a ≠ .pinShort) :
    judgePartner a c b = some none := if_neg h

theorem judgePartner_pinShort {c p : Fin 24} {b : Byte} (h : b.toNat = p.1) (hne : p ≠ c) :
    judgePartner .pinShort c b = some (some p) := by
  rw [judgePartner, if_pos rfl, indexIn_eq_some h]
  exact if_neg hne

theorem judgePartner_eq_none_iff {a : FaultKind} {c : Fin 24} {b : Byte} :
    judgePartner a c b = none ↔ a = .pinShort ∧ (24 ≤ b.toNat ∨ b.toNat = c.1) := by
  by_cases ha : a = .pinShort
  · subst ha
    by_cases hb : 24 ≤ b.toNat
    · rw [judgePartner, if_pos rfl, indexIn_eq_none hb]
      simp [hb]
    · have hp : b.toNat = (⟨b.toNat, by omega⟩ : Fin 24).1 := rfl
      by_cases hc : b.toNat = c.1
      · rw [judgePartner, if_pos rfl, indexIn_eq_some hc]
        simp [hc]
      · rw [judgePartner_pinShort hp (fun h => hc (by rw [← h]))]
        simp [hb, hc]
  · simp [judgePartner_of_other ha, ha]

theorem needsPeriod_iff {n p : Nat} {y : Trigger} : needsPeriod n p y = true ↔ ∃ t, y = .atTime t ∧ 0 < n ∧ p = 0 := by
  cases y <;> simp [needsPeriod]

/-! ### Triggers -/

theorem edgeOf_eq_some_iff {n : Nat} {e : EdgeSel} :
    edgeOf n = some e ↔ n = (match e with | .rise => 0 | .fall => 1 | .both => 2) := by
  unfold edgeOf
  cases e <;> split_ifs <;> simp_all

theorem eventOf_eq_none_iff {b : Byte} : eventOf b = none ↔ 2 ≤ b.toNat := by
  have h0 : b = 0 ↔ b.toNat = 0 := ⟨fun h => by rw [h]; rfl, fun h => BitVec.eq_of_toNat_eq h⟩
  have h1 : b = 1 ↔ b.toNat = 1 := ⟨fun h => by rw [h]; rfl, fun h => BitVec.eq_of_toNat_eq h⟩
  simp only [eventOf, h0, h1]
  split_ifs <;> simp <;> omega

theorem eventOf_of_code {b : Byte} {e : FaultEvent} (h : b.toNat = (match e with | .start => 0 | .stop => 1)) :
    eventOf b = some e := by
  cases e with
  | start => rw [show b = 0 from BitVec.eq_of_toNat_eq h]; rfl
  | stop => rw [show b = 1 from BitVec.eq_of_toNat_eq h]; rfl

theorem byte_pos_iff {n : Byte} : ¬1 ≤ n.toNat ↔ n = 0 := by
  rw [Nat.not_le, Nat.lt_one_iff]
  exact ⟨fun h => BitVec.eq_of_toNat_eq h, fun h => by rw [h]; rfl⟩

section Capture

variable {i e n : Byte}

theorem judgeTrigger_onCapture_of_parts {j : Fin 16} {y : EdgeSel} (hj : indexIn 16 i = some j)
    (hy : edgeOf e.toNat = some y) : judgeTrigger k (.onCapture i e n) =
      if 1 ≤ n.toNat then some (.onCapture j y n.toNat) else none := by
  simp only [judgeTrigger, hj, hy]

theorem judgeDuration_capture_of_parts {j : Fin 16} {y : EdgeSel} (hj : indexIn 16 i = some j)
    (hy : edgeOf e.toNat = some y) : judgeDuration (.capture i e n) =
      if 1 ≤ n.toNat then some (.capture j y n.toNat) else none := by
  simp only [judgeDuration, hj, hy]

theorem judge_capture_of_bad (h : indexIn 16 i = none ∨ edgeOf e.toNat = none) :
    judgeTrigger k (.onCapture i e n) = none ∧ judgeDuration (.capture i e n) = none := by
  cases hi : indexIn 16 i with
  | none => simp only [judgeTrigger, judgeDuration, hi]; trivial
  | some j =>
    have he := h.resolve_left (by rw [hi]; exact Option.some_ne_none j)
    simp only [judgeTrigger, judgeDuration, hi, he]
    trivial

/-- A capture selection is bad in a trigger and in a duration alike (R73). -/
theorem judge_capture_eq_none_iff :
    (judgeTrigger k (.onCapture i e n) = none ↔ 16 ≤ i.toNat ∨ 3 ≤ e.toNat ∨ n = 0) ∧
      (judgeDuration (.capture i e n) = none ↔ 16 ≤ i.toNat ∨ 3 ≤ e.toNat ∨ n = 0) := by
  rw [← indexIn_eq_none_iff, ← edgeOf_eq_none_iff, ← byte_pos_iff]
  cases hi : indexIn 16 i with
  | none => simp [judge_capture_of_bad (k := k) (n := n) (e := e) (.inl hi)]
  | some j =>
    cases he : edgeOf e.toNat with
    | none => simp [judge_capture_of_bad (k := k) (n := n) (i := i) (.inr he)]
    | some y => simp [judgeTrigger_onCapture_of_parts hi he, judgeDuration_capture_of_parts hi he]

end Capture

section Chained

variable {i e : Byte}

theorem judgeTrigger_onFault_of_parts {j : Fin 64} {y : FaultEvent} (hj : indexIn 64 i = some j)
    (hy : eventOf e = some y) : judgeTrigger k (.onFault i e) = if j = k then none else some (.onFault j y) := by
  simp only [judgeTrigger, hj, hy]

theorem judgeTrigger_onFault_of_bad (h : indexIn 64 i = none ∨ eventOf e = none) :
    judgeTrigger k (.onFault i e) = none := by
  cases hi : indexIn 64 i with
  | none => simp only [judgeTrigger, hi]
  | some j =>
    have he := h.resolve_left (by rw [hi]; exact Option.some_ne_none j)
    simp only [judgeTrigger, hi, he]

theorem judgeTrigger_onFault_eq_none_iff :
    judgeTrigger k (.onFault i e) = none ↔ 64 ≤ i.toNat ∨ 2 ≤ e.toNat ∨ i.toNat = k.1 := by
  rw [← indexIn_eq_none_iff, ← eventOf_eq_none_iff, ← indexIn_eq_some_iff]
  cases hi : indexIn 64 i with
  | none => simp [judgeTrigger_onFault_of_bad (k := k) (e := e) (.inl hi)]
  | some j =>
    cases he : eventOf e with
    | none => simp [judgeTrigger_onFault_of_bad (k := k) (i := i) (.inr he)]
    | some y => simp [judgeTrigger_onFault_of_parts hi he]

end Chained

theorem judgeTrigger_atAngle {any : Bool} {c a : Half} : judgeTrigger k (.atAngle any c a) =
    if a.toNat ≤ 11519 then some (.atAngle (if any then none else some c) a.toNat) else none := rfl

theorem judgeTrigger_atTime_iff {w : RawTrigger} {t : RigTime} : judgeTrigger k w = some (.atTime t) ↔ w = .atTime t := by
  cases w with
  | atTime t' => simp [judgeTrigger]
  | atAngle any c a =>
    rw [judgeTrigger_atAngle]
    split <;> simp
  | onCapture i e n =>
    cases hi : indexIn 16 i with
    | none => simp [judge_capture_of_bad (k := k) (n := n) (e := e) (.inl hi)]
    | some j =>
      cases he : edgeOf e.toNat with
      | none => simp [judge_capture_of_bad (k := k) (n := n) (i := i) (.inr he)]
      | some y =>
        rw [judgeTrigger_onCapture_of_parts hi he]
        split <;> simp
  | onFault i e =>
    cases hi : indexIn 64 i with
    | none => simp [judgeTrigger_onFault_of_bad (k := k) (e := e) (.inl hi)]
    | some j =>
      cases he : eventOf e with
      | none => simp [judgeTrigger_onFault_of_bad (k := k) (i := i) (.inr he)]
      | some y =>
        rw [judgeTrigger_onFault_of_parts hi he]
        split <;> simp
  | unknown u => simp [judgeTrigger]

/-! ## A whole definition (R73, R74) -/

/-- The record that good parts make (R74). -/
def definedRecord (g : FaultArgs) (c : Fin 24) (kind : FaultKind) (y : Param) (p : Option (Fin 24)) (a : Trigger)
    (d : Duration) : FaultRecord :=
  { state := .armed, target := c, partner := p, kind := kind, level := g.level.toNat, param := y, trigger := a,
    duration := d, repeats := g.repeats.toNat, repeatPeriod := g.period.toNat, notify := portSetOf g.notify, fresh := true }

/-- A definition is good where each of its parts is (R73). -/
theorem judgeFault_eq_some_iff : judgeFault s k g = some r ↔ ∃ c kind y p a d, g.target.toNat = c.1 ∧
    faultKindOf g.kind = some kind ∧
    judgeParam kind (kindOf c) (s.channel c).mode (s.channel c).pattern g.param = some y ∧
    judgePartner kind c g.partner = some p ∧ judgeTrigger k g.trigger = some a ∧ judgeDuration g.duration = some d ∧
    (1 ≤ g.level.toNat ∧ g.repeats.toNat ≤ 255 ∧ needsPeriod g.repeats.toNat g.period.toNat a = false) ∧
    r = definedRecord g c kind y p a d := by
  constructor
  · intro h
    unfold judgeFault at h
    split at h
    next c kind hc hk =>
      dsimp only at h
      split at h
      next y p a d hy hp ha hd =>
        split at h
        next hgood =>
          cases h
          exact ⟨c, kind, y, p, a, d, indexIn_eq_some_iff.1 hc, hk, hy, hp, ha, hd, hgood, rfl⟩
        next => cases h
      next => cases h
    next => cases h
  · rintro ⟨c, kind, y, p, a, d, hc, hk, hy, hp, ha, hd, hgood, rfl⟩
    simp only [judgeFault, indexIn_eq_some hc, hk, hy, hp, ha, hd]
    exact if_pos hgood

theorem level_pos_iff {w : BitVec 3} : ¬1 ≤ w.toNat ↔ w = 0 := by
  rw [Nat.not_le, Nat.lt_one_iff]
  exact ⟨fun h => BitVec.eq_of_toNat_eq h, fun h => by rw [h]; rfl⟩

theorem period_eq_zero_iff {w : Word} : w.toNat = 0 ↔ w = 0 :=
  ⟨fun h => BitVec.eq_of_toNat_eq h, fun h => by rw [h]; rfl⟩

theorem judgeFault_eq_none_iff : judgeFault s k g = none ↔
    ∀ (c : Fin 24) (kind : FaultKind), g.target.toNat = c.1 → faultKindOf g.kind = some kind →
      judgeParam kind (kindOf c) (s.channel c).mode (s.channel c).pattern g.param = none ∨
      (kind = .pinShort ∧ (24 ≤ g.partner.toNat ∨ g.partner.toNat = c.1)) ∨ g.level = 0 ∨
      255 < g.repeats.toNat ∨ judgeTrigger k g.trigger = none ∨ judgeDuration g.duration = none ∨
      ∃ t, g.trigger = .atTime t ∧ 0 < g.repeats.toNat ∧ g.period = 0 := by
  rw [← Option.not_isSome_iff_eq_none, Option.isSome_iff_exists]
  constructor
  · intro h c kind hc hk
    by_contra hbad
    obtain ⟨hy, hp, hl, hrep, ha, hd, hper⟩ : _ ∧ _ ∧ _ ∧ _ ∧ _ ∧ _ ∧ _ := by simpa only [not_or] using hbad
    obtain ⟨y, hy⟩ := Option.ne_none_iff_exists'.1 hy
    obtain ⟨p, hp⟩ := Option.ne_none_iff_exists'.1 (mt judgePartner_eq_none_iff.1 hp)
    obtain ⟨a, ha⟩ := Option.ne_none_iff_exists'.1 ha
    obtain ⟨d, hd⟩ := Option.ne_none_iff_exists'.1 hd
    refine h ⟨_, judgeFault_eq_some_iff.2 ⟨c, kind, y, p, a, d, hc, hk, hy, hp, ha, hd, ⟨?_, by omega, ?_⟩, rfl⟩⟩
    · exact not_not.1 (mt level_pos_iff.1 hl)
    · rw [Bool.eq_false_iff, ne_eq, needsPeriod_iff]
      rintro ⟨t, rfl, hrepeats, hperiod⟩
      exact hper ⟨t, judgeTrigger_atTime_iff.1 ha, hrepeats, period_eq_zero_iff.1 hperiod⟩
  · rintro h ⟨r, hr⟩
    obtain ⟨c, kind, y, p, a, d, hc, hk, hy, hp, ha, hd, ⟨hlevel, hrepeats, hperiod⟩, -⟩ := judgeFault_eq_some_iff.1 hr
    rcases h c kind hc hk with h | h | h | h | h | h | ⟨t, ht, hrep, hper⟩
    · rw [h] at hy; cases hy
    · rw [judgePartner_eq_none_iff.2 h] at hp; cases hp
    · exact level_pos_iff.2 h hlevel
    · omega
    · rw [h] at ha; cases ha
    · rw [h] at hd; cases hd
    · rw [judgeTrigger_atTime_iff.2 ht] at ha
      cases ha
      rw [needsPeriod_iff.2 ⟨t, rfl, hrep, period_eq_zero_iff.2 hper⟩] at hperiod
      cases hperiod

/-! ## The ranges and the codes (R69, R73, R205) -/

section Codes

variable {a b : Word}

theorem code_ne {v w : BitVec 4} {n : Nat} (h : n ≤ w.toNat) (hv : v.toNat < n) : w ≠ v := by
  rintro rfl
  omega

theorem rawTrigger_of_unknown (h : 4 ≤ (field a 28 4).toNat) : rawTrigger a b = .unknown (field a 28 4) := by
  unfold rawTrigger
  rw [if_neg (code_ne (v := 0) h (by decide)), if_neg (code_ne (v := 1) h (by decide)),
    if_neg (code_ne (v := 2) h (by decide)), if_neg (code_ne (v := 3) h (by decide))]

theorem rawDuration_of_unknown (h : 5 ≤ (field a 28 4).toNat) : rawDuration a b = .unknown (field a 28 4) := by
  unfold rawDuration
  rw [if_neg (code_ne (v := 0) h (by decide)), if_neg (code_ne (v := 1) h (by decide)),
    if_neg (code_ne (v := 2) h (by decide)), if_neg (code_ne (v := 3) h (by decide)),
    if_neg (code_ne (v := 4) h (by decide))]

end Codes

theorem word_pos_iff {w : Word} : 1 ≤ w.toNat ↔ ¬w = 0 := by
  rw [← period_eq_zero_iff]
  omega

theorem judgeDuration_time {v : Word} : judgeDuration (.time v) = if v = 0 then none else some (.time v.toNat) := by
  simp only [judgeDuration, word_pos_iff, ite_not]

/-- What R69 says of the parameter of each kind. -/
theorem judgeParam_ranges (m : PulseMode) (q : Pattern) (w : Word) (k : ChannelKind) (a : FaultKind) :
    (a = .openWire ∨ a = .shortGnd ∨ a = .shortBat ∨ a = .pinShort ∨ a = .freeze →
      judgeParam a k m q w = some (.int 0)) ∧
    (a = .stuckAt → (judgeParam a k m q w = some (.int w.toInt) ↔
      0 ≤ w.toInt ∧ w.toInt ≤ (if k = .analog then 4000 else 1))) ∧
    (a = .offset → (judgeParam a k m q w = some (.int w.toInt) ↔
      (k = .analog ∨ (k = .pulse ∧ m = .free)) ∧ -65536 ≤ w.toInt ∧ w.toInt ≤ 65535 ∨
      k = .pulse ∧ m = .wheel ∧ -5760 ≤ w.toInt ∧ w.toInt ≤ 5759)) ∧
    (a = .gain → (judgeParam a k m q w = some (.int w.toInt) ↔
      (k = .analog ∨ (k = .pulse ∧ m = .free)) ∧ 0 ≤ w.toInt ∧ w.toInt ≤ 65535)) ∧
    (a = .noise → (judgeParam a k m q w = some (.int w.toInt) ↔
      (k = .analog ∨ (k = .pulse ∧ m = .free)) ∧ 0 ≤ w.toInt ∧ w.toInt ≤ 4000)) ∧
    (a = .missTooth → (judgeParam a k m q w = some (.int w.toInt) ↔
      k = .pulse ∧ m = .wheel ∧ 0 ≤ w.toInt ∧ w.toInt ≤ (if q = .crank then 119 else 15))) ∧
    (a = .stuckAt ∨ a = .offset ∨ a = .gain ∨ a = .noise ∨ a = .missTooth →
      judgeParam a k m q w = none ∨ judgeParam a k m q w = some (.int w.toInt)) ∧
    (a = .extraTooth → judgeParam a k m q w =
      if k = .pulse ∧ m = .wheel ∧ (field w 16 16).toNat < (if q = .crank then 5760 else 11520) ∧
          1 ≤ (field w 0 16).toNat ∧ (field w 0 16).toNat ≤ 720 then
        some (.extra (field w 16 16).toNat (field w 0 16).toNat) else none) := by
  refine ⟨?_, ?_, ?_, ?_, ?_, ?_, ?_, ?_⟩
  · rintro (rfl | rfl | rfl | rfl | rfl) <;> rfl
  · rintro rfl
    cases k <;> exact paramIn_eq_some
  · rintro rfl
    cases k <;> cases m <;> simp [judgeParam, paramIn_eq_some]
  · rintro rfl
    cases k <;> cases m <;> simp [judgeParam, paramIn_eq_some]
  · rintro rfl
    cases k <;> cases m <;> simp [judgeParam, paramIn_eq_some]
  · rintro rfl
    cases k <;> cases m <;> cases q <;> simp [judgeParam, paramIn_eq_some, Pattern.most]
  · have hin := paramIn_cases
    rintro (rfl | rfl | rfl | rfl | rfl) <;> cases k <;> cases m <;> simp [judgeParam, hin]
  · rintro rfl
    cases k <;> cases m <;> cases q <;> simp [judgeParam, Pattern.span, field] <;> rfl

/-- Settles O32. -/
theorem faultDefinitionRanges : Obligations.FaultDefinitionRanges := by
  refine ⟨judgeParam_ranges, fun self t any c a i e n u => ⟨rfl, rfl, judge_capture_eq_none_iff.1,
      judgeTrigger_onFault_eq_none_iff, rfl⟩, fun code => rfl, fun i e n j y hj hn he => ?_,
    fun self j i e y hj hne he => ?_, fun a b => ?_, fun v i e n u => ⟨rfl, judgeDuration_time, rfl, rfl,
      (judge_capture_eq_none_iff (k := 0)).2, rfl⟩⟩
  · have hy : edgeOf e.toNat = some y := edgeOf_eq_some_iff.2 he
    have hpos : 1 ≤ n.toNat := not_not.1 (mt byte_pos_iff.1 hn)
    refine ⟨fun self => (judgeTrigger_onCapture_of_parts (indexIn_eq_some hj) hy).trans (if_pos hpos),
      (judgeDuration_capture_of_parts (indexIn_eq_some hj) hy).trans (if_pos hpos)⟩
  · exact (judgeTrigger_onFault_of_parts (indexIn_eq_some hj) (eventOf_of_code he)).trans (if_neg hne)
  · refine ⟨fun h => ?_, fun h => ?_, fun h => ?_, fun h => ?_, fun h => ?_, rawTrigger_of_unknown,
      rawDuration_of_unknown⟩ <;> simp [rawTrigger, rawDuration, h]

/-! ## ARM_FAULT (R73, R74) -/

theorem holdsChannels_iff : s.holdsChannels k = true ↔ ∃ c, (s.relaySet c).holder = some k := by
  simp [State.holdsChannels]

theorem recordBusy_iff : s.recordBusy k = true ↔ (s.fault k).state.inUse = true ∨
    ((s.fault k).state = .failed ∧ ∃ c, (s.relaySet c).holder = some k) := by
  simp [State.recordBusy, holdsChannels_iff]

theorem not_recordBusy (hu : (s.fault k).state.inUse = false)
    (hf : (s.fault k).state = .failed → ∀ c, (s.relaySet c).holder ≠ some k) : s.recordBusy k = false := by
  rw [Bool.eq_false_iff, ne_eq, recordBusy_iff]
  rintro (h | ⟨h, c, hc⟩)
  · exact Bool.false_ne_true (hu.symm.trans h)
  · exact hf h c hc

theorem handleArmFault_of_index (h : x.toNat = k.1) : handleArmFault x g s =
    if s.recordBusy k then refuse s .busy
    else match judgeFault s k g with
      | none => refuse s .badValue
      | some r => okay (s.updFault k fun _ => r) (.fault r) := by
  rw [handleArmFault, indexIn_eq_some h] <;> rfl

theorem exec_armFault_of_refuse {c : Status} (hn : s.takesNow .B = true) (h : handleArmFault x g s = refuse s c) :
    exec (.armFault .B tag x g) s = .next (s.answerNo .B .armFault tag c) :=
  exec_of_refuse (i := .armFault .B tag x g) rfl rfl (by rw [Laws.faultWords_length]; decide) rfl hn h

/-- Settles O31. -/
theorem armFaultDefines : Obligations.ArmFaultDefines := by
  refine ⟨fun s tag x g hn => ⟨fun hx => ?_, fun k hx => ⟨fun hbusy => ?_, fun hu hf => ⟨fun hbad => ?_, fun r hr => ?_⟩⟩⟩,
    fun s k g => judgeFault_eq_none_iff, fun s k g r hr => ?_⟩
  · exact exec_armFault_of_refuse hn (by rw [handleArmFault, indexIn_eq_none hx])
  · exact exec_armFault_of_refuse hn ((handleArmFault_of_index hx).trans (if_pos (recordBusy_iff.2 hbusy)))
  · refine exec_armFault_of_refuse hn ((handleArmFault_of_index hx).trans ?_)
    rw [not_recordBusy hu hf, hbad]
    rfl
  · refine exec_of_okay (i := .armFault .B tag x g) rfl rfl (by rw [Laws.faultWords_length]; decide) rfl hn
      ((handleArmFault_of_index hx).trans ?_)
    rw [not_recordBusy hu hf, hr]
    rfl
  · obtain ⟨c, kind, y, p, a, d, hc, hk, hy, hp, ha, hd, -, rfl⟩ := judgeFault_eq_some_iff.1 hr
    refine ⟨rfl, hc.symm, hk, hy, rfl, ha, hd, rfl, rfl, rfl, fun hkind => ?_, fun hkind => ?_, rfl, rfl, rfl, rfl, rfl,
      rfl, rfl, rfl, rfl, rfl⟩
    · have hnone := hp.symm.trans (judgePartner_of_other hkind)
      exact Option.some.inj hnone
    · have hkind : kind = .pinShort := hkind
      have hpartner : ¬(24 ≤ g.partner.toNat ∨ g.partner.toNat = c.1) := fun h => by
        rw [judgePartner_eq_none_iff.2 ⟨hkind, h⟩] at hp
        cases hp
      rw [not_or, not_le] at hpartner
      have hindex : g.partner.toNat = (⟨g.partner.toNat, hpartner.1⟩ : Fin 24).1 := rfl
      rw [hkind, judgePartner_pinShort hindex fun h => hpartner.2 (by rw [← h])] at hp
      exact ⟨_, (Option.some.inj hp).symm, rfl⟩

end Sys2Proof.Machine
end

section
/-! The pass of the wait list (R96 to R98): what its examination leaves, in the words of `State.passLeaves`. -/

namespace Sys2Proof.Machine

variable {s t u r : State} {k j : Fin 64} {c d p : Fin 24} {f : FaultRecord}

/-! ## What a record on the list waits for (R96, R97) -/

theorem mem_needs : c ∈ needs f ↔ f.onChannel c := by
  unfold needs
  cases hp : f.partner with
  | none => simp [FaultRecord.onChannel, hp, eq_comm]
  | some p => simp [FaultRecord.onChannel, hp, eq_comm]

theorem freeBus_eq_none : s.freeBus = none ↔ s.buses.x0 ≠ none ∧ s.buses.x1 ≠ none := by
  unfold State.freeBus
  split_ifs <;> simp_all

theorem needsFree_iff : s.needsFree (s.fault k) = true ↔ ¬s.heldUp k := by
  simp only [State.needsFree, Bool.and_eq_true, List.all_eq_true, mem_needs, beq_iff_eq, Bool.or_eq_true, bne_iff_ne,
    Option.isSome_iff_ne_none, ne_eq, freeBus_eq_none, State.heldUp, not_or, not_exists, not_and, not_not]
  refine and_congr Iff.rfl ⟨fun h hk => ?_, fun h => ?_⟩
  · exact h.resolve_left (not_not.2 hk)
  · by_cases hk : (s.fault k).kind = .pinShort
    · exact .inr (h hk)
    · exact .inl hk

theorem blocks_iff : blocks (s.fault j) (s.fault k) = true ↔ s.inTheWay j k := by
  simp only [blocks, Bool.or_eq_true, List.any_eq_true, mem_needs, List.contains_iff_mem, Bool.and_eq_true, beq_iff_eq,
    State.inTheWay]
  exact or_congr ⟨fun ⟨c, h, h'⟩ => ⟨c, h', h⟩, fun ⟨c, h, h'⟩ => ⟨c, h', h⟩⟩ and_comm

theorem granted_iff {kept : List (Fin 64)} : (s.needsFree (s.fault k) = true ∧
    (kept.any fun j => blocks (s.fault j) (s.fault k)) = false) ↔ ¬s.waitsOn kept k := by
  rw [needsFree_iff, Bool.eq_false_iff, ne_eq, List.any_eq_true, State.waitsOn, not_or (p := s.heldUp k)]
  simp only [blocks_iff]

/-! ## A granted record takes what it needs (R52, R98) -/

theorem outOfService_eq_false (h : ∀ c, f.onChannel c → (s.relaySet c).inService = true) : s.outOfService f = false := by
  unfold State.outOfService
  rw [h f.target (.inl rfl)]
  cases hp : f.partner with
  | none => rfl
  | some p => simp [h p (.inr hp)]

theorem outOfService_eq_true (h : f.onChannel c) (hc : (s.relaySet c).inService = false) : s.outOfService f = true := by
  unfold State.outOfService
  rcases h with h | h
  · rw [h, hc]
    rfl
  · simp [h, hc]

theorem heldBy_fault (j : Fin 64) : (s.heldBy k).fault j = s.fault j :=
  congrArg (·.get j) (by simp [State.heldBy] : (s.heldBy k).faults = s.faults)

theorem withBus_relaySet (b : Bus) (d : Fin 24) : (s.withBus k b).relaySet d = s.relaySet d := rfl

/-- The taking of a bus with the changes that follow it. -/
theorem withBus_updates (b : Bus) (f : RelaySet → RelaySet) (g : FaultRecord → FaultRecord) :
    ((s.withBus k b).updRelaySet p f).updFault k g =
      { (s.updRelaySet p f).updFault k (fun r => g { r with bus := some b }) with buses := s.buses.put b (some k) } :=
  congrArg (fun v => { (s.updRelaySet p f) with faults := v, buses := s.buses.put b (some k) })
    (updV_updV s.faults k (fun r => { r with bus := some b }) g)

theorem heldBy_of_single (hc : (s.fault k).target = c) (hp : (s.fault k).partner = none) :
    s.heldBy k = s.updRelaySet c fun x => { x with holder := some k } := by
  have hneeds : needs (s.fault k) = [c] := by rw [needs, hp, hc]
  refine congrArg (fun v => { s with relays := v }) (vector_ext_get fun d => ?_)
  rw [mapV_get, updV_get, hneeds]
  by_cases h : c = d
  · subst h; simp
  · simp [h, Ne.symm h]

theorem heldBy_of_pair (hc : (s.fault k).target = c) (hp : (s.fault k).partner = some p) (hne : c ≠ p) :
    s.heldBy k = (s.updRelaySet c fun x => { x with holder := some k }).updRelaySet p fun x =>
      { x with holder := some k } := by
  have hneeds : needs (s.fault k) = [c, p] := by rw [needs, hp, hc]
  refine congrArg (fun v => { s with relays := v }) (vector_ext_get fun d => ?_)
  rw [mapV_get, updV_get, State.updRelaySet_relays, updV_get, hneeds]
  by_cases h : c = d
  · subst h; simp [hne.symm]
  · by_cases h' : p = d
    · subst h'; simp [h]
    · simp [h, h', Ne.symm h, Ne.symm h']

/-- A relay that is closed with nothing in doubt, wanted open (R51). -/
theorem want_opened_of_closed (y : RelayTiming) : ({ state := .closed } : Relay).want y .opened =
    { state := .movingOpen, failed := false, movement := some ⟨0, y.settle, y.timeout⟩ } := rfl

/-- A start sequence whose first step opens a closed PATH waits for it (R51, R54). -/
theorem beginStart_of_closed {rest : List (List Wish)}
    (hsteps : startSteps { s.fault k with state := .starting } = [(d, .path, .opened)] :: rest)
    (hpath : (s.relaySet d).relays.path = { state := .closed }) :
    s.beginStart k = (s.updRelaySet d fun x => { x with relays := { x.relays with
      path := { state := .movingOpen, failed := false, movement := some ⟨0, s.timing.settle, s.timing.timeout⟩ } } }).updFault
        k fun r => { r with state := .starting, seq := some ⟨false, 0⟩ } := by
  let v := s.updFault k fun r => { r with state := .starting }
  let w := v.updRelaySet d fun x => { x with relays := { x.relays with
    path := { state := .movingOpen, failed := false, movement := some ⟨0, s.timing.settle, s.timing.timeout⟩ } } }
  have hstep : v.runStep [(d, .path, .opened)] = w := by
    refine updRelaySet_congr (s := v) ?_
    have hpath : (v.relaySet d).relays.path = { state := .closed } := hpath
    show { v.relaySet d with relays := { (v.relaySet d).relays with
      path := (v.relaySet d).relays.path.want v.timing .opened } } = _
    rw [hpath]
    rfl
  have hmoving : (v.runStep [(d, .path, .opened)]).stepMoving [(d, .path, .opened)] = true := by
    rw [hstep, State.stepMoving, List.any_cons, State.relay, State.updRelaySet_relaySet_self]
    rfl
  have hrun : runSteps v 0 ((sequenceSteps (v.fault k) false).drop 0) = (w, some 0) := by
    have hsteps : sequenceSteps (v.fault k) false = [(d, .path, .opened)] :: rest := by
      rw [State.updFault_fault_self]
      exact hsteps
    rw [List.drop_zero, hsteps, runSteps_first hmoving, hstep]
  have hgo : v.goOn k false 0 State.startComplete = w.updFault k fun r => { r with seq := some ⟨false, 0⟩ } := by
    simp only [State.goOn, hrun]
  refine hgo.trans ?_
  have htwice := updV_updV s.faults k (fun r => { r with state := .starting })
    fun r => { r with seq := some ⟨false, 0⟩ }
  exact congrArg (fun x => { s.updRelaySet d (fun x => { x with relays := { x.relays with
    path := { state := .movingOpen, failed := false, movement := some ⟨0, s.timing.settle, s.timing.timeout⟩ } } }) with
      faults := x }) htwice

theorem take_of_outOfService (hd : (s.fault k).onChannel d) (hs : (s.relaySet d).inService = false) :
    s.take k = s.enterFailed k .outOfService := by
  rw [take_eq, if_pos (outOfService_eq_true hd hs)]

theorem take_of_absent (hs : ∀ c, (s.fault k).onChannel c → (s.relaySet c).inService = true)
    (hk : (s.fault k).kind = .shortBat) (hb : s.battery.level = false) : s.take k = s.enterFailed k .noBattery := by
  rw [take_eq, if_neg (by rw [outOfService_eq_false hs]; decide), if_pos ⟨hk, hb⟩]

/-- A record of one channel opens its PATH (R54). -/
theorem take_of_single (hk : (s.fault k).kind = .openWire ∨ (s.fault k).kind = .shortGnd ∨
      ((s.fault k).kind = .shortBat ∧ s.battery.level = true)) (hc : (s.fault k).target = c)
    (hp : (s.fault k).partner = none) (hs : (s.relaySet c).inService = true)
    (hpath : (s.relaySet c).relays.path = { state := .closed }) :
    s.take k = (s.updRelaySet c (startsOpening s.timing k)).updFault k fun f =>
      { f with state := .starting, seq := some ⟨false, 0⟩ } := by
  have hservice : ∀ d, (s.fault k).onChannel d → (s.relaySet d).inService = true := by
    rintro d (h | h)
    · rw [← h, hc, hs]
    · rw [hp] at h; cases h
  have hbat : ¬((s.fault k).kind = .shortBat ∧ s.battery.level = false) := by
    rintro ⟨h, hl⟩
    rcases hk with hk | hk | ⟨-, hk⟩
    · rw [hk] at h; cases h
    · rw [hk] at h; cases h
    · rw [hk] at hl; cases hl
  have hshort : (s.fault k).kind ≠ .pinShort := by
    intro h
    rcases hk with hk | hk | ⟨hk, -⟩ <;> rw [hk] at h <;> cases h
  obtain ⟨rest, hsteps⟩ : ∃ rest, startSteps { s.fault k with state := .starting } = [(c, .path, .opened)] :: rest := by
    rcases hk with hk | hk | ⟨hk, -⟩
    · exact ⟨[], by simp only [startSteps, hk, hc]⟩
    · exact ⟨[[(c, .gnd, .closed)]], by simp only [startSteps, hk, hc]⟩
    · exact ⟨[[(c, .bat, .closed)]], by simp only [startSteps, hk, hc]⟩
  rw [take_eq, if_neg (by rw [outOfService_eq_false hservice]; decide), if_neg hbat, if_neg hshort,
    heldBy_of_single hc hp, beginStart_of_closed (s := s.updRelaySet c _) hsteps
      (by rw [State.updRelaySet_relaySet_self]; exact hpath), updRelaySet_updRelaySet]
  rfl

theorem freeBus_eq_some {b : Bus} (h : s.buses.x0 = none ∧ b = .x0 ∨ s.buses.x0 ≠ none ∧ s.buses.x1 = none ∧ b = .x1) :
    s.freeBus = some b := by
  rcases h with ⟨h, rfl⟩ | ⟨h, h', rfl⟩ <;> simp [State.freeBus, *]

/-- A PIN_SHORT record takes a cross bus and opens its partner's PATH (R54, R96). -/
theorem take_of_pinShort {b : Bus} (hk : (s.fault k).kind = .pinShort) (hc : (s.fault k).target = c)
    (hp : (s.fault k).partner = some p) (hne : c ≠ p) (hcs : (s.relaySet c).inService = true)
    (hps : (s.relaySet p).inService = true) (hpath : (s.relaySet p).relays.path = { state := .closed })
    (hb : s.buses.x0 = none ∧ b = .x0 ∨ s.buses.x0 ≠ none ∧ s.buses.x1 = none ∧ b = .x1) :
    s.take k = { ((s.updRelaySet c fun x => { x with holder := some k }).updRelaySet p
      (startsOpening s.timing k)).updFault k (fun f => { f with state := .starting, bus := some b, seq := some ⟨false, 0⟩ })
        with buses := s.buses.put b (some k) } := by
  have hservice : ∀ d, (s.fault k).onChannel d → (s.relaySet d).inService = true := by
    rintro d (h | h)
    · rw [← h, hc, hcs]
    · rw [hp] at h; cases h; exact hps
  have hfree : (s.heldBy k).freeBus = some b := freeBus_eq_some hb
  have hheld : (s.heldBy k).withFreeBus k = (s.heldBy k).withBus k b := by
    simp only [State.withFreeBus, hfree]
  have hsteps : startSteps { ((s.heldBy k).withBus k b).fault k with state := .starting } =
      [[(p, .path, .opened)], [(c, b.relay, .closed), (p, b.relay, .closed)]] := by
    rw [withBus_fault, if_pos rfl]
    simp only [startSteps, heldBy_fault, hk, hp, hc]
  have hpath' : (((s.heldBy k).withBus k b).relaySet p).relays.path = { state := .closed } := by
    rw [heldBy_of_pair hc hp hne]
    rw [withBus_relaySet, State.updRelaySet_relaySet_self, State.updRelaySet_relaySet_ne _ _ hne]
    exact hpath
  rw [take_eq, if_neg (by rw [outOfService_eq_false hservice]; decide), if_neg (by rw [hk]; exact fun h => by cases h.1), if_pos hk, hheld,
    beginStart_of_closed hsteps hpath', heldBy_of_pair hc hp hne]
  rw [withBus_updates, updRelaySet_updRelaySet]
  rfl

/-! ## The pass (R97) -/

/-- What a take comes to, the model makes of the record. -/
theorem take_of_takes (h : r.takes k u) : r.take k = u := by
  rcases h with ⟨why, hwhy, rfl⟩ | ⟨c, hk, hc, hp, hs, hpath, rfl⟩ | ⟨c, p, b, hk, hc, hp, hne, hcs, hps, hpath, hb, rfl⟩
  · rcases hwhy with ⟨rfl, c, hc, hs⟩ | ⟨rfl, hk, hb, hs⟩
    · exact take_of_outOfService hc hs
    · exact take_of_absent hs hk hb
  · exact take_of_single hk hc hp hs hpath
  · exact take_of_pinShort hk hc hp hne hcs hps hpath hb

/-- The state with the wait list taken out, as a pass works on it. -/
def State.unlisted (s : State) : State := { s with waitList := [], joining := [], examineDue := false }

theorem raiseSet_unlisted (s : State) (l : PortSet) (n : Notice) : (s.raiseSet l n).unlisted = s.unlisted.raiseSet l n := by
  obtain ⟨m, b⟩ := l
  cases m <;> cases b <;> rfl

theorem takes_unlisted (h : r.takes k u) : r.unlisted.takes k u.unlisted := by
  rcases h with ⟨why, hwhy, rfl⟩ | ⟨c, hk, hc, hp, hs, hpath, rfl⟩ | ⟨c, p, b, hk, hc, hp, hne, hcs, hps, hpath, hb, rfl⟩
  · exact .inl ⟨why, hwhy, raiseSet_unlisted _ _ _⟩
  · exact .inr (.inl ⟨c, hk, hc, hp, hs, hpath, rfl⟩)
  · exact .inr (.inr ⟨c, p, b, hk, hc, hp, hne, hcs, hps, hpath, hb, rfl⟩)

theorem waitsOn_unlisted {kept : List (Fin 64)} : r.unlisted.waitsOn kept k ↔ r.waitsOn kept k := Iff.rfl

/-- The pass leaves what it says, where it ends with no further examination due. -/
theorem passes_of_fold (l kept : List (Fin 64)) (ht : (l.foldl examineOne (r.unlisted, kept)).1.examineDue = false →
      t = { (l.foldl examineOne (r.unlisted, kept)).1 with
        waitList := (l.foldl examineOne (r.unlisted, kept)).2 ++ (l.foldl examineOne (r.unlisted, kept)).1.waitList }) :
    State.passes kept l r t := by
  induction l generalizing kept r with
  | nil =>
    refine (ht rfl).trans ?_
    simp only [List.foldl_nil, State.unlisted, List.append_nil]
  | cons k l ih =>
    rw [List.foldl_cons] at ht
    refine ⟨fun hw => ?_, fun hw u hu => ?_⟩
    · have hone : examineOne (r.unlisted, kept) k = (r.unlisted, kept ++ [k]) :=
        if_neg fun h => granted_iff.1 h (waitsOn_unlisted.2 hw)
      rw [hone] at ht
      exact ih _ ht
    · have hone : examineOne (r.unlisted, kept) k = (u.unlisted, kept) := by
        refine (if_pos (granted_iff.2 (mt waitsOn_unlisted.1 hw))).trans ?_
        rw [take_of_takes (takes_unlisted hu)]
      rw [hone] at ht
      exact ih _ ht

/-- The examination of the wait list leaves what R97 says. -/
theorem settle_passLeaves (h : s.examineDue = true) : s.passLeaves s.settle := by
  refine ⟨fun hd => settle_of_due hd, fun hd => passes_of_fold _ _ fun hex => ?_⟩
  have hone : s.settle = settleFuel 64 s.examine := by
    rw [State.settle, settleFuel, if_pos ⟨h, hd⟩]
  have hstop : s.examine.examineDue = false := hex
  rw [hone, settleFuel, if_neg (by rw [hstop]; exact fun h => Bool.false_ne_true h.1)]
  rfl

end Sys2Proof.Machine
end

section
/-! QUEUE_REPLAY and STOP_REPLAY (R133 to R136). -/

namespace Sys2Proof.Machine

variable {s t u : State} {tag x : Byte} {n : Fin 4} {m : Fin 32} {g : DescriptorArgs}

/-! ## QUEUE_REPLAY (R133, R134, R136) -/

theorem handleQueueReplay_of_bad_index (h : 4 ≤ x.toNat ∨ 32 ≤ g.segment.toNat) :
    handleQueueReplay x g s = refuse s .badValue := by
  unfold handleQueueReplay
  split
  next n m hn hm =>
    rw [indexIn_eq_some_iff] at hn hm
    omega
  next => rfl

/-- The descriptor that a QUEUE_REPLAY names. -/
def descriptorOf (m : Fin 32) (g : DescriptorArgs) : Descriptor :=
  ⟨m, g.first.toNat, g.count.toNat, g.loops.toNat, g.final, true⟩

theorem handleQueueReplay_eq (hn : x.toNat = n.1) (hm : g.segment.toNat = m.1) : handleQueueReplay x g s =
    if 8 ≤ (s.engine n).queue.length then refuse s .full
    else if (s.segment m).defined = false then refuse s .notFound
    else if descriptorBad (s.segment m) g then refuse s .badValue
    else okay (s.enqueue n (descriptorOf m g)) (.queued ((s.enqueue n (descriptorOf m g)).engine n).queue.length
      ((s.enqueue n (descriptorOf m g)).engine n).state) := by
  simp only [handleQueueReplay, indexIn_eq_some hn, indexIn_eq_some hm] <;> rfl

theorem descriptorBad_iff {y : Segment} : descriptorBad y g = true ↔
    g.count.toNat < 2 ∨ y.length < g.first.toNat + g.count.toNat ∨ 255 < g.loops.toNat := by
  simp [descriptorBad, or_assoc]

theorem startsOnQueue_iff : s.startsOnQueue n = true ↔
    s.run.mode = .run ∧ ((s.engine n).state = .idle ∨ (s.engine n).state = .underrun) ∧ (s.engine n).current = none := by
  simp [State.startsOnQueue, and_assoc]

theorem exec_queueReplay_of_refuse {c : Status} (hn : s.takesNow .B = true) (h : handleQueueReplay x g s = refuse s c) :
    exec (.queueReplay .B tag x g) s = .next (s.answerNo .B .queueReplay tag c) :=
  exec_of_refuse (i := .queueReplay .B tag x g) rfl rfl (by simp) rfl hn h

theorem exec_queueReplay_of_good (ht : s.takesNow .B = true) (hn : x.toNat = n.1) (hm : g.segment.toNat = m.1)
    (hq : (s.engine n).queue.length < 8) (hd : (s.segment m).defined = true)
    (hg : descriptorBad (s.segment m) g = false) (hu : s.enqueue n (descriptorOf m g) = u) :
    exec (.queueReplay .B tag x g) s =
      .next (u.answerOk .B .queueReplay tag (.queued (u.engine n).queue.length (u.engine n).state)) := by
  subst hu
  refine exec_of_okay (i := .queueReplay .B tag x g) rfl rfl (by simp) rfl ht ?_
  refine (handleQueueReplay_eq hn hm).trans ?_
  rw [if_neg (by omega), if_neg (by rw [hd]; decide), if_neg (by rw [hg]; decide)]

/-- A descriptor queued behind an engine that does not start on it. -/
theorem enqueue_of_waiting {d : Descriptor} (h : s.startsOnQueue n = false) : s.enqueue n d =
    (s.updSegment d.segment fun y => { y with refs := y.refs + 1 }).updEngine n fun e =>
      { e with queue := e.queue ++ [d] } := if_neg (by rw [h]; decide)

/-- A descriptor on which its engine starts: the head of the queue becomes the current one (R134, R136). -/
theorem enqueue_of_starting {d d' : Descriptor} {rest : List Descriptor} (h : s.startsOnQueue n = true)
    (hq : (s.engine n).queue ++ [d] = d' :: rest) : s.enqueue n d =
      { s.updSegment d.segment (fun y => { y with refs := y.refs + 1 }) with
        due := s.due.erase (.replayAdvance n) }.updEngine n fun e =>
          { e with state := .running, current := some { d' with ready := false }, queue := rest, k := 0,
                   e := 0, awaiting := e.pacing.isAngle } := by
  have hqueue : (((s.updSegment d.segment fun y => { y with refs := y.refs + 1 }).updEngine n fun e =>
      { e with queue := e.queue ++ [d] }).engine n).queue = d' :: rest := by
    rw [State.updEngine_engine_self]
    exact hq
  refine (if_pos h).trans ((promote_of_cons hqueue).trans ?_)
  exact congrArg (fun v => { s.updSegment d.segment (fun y => { y with refs := y.refs + 1 }) with
    due := s.due.erase (.replayAdvance n), engines := v }) (updV_updV s.engines n (fun e => { e with queue := e.queue ++ [d] })
      fun e => { e with state := .running, current := some { d' with ready := false }, queue := rest, k := 0, e := 0,
                        awaiting := e.pacing.isAngle })

/-! ## STOP_REPLAY (R135) -/

theorem heldDescriptors_length (e : Engine) :
    (heldDescriptors e).length = e.current.toList.length + e.queue.length := by
  rw [heldDescriptors, List.length_append]

theorem handleStopReplay_of_index (hn : x.toNat = n.1) : handleStopReplay x s =
    okay ((s.discardAll n).took (.replayAdvance n)).settle
      (.count ((s.engine n).current.toList.length + (s.engine n).queue.length)) := by
  rw [handleStopReplay, indexIn_eq_some hn, ← heldDescriptors_length] <;> rfl

theorem discardAll_spec (s : State) (n : Fin 4) :
    (s.discardAll n).engine n = { s.engine n with state := .idle, current := none, queue := [], k := 0, e := 0,
                                                  awaiting := false } ∧
    (∀ m, m ≠ n → (s.discardAll n).engine m = s.engine m) ∧
    ∀ g, (s.discardAll n).segment g = { s.segment g with refs := (s.segment g).refs - (s.engine n).names g } := by
  have hengines : ((heldDescriptors (s.engine n)).foldl (fun s d => s.dropRef d.segment) s).engines = s.engines := by
    rw [dropRefs_frame]
  have hengine (m : Fin 4) : ((heldDescriptors (s.engine n)).foldl (fun s d => s.dropRef d.segment) s).engine m =
      s.engine m := congrArg (·.get m) hengines
  refine ⟨?_, fun m hm => ?_, fun g => dropRefs_segment _ g⟩
  · rw [State.discardAll, State.updEngine_engine_self, hengine]
  · rw [State.discardAll, State.updEngine_engine_ne _ _ hm.symm, hengine]

/-- Settles O42. -/
theorem descriptorsQueuedAndDiscarded : Obligations.DescriptorsQueuedAndDiscarded := by
  refine ⟨fun s tag x g ht => ⟨fun hx => ?_, fun n m hn hm => ⟨fun hfull => ?_, fun hq hd => ?_, fun hq hd hbad => ?_,
    fun hq hd hcount hend hloops => ?_⟩⟩, fun s tag x ht => ⟨fun hx => ?_, fun n hn => ?_⟩⟩
  · exact exec_queueReplay_of_refuse ht (handleQueueReplay_of_bad_index hx)
  · exact exec_queueReplay_of_refuse ht ((handleQueueReplay_eq hn hm).trans (if_pos hfull))
  · refine exec_queueReplay_of_refuse ht ((handleQueueReplay_eq hn hm).trans ?_)
    rw [if_neg (by omega), if_pos hd]
  · refine exec_queueReplay_of_refuse ht ((handleQueueReplay_eq hn hm).trans ?_)
    rw [if_neg (by omega), if_neg (by rw [hd]; decide), if_pos (descriptorBad_iff.2 hbad)]
  · have hgood : descriptorBad (s.segment m) g = false := by
      rw [Bool.eq_false_iff, ne_eq, descriptorBad_iff]
      omega
    refine ⟨descriptorOf m g, rfl, fun hwait => ?_, fun hm' hcur hst d' rest hqueue => ?_⟩
    · have hstarts : s.startsOnQueue n = false := by
        rw [Bool.eq_false_iff, ne_eq, startsOnQueue_iff]
        rintro ⟨hmode, hidle, hcur⟩
        rcases hwait with h | h | ⟨h, h'⟩
        · exact h hmode
        · rw [hcur] at h; cases h
        · exact hidle.elim h h'
      rw [exec_queueReplay_of_good ht hn hm hq hd hgood (enqueue_of_waiting hstarts), State.updEngine_engine_self]
      simp <;> rfl
    · have hstarts : s.startsOnQueue n = true := startsOnQueue_iff.2 ⟨hm', hst, hcur⟩
      have hlength : rest.length = (s.engine n).queue.length := by
        have h := congrArg List.length hqueue
        simpa using h.symm
      rw [exec_queueReplay_of_good ht hn hm hq hd hgood (enqueue_of_starting hstarts hqueue),
        State.updEngine_engine_self, ← hlength]
      rfl
  · exact exec_of_refuse (i := .stopReplay .B tag x) rfl rfl (by simp) rfl ht
      (by show handleStopReplay x s = _; rw [handleStopReplay, indexIn_eq_none hx])
  · obtain ⟨hself, hother, hsegment⟩ := discardAll_spec s n
    refine ⟨(s.discardAll n).took (.replayAdvance n), _,
      exec_of_okay (i := .stopReplay .B tag x) rfl rfl (by simp) rfl ht (handleStopReplay_of_index hn), ?_, hself, hother,
      hsegment, fun hex => ?_, fun hex => ?_⟩
    · rw [discardAll_frame]
      rfl
    · exact settle_of_not_examineDue (by rw [discardAll_frame]; exact hex)
    · exact settle_passLeaves (by rw [discardAll_frame]; exact hex)

end Sys2Proof.Machine
end

section
/-! The advances of the replay engines: the end of a descriptor, REPLAY_ADVANCE, and a tick under ANGLE pacing (R136 to R138,
R144, R145). -/

namespace Sys2Proof

/-- An engine that no ANGLE pacing moves. -/
def Engine.unpaced (g : Engine) : Prop := g.state = .running → g.pacing.isAngle = false

end Sys2Proof

namespace Sys2Proof.Machine

variable {s t u : State} {n j : Fin 4} {d d' : Descriptor} {rest : List Descriptor} {w : Bool}

/-! ## The end of a descriptor (R136, R144, R145) -/

theorem updEngine_updEngine (s : State) (n : Fin 4) (f g : Engine → Engine) :
    (s.updEngine n f).updEngine n g = s.updEngine n fun x => g (f x) := by
  unfold State.updEngine
  rw [updV_updV]

/-- The segment of a finished descriptor with a reference fewer (R122). -/
def State.dropped (s : State) (d : Descriptor) : State := s.updSegment d.segment fun x => { x with refs := x.refs - 1 }

theorem endDescriptor_of_final (hd : (s.engine n).current = some d) (hl : d.loops = 0) (hf : d.final = true) :
    s.endDescriptor n w = ((s.dropped d).updEngine n fun g =>
      { g with state := .idle, current := none, k := 0, e := 0 }).raiseSet (s.engine n).notify .replayEvent := by
  have hengine : (((s.dropRef d.segment).updEngine n Engine.unloaded).engine n).notify = (s.engine n).notify := by
    rw [State.updEngine_engine_self]
    rfl
  rw [endDescriptor_of_over hd (by omega), State.goesOn, if_pos hf, hengine, updEngine_updEngine]
  rfl

theorem endDescriptor_of_empty (hd : (s.engine n).current = some d) (hl : d.loops = 0) (hf : d.final = false)
    (hq : (s.engine n).queue = []) : s.endDescriptor n w = ((s.dropped d).updEngine n fun g =>
      { g with state := .underrun, current := none, k := 0, e := 0 }).raiseSet (s.engine n).notify .replayEvent := by
  have hengine : ((s.dropRef d.segment).updEngine n Engine.unloaded).engine n = (s.engine n).unloaded := by
    rw [State.updEngine_engine_self]
    rfl
  have hempty : (((s.dropRef d.segment).updEngine n Engine.unloaded).engine n).queue.isEmpty = true := by
    rw [hengine, Engine.unloaded, hq]
    rfl
  have hnotify : (((s.dropRef d.segment).updEngine n Engine.unloaded).engine n).notify = (s.engine n).notify := by
    rw [hengine]
    rfl
  rw [endDescriptor_of_over hd (by omega), State.goesOn, if_neg (by rw [hf]; decide), if_pos hempty, hnotify,
    updEngine_updEngine]
  rfl

theorem endDescriptor_of_next (hd : (s.engine n).current = some d) (hl : d.loops = 0) (hf : d.final = false)
    (hq : (s.engine n).queue = d' :: rest) : s.endDescriptor n w =
      { s.dropped d with due := s.due.erase (.replayAdvance n) }.updEngine n fun g =>
        { g with state := .running, current := some { d' with ready := false }, queue := rest, k := 0, e := 0,
                 awaiting := g.pacing.isAngle && !w } := by
  have hengine : ((s.dropRef d.segment).updEngine n Engine.unloaded).engine n = (s.engine n).unloaded := by
    rw [State.updEngine_engine_self]
    rfl
  have hqueue : (((s.dropRef d.segment).updEngine n Engine.unloaded).engine n).queue = d' :: rest := by
    rw [hengine, Engine.unloaded, hq]
  rw [endDescriptor_of_over hd (by omega), State.goesOn, if_neg (by rw [hf]; decide), if_neg (by rw [hqueue]; exact Bool.false_ne_true),
    promote_of_cons hqueue]
  refine (updEngine_updEngine { (s.dropRef d.segment).updEngine n Engine.unloaded with
    due := s.due.erase (.replayAdvance n) } n (fun g => { g with
      state := .running, current := some { d' with ready := false }, queue := rest, k := 0, e := 0,
      awaiting := g.pacing.isAngle }) fun g => { g with awaiting := g.awaiting && !w }).trans ?_
  exact updEngine_updEngine { s.dropped d with due := s.due.erase (.replayAdvance n) } n Engine.unloaded _

/-! ## A moved position (R137, R138) -/

theorem movePosition_of_within (hd : (s.engine n).current = some d) {a : Nat} (h : (s.engine n).k + a < d.count) :
    s.movePosition n a w = s.updEngine n fun g => { g with k := g.k + a } := by
  have hengine := State.updEngine_engine_self s n fun g => { g with k := g.k + a }
  simp only [State.movePosition, hengine, hd]
  exact if_neg (by omega)

theorem movePosition_of_over (hd : (s.engine n).current = some d) {a : Nat} (h : d.count ≤ (s.engine n).k + a) :
    s.movePosition n a w = (s.updEngine n fun g => { g with k := g.k + a }).endDescriptor n w := by
  have hengine := State.updEngine_engine_self s n fun g => { g with k := g.k + a }
  simp only [State.movePosition, hengine, hd]
  exact if_pos h

/-! ## REPLAY_ADVANCE (R137) -/

theorem takeReplayAdvance_of_due {p : Nat} (hr : (s.engine n).state = .running) (hp : (s.engine n).pacing = .time p)
    (he : p ≤ (s.engine n).e + 1) (hd : (s.engine n).current = some d) :
    s.takeReplayAdvance n = (s.updEngine n fun g => { g with e := 0 }).movePosition n 1 false := by
  simp only [State.takeReplayAdvance, hr, hp, hd]
  exact if_pos he

/-- The engine's position is counted on as its advance is taken. -/
def State.counted (s : State) (n : Fin 4) : State := s.updEngine n fun g => { g with e := 0, k := g.k + 1 }

theorem counted_engine (s : State) (n : Fin 4) :
    (s.counted n).engine n = { s.engine n with e := 0, k := (s.engine n).k + 1 } := State.updEngine_engine_self _ _ _

theorem counted_dropped (s : State) (n : Fin 4) (d : Descriptor) (f : Engine → Engine) :
    ((s.counted n).dropped d).updEngine n f = (s.dropped d).updEngine n fun g => f { g with e := 0, k := g.k + 1 } :=
  updEngine_updEngine (s.dropped d) n _ f

theorem updEngine_congr {f g : Engine → Engine} (h : f (s.engine n) = g (s.engine n)) :
    s.updEngine n f = s.updEngine n g := by
  unfold State.updEngine
  rw [updV_congr h]

theorem takeReplayAdvance_of_within {p : Nat} (hr : (s.engine n).state = .running) (hp : (s.engine n).pacing = .time p)
    (he : p ≤ (s.engine n).e + 1) (hd : (s.engine n).current = some d) (hk : (s.engine n).k + 1 < d.count) :
    s.takeReplayAdvance n = s.counted n := by
  have hengine := State.updEngine_engine_self s n fun g => { g with e := 0 }
  rw [takeReplayAdvance_of_due hr hp he hd, movePosition_of_within (by rw [hengine]; exact hd) (by rw [hengine]; exact hk),
    updEngine_updEngine]
  rfl

theorem takeReplayAdvance_of_over {p : Nat} (hr : (s.engine n).state = .running) (hp : (s.engine n).pacing = .time p)
    (he : p ≤ (s.engine n).e + 1) (hd : (s.engine n).current = some d) (hk : d.count ≤ (s.engine n).k + 1) :
    s.takeReplayAdvance n = (s.counted n).endDescriptor n false := by
  have hengine := State.updEngine_engine_self s n fun g => { g with e := 0 }
  rw [takeReplayAdvance_of_due hr hp he hd, movePosition_of_over (by rw [hengine]; exact hd) (by rw [hengine]; exact hk),
    updEngine_updEngine]
  rfl

/-- An advance that is taken with no pass of the wait list behind it. -/
theorem exec_replayAdvance (hdue : Event.replayAdvance n ∈ s.due) (hq : s.noPassAfter (.replayAdvance n))
    (h : (s.took (.replayAdvance n)).takeReplayAdvance n = u) (hd : u.due = s.due.erase (.replayAdvance n))
    (hx : u.examineDue = s.examineDue) : exec (.replayAdvance n) s = .next u := by
  subst h
  exact congrArg Host.Outcome.next (takeEvent_of_quiet hdue hq hd hx)

/-- REPLAY_ADVANCE in each of its cases. -/
theorem replayAdvance_cases {p : Nat} (hdue : Event.replayAdvance n ∈ s.due) (hq : s.noPassAfter (.replayAdvance n))
    (hr : (s.engine n).state = .running) (hp : (s.engine n).pacing = .time p) (he : p ≤ (s.engine n).e + 1)
    (hd : (s.engine n).current = some d) (hc : s.due.count (.replayAdvance n) = 1) :
    ((s.engine n).k + 1 < d.count → exec (.replayAdvance n) s = .next ((s.took (.replayAdvance n)).updEngine n fun g =>
      { g with e := 0, k := (s.engine n).k + 1 })) ∧
    (d.count ≤ (s.engine n).k + 1 → 0 < d.loops → exec (.replayAdvance n) s =
      .next ((s.took (.replayAdvance n)).updEngine n fun g =>
        { g with e := 0, k := 0, current := some { d with loops := d.loops - 1 } })) ∧
    (d.count ≤ (s.engine n).k + 1 → d.loops = 0 → d.final = true → exec (.replayAdvance n) s =
      .next ((((s.took (.replayAdvance n)).dropped d).updEngine n fun g =>
        { g with state := .idle, e := 0, k := 0, current := none }).raiseSet (s.engine n).notify .replayEvent)) ∧
    (d.count ≤ (s.engine n).k + 1 → d.loops = 0 → d.final = false → (s.engine n).queue = [] →
      exec (.replayAdvance n) s = .next ((((s.took (.replayAdvance n)).dropped d).updEngine n fun g =>
        { g with state := .underrun, e := 0, k := 0, current := none }).raiseSet (s.engine n).notify .replayEvent)) ∧
    ∀ d' rest, d.count ≤ (s.engine n).k + 1 → d.loops = 0 → d.final = false → (s.engine n).queue = d' :: rest →
      exec (.replayAdvance n) s = .next (((s.took (.replayAdvance n)).dropped d).updEngine n fun g =>
        { g with e := 0, k := 0, queue := rest, awaiting := false, current := some { d' with ready := false } }) := by
  have hcounted := counted_engine (s.took (.replayAdvance n)) n
  have hcurrent : (((s.took (.replayAdvance n)).counted n).engine n).current = some d := by rw [hcounted]; exact hd
  have hover (h : d.count ≤ (s.engine n).k + 1) :=
    takeReplayAdvance_of_over (s := s.took (.replayAdvance n)) (n := n) hr hp he hd h
  refine ⟨fun h => ?_, fun h hl => ?_, fun h hl hf => ?_, fun h hl hf hempty => ?_, fun d' rest h hl hf hnext => ?_⟩
  · refine exec_replayAdvance hdue hq ((takeReplayAdvance_of_within (s := s.took (.replayAdvance n)) hr hp he hd h).trans ?_)
      rfl rfl
    exact congrArg (fun v => { s.took (.replayAdvance n) with engines := v }) (updV_congr rfl)
  · refine exec_replayAdvance hdue hq ((hover h).trans ((endDescriptor_of_loops hcurrent hl _).trans ?_)) rfl rfl
    exact updEngine_updEngine _ _ _ _
  · refine exec_replayAdvance hdue hq ((hover h).trans ((endDescriptor_of_final hcurrent hl hf).trans ?_)) rfl rfl
    rw [hcounted, counted_dropped]
    rfl
  · have hqueue : (((s.took (.replayAdvance n)).counted n).engine n).queue = [] := by rw [hcounted]; exact hempty
    refine exec_replayAdvance hdue hq ((hover h).trans ((endDescriptor_of_empty hcurrent hl hf hqueue).trans ?_)) rfl rfl
    rw [hcounted, counted_dropped]
    rfl
  · have hqueue : (((s.took (.replayAdvance n)).counted n).engine n).queue = d' :: rest := by rw [hcounted]; exact hnext
    have hone : (s.due.erase (.replayAdvance n)).erase (.replayAdvance n) = s.due.erase (.replayAdvance n) := by
      refine List.erase_of_not_mem (List.count_eq_zero.1 ?_)
      rw [List.count_erase_self, hc]
    refine exec_replayAdvance hdue hq ((hover h).trans ((endDescriptor_of_next hcurrent hl hf hqueue).trans ?_)) rfl rfl
    have hdueNow : ((s.took (.replayAdvance n)).counted n).due.erase (.replayAdvance n) =
        (s.took (.replayAdvance n)).due := hone
    rw [hdueNow]
    refine (counted_dropped (s.took (.replayAdvance n)) n d _).trans ?_
    refine updEngine_congr ?_
    have hsame : ((s.took (.replayAdvance n)).dropped d).engine n = s.engine n := rfl
    simp only [hsame, hr, hp, Pacing.isAngle, Bool.false_and]

/-! ## A moved position: its engine, the segments and the notices -/

/-- A position at the end of a descriptor that does not loop. -/
def finishes (g : Engine) (d : Descriptor) (a : Nat) : Bool := decide (d.count ≤ g.k + a) && decide (d.loops = 0)

theorem updEngine_overwrites {f g h : Engine → Engine} (hg : g (f (s.engine n)) = h (s.engine n)) :
    (s.updEngine n f).updEngine n g = s.updEngine n h := by
  rw [updEngine_updEngine]
  exact updEngine_congr hg

theorem dropped_segment (g : Fin 32) : (s.dropped d).segment g =
    if g = d.segment then { s.segment g with refs := (s.segment g).refs - 1 } else s.segment g := by
  unfold State.dropped
  by_cases h : g = d.segment
  · subst h; simp
  · simp [h, Ne.symm h]

/-- What a moved position leaves of its engine. -/
theorem movePosition_engine (hd : (s.engine n).current = some d) (a : Nat) :
    ((s.engine n).k + a < d.count → (s.movePosition n a w).engine n = { s.engine n with k := (s.engine n).k + a }) ∧
    (d.count ≤ (s.engine n).k + a → 0 < d.loops → (s.movePosition n a w).engine n =
      { s.engine n with k := 0, current := some { d with loops := d.loops - 1 } }) ∧
    (d.count ≤ (s.engine n).k + a → d.loops = 0 → d.final = true → (s.movePosition n a w).engine n =
      { s.engine n with state := .idle, e := 0, k := 0, current := none }) ∧
    (d.count ≤ (s.engine n).k + a → d.loops = 0 → d.final = false → (s.engine n).queue = [] →
      (s.movePosition n a w).engine n = { s.engine n with state := .underrun, e := 0, k := 0, current := none }) ∧
    ∀ d' rest, d.count ≤ (s.engine n).k + a → d.loops = 0 → d.final = false → (s.engine n).queue = d' :: rest →
      (s.movePosition n a w).engine n = { s.engine n with
        state := .running, e := 0, k := 0, queue := rest, current := some { d' with ready := false }
        awaiting := (s.engine n).pacing.isAngle && !w } := by
  have hself := State.updEngine_engine_self s n fun g => { g with k := g.k + a }
  have hcurrent : ((s.updEngine n fun g => { g with k := g.k + a }).engine n).current = some d := by rw [hself]; exact hd
  refine ⟨fun h => ?_, fun h hl => ?_, fun h hl hf => ?_, fun h hl hf hq => ?_, fun d' rest h hl hf hq => ?_⟩
  · rw [movePosition_of_within hd h, hself]
  · rw [movePosition_of_over hd h, endDescriptor_of_loops hcurrent hl, State.updEngine_engine_self, hself]
  · rw [movePosition_of_over hd h, endDescriptor_of_final hcurrent hl hf]
    show (((s.updEngine n _).dropped d).updEngine n _).engine n = _
    rw [State.updEngine_engine_self]
    show { (s.updEngine n fun g => { g with k := g.k + a }).engine n with state := .idle, current := none, k := 0, e := 0 } = _
    rw [hself]
  · have hqueue : ((s.updEngine n fun g => { g with k := g.k + a }).engine n).queue = [] := by rw [hself]; exact hq
    rw [movePosition_of_over hd h, endDescriptor_of_empty hcurrent hl hf hqueue]
    show (((s.updEngine n _).dropped d).updEngine n _).engine n = _
    rw [State.updEngine_engine_self]
    show { (s.updEngine n fun g => { g with k := g.k + a }).engine n with
      state := .underrun, current := none, k := 0, e := 0 } = _
    rw [hself]
  · have hqueue : ((s.updEngine n fun g => { g with k := g.k + a }).engine n).queue = d' :: rest := by rw [hself]; exact hq
    rw [movePosition_of_over hd h, endDescriptor_of_next hcurrent hl hf hqueue, State.updEngine_engine_self]
    show { (s.updEngine n fun g => { g with k := g.k + a }).engine n with
      state := .running, current := some { d' with ready := false }, queue := rest, k := 0, e := 0,
      awaiting := ((s.updEngine n fun g => { g with k := g.k + a }).engine n).pacing.isAngle && !w } = _
    rw [hself]

/-- The ways in which a current descriptor comes to its end. -/
theorem endDescriptor_cases {P : State → Prop} (hd : (s.engine n).current = some d)
    (hloops : 0 < d.loops → P (s.updEngine n fun g => { g with current := some { d with loops := d.loops - 1 }, k := 0 }))
    (hstops : ∀ x, d.loops = 0 → (d.final = true ∨ (s.engine n).queue = []) → P (((s.dropped d).updEngine n fun g =>
      { g with state := x, current := none, k := 0, e := 0 }).raiseSet (s.engine n).notify .replayEvent))
    (hnext : ∀ d' rest, d.loops = 0 → d.final = false → (s.engine n).queue = d' :: rest →
      P ({ s.dropped d with due := s.due.erase (.replayAdvance n) }.updEngine n fun g =>
        { g with state := .running, current := some { d' with ready := false }, queue := rest, k := 0, e := 0,
                 awaiting := g.pacing.isAngle && !w })) : P (s.endDescriptor n w) := by
  by_cases hl : 0 < d.loops
  · rw [endDescriptor_of_loops hd hl]
    exact hloops hl
  · have hzero : d.loops = 0 := by omega
    cases hf : d.final with
    | true =>
      rw [endDescriptor_of_final hd hzero hf]
      exact hstops _ hzero (.inl hf)
    | false =>
      cases hq : (s.engine n).queue with
      | nil =>
        rw [endDescriptor_of_empty hd hzero hf hq]
        exact hstops _ hzero (.inr hq)
      | cons d' rest =>
        rw [endDescriptor_of_next hd hzero hf hq]
        exact hnext d' rest hzero hf hq

theorem endDescriptor_engine_ne (h : n ≠ j) : (s.endDescriptor n w).engine j = s.engine j := by
  cases hd : (s.engine n).current with
  | none => simp only [State.endDescriptor, hd]
  | some d =>
    refine endDescriptor_cases (P := fun u => u.engine j = s.engine j) hd (fun _ => ?_) (fun x _ _ => ?_)
      (fun d' rest _ _ _ => ?_)
    · exact State.updEngine_engine_ne _ _ h
    · exact State.updEngine_engine_ne (s.dropped d) (fun g => { g with state := x, current := none, k := 0, e := 0 }) h
    · exact State.updEngine_engine_ne _ _ h

theorem movePosition_engine_ne (h : n ≠ j) (a : Nat) : (s.movePosition n a w).engine j = s.engine j := by
  have hmoved : (s.updEngine n fun g => { g with k := g.k + a }).engine j = s.engine j := State.updEngine_engine_ne _ _ h
  unfold State.movePosition
  dsimp only
  split
  · split
    · rw [endDescriptor_engine_ne h, hmoved]
    · exact hmoved
  · exact hmoved

theorem replayEvent_sticky (s : State) (l : PortSet) (p : Port) :
    ((s.raiseSet l .replayEvent).port p).sticky.getLsbD 5 = ((s.port p).sticky.getLsbD 5 || names l p) := by
  rw [raiseSet_port]
  split
  next h => rw [h, Bool.or_true]; exact raise_sticky_self _ .replayEvent
  next h => rw [Bool.not_eq_true] at h; rw [h, Bool.or_false]

theorem endDescriptor_rest (hd : (s.engine n).current = some d) :
    (∀ g, (s.endDescriptor n w).segment g = if d.loops = 0 ∧ g = d.segment then
      { s.segment g with refs := (s.segment g).refs - 1 } else s.segment g) ∧
    ∀ p, ((s.endDescriptor n w).port p).sticky.getLsbD 5 = ((s.port p).sticky.getLsbD 5 ||
      (decide (d.loops = 0) && (d.final || (s.engine n).queue.isEmpty) && names (s.engine n).notify p)) := by
  refine endDescriptor_cases (P := fun u => (∀ g, u.segment g = if d.loops = 0 ∧ g = d.segment then
      { s.segment g with refs := (s.segment g).refs - 1 } else s.segment g) ∧
    ∀ p, (u.port p).sticky.getLsbD 5 = ((s.port p).sticky.getLsbD 5 ||
      (decide (d.loops = 0) && (d.final || (s.engine n).queue.isEmpty) && names (s.engine n).notify p))) hd
    (fun h => ?_) (fun x h hstop => ?_) (fun d' rest h hf hq => ?_)
  · have hne : d.loops ≠ 0 := by omega
    exact ⟨fun g => by simp [hne], fun p => by cases p <;> simp [hne, State.port]⟩
  · refine ⟨fun g => ?_, fun p => ?_⟩
    · simp only [h, true_and]
      exact dropped_segment g
    · have hend : (d.final || (s.engine n).queue.isEmpty) = true := by
        rcases hstop with h | h <;> simp [h]
      rw [replayEvent_sticky, h, hend]
      cases p <;> rfl
  · refine ⟨fun g => ?_, fun p => ?_⟩
    · simp only [h, true_and]
      exact dropped_segment g
    · rw [hf, hq]
      cases p <;> simp [State.port, State.dropped]

/-- What a moved position leaves of the segments and of the REPLAY_EVENT flags (R122, R145). -/
theorem movePosition_rest (hd : (s.engine n).current = some d) (a : Nat) :
    (∀ g, (s.movePosition n a w).segment g = if finishes (s.engine n) d a = true ∧ g = d.segment then
      { s.segment g with refs := (s.segment g).refs - 1 } else s.segment g) ∧
    ∀ p, ((s.movePosition n a w).port p).sticky.getLsbD 5 = ((s.port p).sticky.getLsbD 5 ||
      (finishes (s.engine n) d a && (d.final || (s.engine n).queue.isEmpty) && names (s.engine n).notify p)) := by
  have hself := State.updEngine_engine_self s n fun g => { g with k := g.k + a }
  by_cases h : d.count ≤ (s.engine n).k + a
  · have hcurrent : ((s.updEngine n fun g => { g with k := g.k + a }).engine n).current = some d := by rw [hself]; exact hd
    have hf : finishes (s.engine n) d a = decide (d.loops = 0) := by rw [finishes, decide_eq_true h, Bool.true_and]
    obtain ⟨hsegment, hport⟩ := endDescriptor_rest (w := w) hcurrent
    rw [movePosition_of_over hd h, hf]
    refine ⟨fun g => (hsegment g).trans ?_, fun p => (hport p).trans ?_⟩
    · simp only [decide_eq_true_eq]
      rfl
    · rw [hself]
      cases p <;> rfl
  · have hf : finishes (s.engine n) d a = false := by rw [finishes, decide_eq_false h, Bool.false_and]
    rw [movePosition_of_within hd (by omega), hf]
    exact ⟨fun g => by simp, fun p => by cases p <;> simp [State.port]⟩

/-! ## A tick of the engines (R137, R138) -/

/-- How far the phase moves an ANGLE-paced position of `m` samples a cycle. -/
def sampleRise (before now : BitVec 32) (m : Nat) : Nat := (cycleSample now m + m - cycleSample before m) % m

variable {m : Nat} {b : BitVec 32}

theorem tickEngine_awaiting (hr : (s.engine n).state = .running) (hp : (s.engine n).pacing = .angle m)
    (hd : (s.engine n).current = some d) (ha : (s.engine n).awaiting = true) : State.tickEngine b w s n =
      if w then s.updEngine n fun g => { g with awaiting := false, k := 0 } else s := by
  simp only [State.tickEngine, hr, hp, hd, ha, Option.isSome_some, and_self, if_true]

theorem tickEngine_playing (hr : (s.engine n).state = .running) (hp : (s.engine n).pacing = .angle m)
    (hd : (s.engine n).current = some d) (ha : (s.engine n).awaiting = false) : State.tickEngine b w s n =
      s.movePosition n (sampleRise b s.angle.phase m) w := by
  simp only [State.tickEngine, hr, hp, hd, ha, Option.isSome_some, and_self, if_true]
  rfl

/-- A tick of an engine that no ANGLE pacing moves. -/
theorem tickEngine_of_unpaced (h : (s.engine n).unpaced) : State.tickEngine b w s n = s ∨
    State.tickEngine b w s n = (s.updEngine n fun g => { g with e := g.e + 1 }) ∨
    State.tickEngine b w s n = s.addDue [.replayAdvance n] := by
  unfold State.tickEngine
  dsimp only
  split
  next hr =>
    split
    next m hm =>
      have hangle := h hr.1
      rw [hm] at hangle
      cases hangle
    next =>
      split
      · exact .inr (.inl rfl)
      · exact .inr (.inr rfl)
  next => exact .inl rfl

theorem tickEngine_engine_ne (h : n ≠ j) : (State.tickEngine b w s n).engine j = s.engine j := by
  unfold State.tickEngine
  dsimp only
  split
  · split
    · split
      · split
        · exact State.updEngine_engine_ne _ _ h
        · rfl
      · exact movePosition_engine_ne h _
    · split
      · exact State.updEngine_engine_ne _ _ h
      · rfl
  · rfl

/-- The engines before and after engine `n`. -/
theorem engines_around (n : Fin 4) : ∃ l r : List (Fin 4), List.finRange 4 = l ++ n :: r ∧ n ∉ l ∧ n ∉ r := by
  obtain ⟨l, r, h⟩ := List.append_of_mem (List.mem_finRange n)
  have hnodup := List.nodup_finRange 4
  rw [h, List.nodup_middle, List.nodup_cons, List.mem_append, not_or] at hnodup
  exact ⟨l, r, h, hnodup.1⟩

/-- Ticks of engines that no ANGLE pacing moves leave the segments and the ports. -/
theorem tickAll_of_unpaced {q : Fin 4 → Prop} (l : List (Fin 4)) (hl : ∀ j ∈ l, q j)
    (hu : ∀ j, q j → (s.engine j).unpaced) :
    (l.foldl (State.tickEngine b w) s).segments = s.segments ∧ (l.foldl (State.tickEngine b w) s).portM = s.portM ∧
      (l.foldl (State.tickEngine b w) s).portB = s.portB ∧
      ∀ j, q j → ((l.foldl (State.tickEngine b w) s).engine j).unpaced := by
  induction l generalizing s with
  | nil => exact ⟨rfl, rfl, rfl, hu⟩
  | cons i l ih =>
    have hone : (State.tickEngine b w s i).segments = s.segments ∧ (State.tickEngine b w s i).portM = s.portM ∧
        (State.tickEngine b w s i).portB = s.portB ∧ ∀ j, q j → ((State.tickEngine b w s i).engine j).unpaced := by
      rcases tickEngine_of_unpaced (b := b) (w := w) (hu i (hl i List.mem_cons_self)) with h | h | h <;> rw [h]
      · exact ⟨rfl, rfl, rfl, hu⟩
      · refine ⟨rfl, rfl, rfl, fun j hj => ?_⟩
        by_cases hij : i = j
        · subst hij
          rw [State.updEngine_engine_self]
          exact hu i hj
        · rw [State.updEngine_engine_ne _ _ hij]
          exact hu j hj
      · exact ⟨rfl, rfl, rfl, hu⟩
    obtain ⟨hsegments, hM, hB, hrest⟩ := ih (fun j hj => hl j (List.mem_cons_of_mem i hj)) hone.2.2.2
    exact ⟨hsegments.trans hone.1, hM.trans hone.2.1, hB.trans hone.2.2.1, hrest⟩

/-- The engines that tick before and after engine `n` leave it as it was; where no ANGLE pacing moves them, they leave the
segments and the ports too. -/
theorem tickEngines_visits (b : BitVec 32) (w : Bool) (hm : s.run.mode = .run) (n : Fin 4) : ∃ u : State,
    u.engine n = s.engine n ∧ u.angle = s.angle ∧
    (s.tickEngines b w).engine n = (State.tickEngine b w u n).engine n ∧
    ((∀ j, j ≠ n → (s.engine j).unpaced) → (∀ g, u.segment g = s.segment g) ∧ (∀ p, u.port p = s.port p) ∧
      (∀ g, (s.tickEngines b w).segment g = (State.tickEngine b w u n).segment g) ∧
      ∀ p, (s.tickEngines b w).port p = (State.tickEngine b w u n).port p) := by
  obtain ⟨l, r, hl, hnl, hnr⟩ := engines_around n
  have hskip (x : List (Fin 4)) (hx : n ∉ x) (v : State) : (x.foldl (State.tickEngine b w) v).engine n = v.engine n :=
    foldl_skips (g := State.engine) (fun u i k h => tickEngine_engine_ne h) hx v
  have hticks : s.tickEngines b w =
      r.foldl (State.tickEngine b w) (State.tickEngine b w (l.foldl (State.tickEngine b w) s) n) := by
    rw [State.tickEngines, if_pos hm, hl, List.foldl_append, List.foldl_cons]
  refine ⟨l.foldl (State.tickEngine b w) s, hskip l hnl s, ?_, by rw [hticks, hskip r hnr], fun hu => ?_⟩
  · exact foldl_keeps State.angle _ (fun v i => by simp) l s
  · obtain ⟨hsegments, hM, hB, hrest⟩ := tickAll_of_unpaced (b := b) (w := w) (q := (· ≠ n)) l (fun j hj h => hnl (h ▸ hj)) hu
    have hu' : ∀ j, j ≠ n → ((State.tickEngine b w (l.foldl (State.tickEngine b w) s) n).engine j).unpaced := fun j hj => by
      rw [tickEngine_engine_ne hj.symm]
      exact hrest j hj
    obtain ⟨hsegments', hM', hB', -⟩ := tickAll_of_unpaced (b := b) (w := w) (q := (· ≠ n)) r (fun j hj h => hnr (h ▸ hj)) hu'
    rw [hticks]
    refine ⟨fun g => congrArg (·.get g) hsegments, fun p => ?_, fun g => congrArg (·.get g) hsegments', fun p => ?_⟩
    · cases p
      · exact hM
      · exact hB
    · cases p
      · exact hM'
      · exact hB'

end Sys2Proof.Machine
end

section
/-! O43: REPLAY_ADVANCE and a tick under ANGLE pacing. -/

namespace Sys2Proof.Machine

variable {s t u v : State} {n j : Fin 4} {d d' : Descriptor} {rest : List Descriptor} {w : Bool} {m : Nat}

/-! ## How far the phase moves a position (R138) -/

theorem cycleSample_def (x : BitVec 32) (m : Nat) : cycleSample x m = x.toNat * m / 2 ^ 32 := by
  rw [cycleSample]

theorem cycleSample_eq (x : BitVec 32) (m : Nat) : cycleSample x m = x.toNat * m / 4294967296 := rfl

theorem cycleSample_lt (x : BitVec 32) (hm : 1 ≤ m) : cycleSample x m < m := by
  rw [cycleSample_eq, Nat.div_lt_iff_lt_mul (by decide), Nat.mul_comm m]
  exact Nat.mul_lt_mul_of_pos_right x.isLt hm

theorem sampleRise_mod (x y : BitVec 32) (hm : 1 ≤ m) : (cycleSample x m + sampleRise x y m) % m = cycleSample y m := by
  have hx := cycleSample_lt x hm
  have hy := cycleSample_lt y hm
  have hsum : cycleSample x m + (cycleSample y m + m - cycleSample x m) = cycleSample y m + m := by omega
  rw [sampleRise, Nat.add_mod_mod, hsum, Nat.add_mod_right, Nat.mod_eq_of_lt hy]

theorem sampleRise_pos_iff (x y : BitVec 32) (hm : 1 < m) (h : sampleRise x y m ≤ 1) :
    sampleRise x y m = 1 ↔ cycleSample x m ≠ cycleSample y m := by
  have hmod := sampleRise_mod x y (m := m) (by omega)
  have hx := cycleSample_lt x (m := m) (by omega)
  rcases (by omega : sampleRise x y m = 0 ∨ sampleRise x y m = 1) with h0 | h1
  · rw [h0, Nat.add_zero, Nat.mod_eq_of_lt hx] at hmod
    simp [h0, hmod]
  · refine iff_of_true h1 fun heq => ?_
    rw [h1, ← heq] at hmod
    by_cases hlast : cycleSample x m + 1 = m
    · rw [hlast, Nat.mod_self] at hmod
      omega
    · rw [Nat.mod_eq_of_lt (by omega)] at hmod
      omega

/-- Two quotients by 2^32 whose dividends differ by less than it, round a turn of `m` at most. -/
theorem quotients_differ {X Y A : Nat} (hA : A < 4294967296) (hX : X < 4294967296 * m)
    (hY : Y = X + A ∨ Y + 4294967296 * m = X + A) :
    Y / 4294967296 + m - X / 4294967296 = 0 ∨ Y / 4294967296 + m - X / 4294967296 = 1 ∨
      Y / 4294967296 + m - X / 4294967296 = m ∨ Y / 4294967296 + m - X / 4294967296 = m + 1 := by
  omega

theorem mod_le_one {a : Nat} (h : a = 0 ∨ a = 1 ∨ a = m ∨ a = m + 1) : a % m ≤ 1 := by
  rcases h with rfl | rfl | rfl | rfl
  · rw [Nat.zero_mod]; exact Nat.zero_le 1
  · exact Nat.mod_le 1 m
  · rw [Nat.mod_self]; exact Nat.zero_le 1
  · rw [Nat.add_mod_left]; exact Nat.mod_le 1 m

theorem phase_times_lt (x : BitVec 32) (hm : 1 ≤ m) : x.toNat * m < 4294967296 * m := by
  have hx : x.toNat < 4294967296 := by
    have h := x.isLt
    omega
  exact Nat.mul_lt_mul_of_pos_right hx hm

theorem phase_times_after {x y : BitVec 32} {a : Nat} (ha : a ≤ 572662) (hy : y.toNat = (x.toNat + a) % 4294967296) :
    y.toNat * m = x.toNat * m + a * m ∨ y.toNat * m + 4294967296 * m = x.toNat * m + a * m := by
  have hturn : y.toNat = x.toNat + a ∨ y.toNat + 4294967296 = x.toNat + a := by
    have h := x.isLt
    omega
  rcases hturn with h | h
  · exact .inl (by rw [h, Nat.add_mul])
  · exact .inr (by rw [← Nat.add_mul, h, Nat.add_mul])

/-- A phase addition of at most 572,662 passes the start of at most one sample of 4096 or fewer. -/
theorem sampleRise_le_one {x y : BitVec 32} {a : Nat} (ha : a ≤ 572662) (hy : y.toNat = (x.toNat + a) % 4294967296)
    (hm : 1 ≤ m) (hm' : m ≤ 4096) : sampleRise x y m ≤ 1 := by
  have hsmall : a * m < 4294967296 := by
    have h := Nat.mul_le_mul ha hm'
    omega
  rw [sampleRise, cycleSample_eq, cycleSample_eq]
  exact mod_le_one (quotients_differ hsmall (phase_times_lt x hm) (phase_times_after ha hy))

/-! ## What a tick leaves of the engines, the segments and the REPLAY_EVENT flags -/

theorem flush_of_quiet (hd : s.due = []) : s.flush = s := by
  have hfuel (n : Nat) : flushFuel n s = s := by
    cases n with
    | zero => rfl
    | succ n => simp only [flushFuel, hd]
  exact hfuel 1000

theorem tick_of_closed (l : List PinChange) (hr : s.pins.resetLine = false) (hd : s.due = []) (hh : s.halfDone = true) :
    s.tick l = (s.changePins l).makeTick := by
  have hclosed : s.closeInstant = s := by
    simp only [State.closeInstant, flush_of_quiet hd]
    exact if_pos hh
  rw [State.tick, if_neg (by simp [hr]), hclosed]

theorem advance_phase (a : AngleBase) : a.advance.phase = BitVec.ofNat 32 (a.phase.toNat + increment a.speed) := by
  cases h : a.carries with
  | true => rw [advance_of_carries h, nextPhase]
  | false => rw [advance_of_not_carries h, nextPhase]

theorem makeTick_angle (hm : s.run.mode = .run) : s.makeTick.angle = s.angle.advance := by
  have hclocked : s.clocked.angle = s.angle.advance := if_pos (by rw [hm]; decide)
  rw [makeTick_eq, ← hclocked]
  simp [State.tickSampled, State.tickGridded, State.tickFired, State.tickCounted, State.tickPlayed]

theorem makeTick_played (s : State) : s.makeTick.engines = s.tickPlayed.engines ∧
    s.makeTick.segments = s.tickPlayed.segments := by
  rw [makeTick_eq]
  constructor <;> simp [State.tickSampled, State.tickGridded, State.tickFired, State.tickCounted]

theorem makeTick_replayEvent (s : State) (p : Port) :
    (s.makeTick.port p).sticky.getLsbD 5 = (s.tickPlayed.port p).sticky.getLsbD 5 := by
  have hkeeps := unmoved_other_sticky p (i := 5) (b := (s.tickPlayed.port p).sticky.getLsbD 5) (by decide)
  have hcounted : (s.tickCounted.port p).sticky.getLsbD 5 = (s.tickPlayed.port p).sticky.getLsbD 5 := by
    cases p <;> simp [State.tickCounted, State.port]
  have hfired : (s.tickFired.port p).sticky.getLsbD 5 = (s.tickPlayed.port p).sticky.getLsbD 5 :=
    hkeeps.fireAtAngle _ _ _ _ hcounted
  have hsampled : (s.tickSampled.port p).sticky.getLsbD 5 = (s.tickPlayed.port p).sticky.getLsbD 5 := by
    rw [← hfired]
    cases p <;> simp [State.tickSampled, State.tickGridded, State.port]
  rw [makeTick_eq]
  exact hkeeps.settle hsampled

/-- A tick in RUN is, for engine `n`, its own tick from a state that has it as it was. -/
theorem makeTick_visits (hm : s.run.mode = .run) (n : Fin 4) : ∃ u : State,
    u.engine n = s.engine n ∧ u.angle = s.angle.advance ∧
    s.makeTick.engine n = (State.tickEngine s.angle.phase s.angle.carries u n).engine n ∧
    ((∀ j, j ≠ n → (s.engine j).unpaced) →
      (∀ g, s.makeTick.segment g = (State.tickEngine s.angle.phase s.angle.carries u n).segment g) ∧
      (∀ p, (s.makeTick.port p).sticky.getLsbD 5 =
        ((State.tickEngine s.angle.phase s.angle.carries u n).port p).sticky.getLsbD 5) ∧
      (∀ g, u.segment g = s.segment g) ∧ ∀ p, u.port p = s.port p) := by
  let v := s.clocked.evaluatePulses
  have hengines : v.engines = s.engines := by simp [v, State.clocked]
  have hsegments : v.segments = s.segments := by simp [v, State.clocked]
  have hports (p : Port) : v.port p = s.port p := by cases p <;> simp [v, State.clocked, State.port]
  have hangle : v.angle = s.angle.advance := by
    have hclocked : s.clocked.angle = s.angle.advance := if_pos (by rw [hm]; decide)
    simp [v, ← hclocked]
  have hrun : v.run.mode = .run := by
    rw [← hm]
    simp [v, State.clocked]
  have hwraps : s.wraps = s.angle.carries := by simp [State.wraps, hm]
  have hengine (j : Fin 4) : v.engine j = s.engine j := congrArg (·.get j) hengines
  obtain ⟨u, hself, hu, hticked, hquiet⟩ := tickEngines_visits s.angle.phase s.angle.carries hrun n
  have hplayed : s.tickPlayed = v.tickEngines s.angle.phase s.angle.carries := by rw [State.tickPlayed, hwraps]
  refine ⟨u, hself.trans (hengine n), hu.trans hangle, ?_, fun hothers => ?_⟩
  · rw [← hticked, ← hplayed]
    exact congrArg (·.get n) (makeTick_played s).1
  · obtain ⟨hsegment, hport, hsegment', hport'⟩ := hquiet fun j hj => by rw [hengine]; exact hothers j hj
    refine ⟨fun g => ?_, fun p => ?_, fun g => (hsegment g).trans (congrArg (·.get g) hsegments),
      fun p => (hport p).trans (hports p)⟩
    · rw [← hsegment' g, ← hplayed]
      exact congrArg (·.get g) (makeTick_played s).2
    · rw [makeTick_replayEvent, ← hport' p, hplayed]

/-! ## O43 -/

theorem phase_after (a : AngleBase) :
    a.advance.phase.toNat = (a.phase.toNat + increment a.speed) % 4294967296 := by
  rw [advance_phase, BitVec.toNat_ofNat]

theorem carries_iff (a : AngleBase) : a.carries = true ↔ 2 ^ 32 ≤ a.phase.toNat + increment a.speed := decide_eq_true_iff

theorem not_carries (a : AngleBase) : (!a.carries) = decide (a.phase.toNat + increment a.speed < 2 ^ 32) := by
  rw [AngleBase.carries, ← decide_not]
  simp only [not_le]

theorem angle_awaits {y : Pacing} (h : y = .angle m) : (y.isAngle && !w) = !w := by
  rw [h]
  rfl

/-- A tick of an engine that awaits a wrap (R136, R138). -/
theorem makeTick_awaiting (hm : s.run.mode = .run) (hr : (s.engine n).state = .running)
    (hp : (s.engine n).pacing = .angle m) (hd : (s.engine n).current = some d) (ha : (s.engine n).awaiting = true) :
    (s.angle.carries = false → s.makeTick.engine n = s.engine n) ∧
    (s.angle.carries = true → s.makeTick.engine n = { s.engine n with awaiting := false, k := 0 }) ∧
    ((∀ j, j ≠ n → (s.engine j).unpaced) → (∀ g, s.makeTick.segment g = s.segment g) ∧
      ∀ p, (s.makeTick.port p).sticky.getLsbD 5 = (s.port p).sticky.getLsbD 5) := by
  obtain ⟨u, hself, -, htick, hquiet⟩ := makeTick_visits hm n
  have hone := tickEngine_awaiting (b := s.angle.phase) (w := s.angle.carries) (by rw [hself]; exact hr)
    (by rw [hself]; exact hp) (by rw [hself]; exact hd) (by rw [hself]; exact ha)
  refine ⟨fun hc => ?_, fun hc => ?_, fun hothers => ?_⟩
  · rw [htick, hone, hc, if_neg (by decide), hself]
  · rw [htick, hone, hc, if_pos rfl, State.updEngine_engine_self, hself]
  · obtain ⟨hsegment, hport, hsegment', hport'⟩ := hquiet hothers
    refine ⟨fun g => (hsegment g).trans ?_, fun p => (hport p).trans ?_⟩
    · rw [hone]
      split
      · exact hsegment' g
      · exact hsegment' g
    · rw [hone, ← hport' p]
      split
      · cases p <;> rfl
      · rfl

/-- A tick of an engine that plays under ANGLE pacing is a move of its position (R138). -/
theorem makeTick_playing (hm : s.run.mode = .run) (hr : (s.engine n).state = .running)
    (hp : (s.engine n).pacing = .angle m) (hd : (s.engine n).current = some d) (ha : (s.engine n).awaiting = false) :
    ∃ u : State, u.engine n = s.engine n ∧
      s.makeTick.engine n = (u.movePosition n (sampleRise s.angle.phase s.angle.advance.phase m) s.angle.carries).engine n ∧
      ((∀ j, j ≠ n → (s.engine j).unpaced) →
        (∀ g, s.makeTick.segment g =
          if finishes (s.engine n) d (sampleRise s.angle.phase s.angle.advance.phase m) = true ∧ g = d.segment then
            { s.segment g with refs := (s.segment g).refs - 1 } else s.segment g) ∧
        ∀ p, (s.makeTick.port p).sticky.getLsbD 5 = ((s.port p).sticky.getLsbD 5 ||
          (finishes (s.engine n) d (sampleRise s.angle.phase s.angle.advance.phase m) &&
            (d.final || (s.engine n).queue.isEmpty) && names (s.engine n).notify p))) := by
  obtain ⟨u, hself, hangle, htick, hquiet⟩ := makeTick_visits hm n
  have hone := tickEngine_playing (b := s.angle.phase) (w := s.angle.carries) (by rw [hself]; exact hr)
    (by rw [hself]; exact hp) (by rw [hself]; exact hd) (by rw [hself]; exact ha)
  rw [hangle] at hone
  refine ⟨u, hself, by rw [htick, hone], fun hothers => ?_⟩
  obtain ⟨hsegment, hport, hsegment', hport'⟩ := hquiet hothers
  obtain ⟨hsegments, hports⟩ := movePosition_rest (w := s.angle.carries) (show (u.engine n).current = some d by rw [hself]; exact hd)
    (sampleRise s.angle.phase s.angle.advance.phase m)
  refine ⟨fun g => (hsegment g).trans ?_, fun p => (hport p).trans ?_⟩
  · rw [hone, hsegments, hself, hsegment']
  · rw [hone, hports, hself, hport']

/-- Settles O43. -/
theorem replayAdvances : Obligations.ReplayAdvances := by
  refine ⟨fun s n p d hdue hq hr hp he hd hc => ⟨_, rfl, replayAdvance_cases hdue hq hr hp he hd hc⟩,
    fun s l n m d hreset hdue hhalf hm hr hp h1 h4096 hspeed hd => ?_⟩
  have htick : exec (.rigTick l) s = .next (s.changePins l).makeTick :=
    congrArg Host.Outcome.next (tick_of_closed l hreset hdue hhalf)
  have hmakes : ((s.changePins l).makeTick).angle = s.angle.advance := makeTick_angle hm
  have hrise : sampleRise s.angle.phase s.angle.advance.phase m ≤ 1 :=
    sampleRise_le_one (increment_le hspeed) (phase_after s.angle) h1 h4096
  refine ⟨(s.changePins l).makeTick, sampleRise s.angle.phase s.angle.advance.phase m, htick, hrise, ?_, ?_, ?_, ?_, ?_, ?_⟩
  · simp only [hmakes, ← cycleSample_def]
    exact sampleRise_mod _ _ h1
  · intro h
    simp only [hmakes, ← cycleSample_def]
    exact sampleRise_pos_iff _ _ h hrise
  · intro _ hothers
    refine ⟨!(s.engine n).awaiting && finishes (s.engine n) d (sampleRise s.angle.phase s.angle.advance.phase m), ?_, ?_⟩
    · simp [finishes]
    · cases ha : (s.engine n).awaiting with
      | true =>
        obtain ⟨-, -, hrest⟩ := makeTick_awaiting (s := s.changePins l) hm hr hp hd ha
        obtain ⟨hsegment, hport⟩ := hrest hothers
        refine ⟨fun g => (hsegment g).trans (if_neg (by simp)).symm, fun p => (hport p).trans ?_⟩
        simp
        rfl
      | false =>
        obtain ⟨u, -, -, hrest⟩ := makeTick_playing (s := s.changePins l) hm hr hp hd ha
        exact hrest hothers
  · intro ha hcarry
    refine (makeTick_awaiting (s := s.changePins l) hm hr hp hd ha).1 ?_
    rw [Bool.eq_false_iff, ne_eq, carries_iff]
    exact not_le.2 hcarry
  · intro ha hcarry
    exact (makeTick_awaiting (s := s.changePins l) hm hr hp hd ha).2.1 ((carries_iff _).2 hcarry)
  · intro ha _
    obtain ⟨u, hself, hengine, -⟩ := makeTick_playing (s := s.changePins l) hm hr hp hd ha
    have hmoves := movePosition_engine (w := s.angle.carries) (show (u.engine n).current = some d by rw [hself]; exact hd)
      (sampleRise s.angle.phase s.angle.advance.phase m)
    have hself' : u.engine n = s.engine n := hself
    rw [hself'] at hmoves
    obtain ⟨hwithin, hloops, hfinal, hempty, hnext⟩ := hmoves
    refine ⟨fun h => hengine.trans (hwithin h), fun h hl => hengine.trans (hloops h hl),
      fun h hl hf => hengine.trans (hfinal h hl hf), fun h hl hf hq => hengine.trans (hempty h hl hf hq),
      fun d' rest h hl hf hq => (hengine.trans (hnext d' rest h hl hf hq)).trans ?_⟩
    rw [← not_carries, angle_awaits hp, ← hr]

end Sys2Proof.Machine
end

section
/-! What a tick does where no ANGLE pacing plays and no angle trigger fires: the fields it leaves, and what it makes due (R1 to
R6, R32, R36, R41, R48, R62, R79, R85, R137, R152, R169, R178). -/

namespace Sys2Proof

/-- A TIME-paced engine after a tick (R137). -/
def Engine.timed (g : Engine) : Engine :=
  { g with e :=
      if g.state = .running ∧ g.current.isSome = true then
        (match g.pacing with
          | .time p => if g.e + 1 < p then g.e + 1 else g.e
          | .angle _ => g.e)
      else g.e }

/-- The advance of a TIME-paced engine is due at this tick (R137). -/
def Engine.advances (g : Engine) : Prop :=
  g.state = .running ∧ g.current.isSome = true ∧ ∃ p, g.pacing = .time p ∧ p ≤ g.e + 1

/-- A relay after one more tick of its movement (R48). -/
def Relay.ticked (y : Relay) : Relay := { y with movement := y.movement.map Movement.tick }

end Sys2Proof

namespace Sys2Proof.Machine

variable {s t u v : State} {n j : Fin 4} {c : Fin 24} {k : Fin 64} {e : Event} {b : BitVec 32} {w : Bool}

/-! ## The engines -/

theorem timed_of_resting {g : Engine} (h : ¬(g.state = .running ∧ g.current.isSome = true)) : g.timed = g := by
  unfold Engine.timed
  rw [if_neg h]

theorem tickEngine_timed (h : (s.engine n).unpaced) : (State.tickEngine b w s n).engine n = (s.engine n).timed ∧
    ∀ e, e ∈ (State.tickEngine b w s n).due ↔ e ∈ s.due ∨ e = .replayAdvance n ∧ (s.engine n).advances := by
  by_cases hr : (s.engine n).state = .running ∧ (s.engine n).current.isSome = true
  · cases hp : (s.engine n).pacing with
    | angle m =>
      have hangle := h hr.1
      rw [hp] at hangle
      cases hangle
    | time p =>
      have htick : State.tickEngine b w s n = if (s.engine n).e + 1 < p then s.updEngine n fun g => { g with e := g.e + 1 }
          else s.addDue [.replayAdvance n] := by
        simp only [State.tickEngine, hp]
        exact if_pos hr
      rw [htick]
      by_cases hlt : (s.engine n).e + 1 < p
      · have htimed : (s.engine n).timed = { s.engine n with e := (s.engine n).e + 1 } := by
          simp only [Engine.timed, if_pos hr, hp, if_pos hlt]
        rw [if_pos hlt, htimed]
        refine ⟨State.updEngine_engine_self _ _ _, fun e => (or_iff_left ?_).symm⟩
        rintro ⟨-, -, -, p', hp', hle⟩
        rw [hp] at hp'
        cases hp'
        omega
      · have htimed : (s.engine n).timed = s.engine n := by
          simp only [Engine.timed, if_pos hr, hp, if_neg hlt]
          rw [← hp]
        rw [if_neg hlt, htimed]
        refine ⟨rfl, fun e => ?_⟩
        have hadvances : (s.engine n).advances := ⟨hr.1, hr.2, p, hp, by omega⟩
        simp [hadvances]
  · have htick : State.tickEngine b w s n = s := by
      simp only [State.tickEngine]
      exact if_neg hr
    rw [htick, timed_of_resting hr]
    exact ⟨rfl, fun e => (or_iff_left fun h => hr ⟨h.2.1, h.2.2.1⟩).symm⟩

theorem tickAll_timed (l : List (Fin 4)) (hl : l.Nodup) (hu : ∀ j ∈ l, (s.engine j).unpaced) :
    (∀ j, (l.foldl (State.tickEngine b w) s).engine j = if j ∈ l then (s.engine j).timed else s.engine j) ∧
    ∀ e, e ∈ (l.foldl (State.tickEngine b w) s).due ↔ e ∈ s.due ∨ ∃ j ∈ l, e = .replayAdvance j ∧ (s.engine j).advances := by
  induction l generalizing s with
  | nil => simp
  | cons i l ih =>
    obtain ⟨hi, hl⟩ := List.nodup_cons.1 hl
    have hne (j : Fin 4) (hj : j ∈ l) : (State.tickEngine b w s i).engine j = s.engine j :=
      tickEngine_engine_ne fun h => hi (h ▸ hj)
    obtain ⟨hengine, hdue⟩ := tickEngine_timed (b := b) (w := w) (hu i List.mem_cons_self)
    obtain ⟨hengines, hdues⟩ := ih (s := State.tickEngine b w s i) hl fun j hj => by
      rw [hne j hj]
      exact hu j (List.mem_cons_of_mem i hj)
    refine ⟨fun j => (hengines j).trans ?_, fun e => (hdues e).trans ?_⟩
    · by_cases hj : j = i
      · subst hj
        rw [if_neg hi, if_pos List.mem_cons_self, hengine]
      · rw [tickEngine_engine_ne (Ne.symm hj)]
        simp [hj]
    · rw [hdue, or_assoc]
      refine or_congr Iff.rfl ⟨?_, ?_⟩
      · rintro (⟨he, ha⟩ | ⟨j, hj, he, ha⟩)
        · exact ⟨i, List.mem_cons_self, he, ha⟩
        · rw [hne j hj] at ha
          exact ⟨j, List.mem_cons_of_mem i hj, he, ha⟩
      · rintro ⟨j, hj, he, ha⟩
        rcases List.mem_cons.1 hj with rfl | hj
        · exact .inl ⟨he, ha⟩
        · exact .inr ⟨j, hj, he, by rw [hne j hj]; exact ha⟩

/-- A tick of the engines where none plays under ANGLE pacing in RUN. -/
theorem tickEngines_timed (hu : s.run.mode = .run → ∀ j, (s.engine j).unpaced) :
    (s.tickEngines b w).segments = s.segments ∧ (∀ p, (s.tickEngines b w).port p = s.port p) ∧
    (∀ j, (s.tickEngines b w).engine j = if s.run.mode = .run then (s.engine j).timed else s.engine j) ∧
    ∀ e, e ∈ (s.tickEngines b w).due ↔ e ∈ s.due ∨ s.run.mode = .run ∧ ∃ j, e = .replayAdvance j ∧ (s.engine j).advances := by
  unfold State.tickEngines
  by_cases hm : s.run.mode = .run
  · rw [if_pos hm]
    obtain ⟨hsegments, hM, hB, -⟩ := tickAll_of_unpaced (b := b) (w := w) (q := fun _ => True) (List.finRange 4)
      (fun _ _ => trivial) fun j _ => hu hm j
    obtain ⟨hengine, hdue⟩ := tickAll_timed (b := b) (w := w) (List.finRange 4) (List.nodup_finRange 4) fun j _ => hu hm j
    refine ⟨hsegments, fun p => ?_, fun j => (hengine j).trans (by simp [hm]), fun e => (hdue e).trans (by simp [hm])⟩
    cases p
    · exact hM
    · exact hB
  · rw [if_neg hm]
    simp [hm]

theorem endDescriptor_due (h : e ∈ (s.endDescriptor n w).due) : e ∈ s.due := by
  cases hd : (s.engine n).current with
  | none => simpa only [State.endDescriptor, hd] using h
  | some d =>
    exact endDescriptor_cases (w := w) (P := fun u => e ∈ u.due → e ∈ s.due) hd (fun _ h => h) (fun _ _ _ h => h)
      (fun _ _ _ _ _ h => List.mem_of_mem_erase h) h

theorem movePosition_due {a : Nat} (h : e ∈ (s.movePosition n a w).due) : e ∈ s.due := by
  unfold State.movePosition at h
  dsimp only at h
  split at h
  · split at h
    · exact endDescriptor_due (s := s.updEngine n fun g => { g with k := g.k + a }) h
    · exact h
  · exact h

theorem tickEngine_due (h : e ∈ (State.tickEngine b w s n).due) : e ∈ s.due ∨ Event.isAdvance e = true := by
  unfold State.tickEngine at h
  dsimp only at h
  split at h
  · split at h
    · split at h
      · split at h
        · exact .inl h
        · exact .inl h
      · exact .inl (movePosition_due h)
    · split at h
      · exact .inl h
      · rcases List.mem_append.1 h with h | h
        · exact .inl h
        · rw [List.mem_singleton.1 h]
          exact .inr rfl
  · exact .inl h

/-- The engines leave due nothing but advances. -/
theorem tickEngines_advances (h : ∀ e ∈ s.due, Event.isAdvance e = true) :
    ∀ e ∈ (s.tickEngines b w).due, Event.isAdvance e = true := by
  have hone (l : List (Fin 4)) : ∀ u : State, (∀ e ∈ u.due, Event.isAdvance e = true) →
      ∀ e ∈ (l.foldl (State.tickEngine b w) u).due, Event.isAdvance e = true := by
    induction l with
    | nil => exact fun u hu => hu
    | cons i l ih => exact fun u hu => ih _ fun e he => (tickEngine_due he).elim (hu e) id
  unfold State.tickEngines
  split
  · exact hone _ s h
  · exact h

/-! ## What the blocks make due at a tick -/

theorem mem_clockEvents (x : RigTime) : (e ∈ (clockEvents x).1 ↔ e = .millisecond ∧ x.toNat % 1000 = 0) ∧
    (e ∈ (clockEvents x).2 ↔ e = .refresh ∧ x.toNat % 4 = 0) := by
  unfold clockEvents
  constructor <;> dsimp only <;> split <;> simp_all

theorem completes_moving {y : Relay} {a : Bool} (h : y.completes a = true) : y.state.moving = true := by
  unfold Relay.completes at h
  split at h
  · simp only [Bool.and_eq_true] at h
    exact h.1.1
  · cases h

theorem fails_moving {y : Relay} {a : Bool} (h : y.fails a = true) : y.state.moving = true := by
  unfold Relay.fails at h
  split at h
  · simp only [Bool.and_eq_true] at h
    exact h.1.1
  · cases h

theorem fails_not_completes {y : Relay} {a : Bool} (h : y.fails a = true) : y.completes a = false := by
  unfold Relay.fails at h
  split at h
  · simp only [Bool.and_eq_true, Bool.not_eq_true'] at h
    exact h.2
  · cases h

theorem mem_movementEvent {r : RelayName} : e ∈ movementEvent s c r ↔
    e = .moveComplete c r ∧ ((s.relaySet c).relays.get r).completes (s.sensed c r) = true ∨
      e = .moveFail c r ∧ ((s.relaySet c).relays.get r).fails (s.sensed c r) = true := by
  unfold movementEvent
  dsimp only
  split
  next h =>
    have hf : ((s.relaySet c).relays.get r).fails (s.sensed c r) ≠ true := fun hf => by
      rw [fails_not_completes hf] at h
      cases h
    simp [h, hf]
  next h =>
    split
    next hf => simp [h, hf]
    next hf => simp [h, hf]

theorem anyMoving_of_moving {x : RelaySet} {r : RelayName} (h : (x.relays.get r).state.moving = true) :
    x.anyMoving = true := by
  unfold RelaySet.anyMoving
  rw [List.any_eq_true]
  exact ⟨r, by cases r <;> simp [RelayName.all], h⟩

/-- The events of all movements in flight. -/
theorem mem_movements (v : State) : (e ∈ (List.finRange 24).flatMap fun c =>
      if (v.relaySet c).anyMoving then RelayName.all.flatMap (movementEvent v c) else []) ↔ ∃ c r,
    e = .moveComplete c r ∧ ((v.relaySet c).relays.get r).completes (v.sensed c r) = true ∨
      e = .moveFail c r ∧ ((v.relaySet c).relays.get r).fails (v.sensed c r) = true := by
  rw [List.mem_flatMap]
  constructor
  · rintro ⟨c, -, he⟩
    split at he
    · obtain ⟨r, -, he⟩ := List.mem_flatMap.1 he
      exact ⟨c, r, mem_movementEvent.1 he⟩
    · cases he
  · rintro ⟨c, r, he⟩
    have hmoving : (v.relaySet c).anyMoving = true := by
      rcases he with ⟨-, h⟩ | ⟨-, h⟩
      · exact anyMoving_of_moving (completes_moving h)
      · exact anyMoving_of_moving (fails_moving h)
    refine ⟨c, List.mem_finRange c, ?_⟩
    rw [if_pos hmoving]
    exact List.mem_flatMap.2 ⟨r, by cases r <;> simp [RelayName.all], mem_movementEvent.2 he⟩

/-- The relays after a tick of their movements, before its events are noted (R48). -/
def State.moved (s : State) : State :=
  { s with relays := mapV (fun _ x => { x with relays := x.relays.map Relay.ticked }) s.relays }

theorem moved_relaySet (s : State) (c : Fin 24) :
    s.moved.relaySet c = { s.relaySet c with relays := (s.relaySet c).relays.map Relay.ticked } := by
  simp only [State.moved, State.relaySet, mapV_get]

theorem tickRelays_eq (s : State) : s.tickRelays = s.moved.addDue ((List.finRange 24).flatMap fun c =>
    if (s.moved.relaySet c).anyMoving then RelayName.all.flatMap (movementEvent s.moved c) else []) := rfl

theorem tickRelays_relaySet (s : State) (c : Fin 24) :
    s.tickRelays.relaySet c = { s.relaySet c with relays := (s.relaySet c).relays.map Relay.ticked } := by
  rw [tickRelays_eq, State.addDue_relaySet, moved_relaySet]

theorem mem_tickRelays : e ∈ s.tickRelays.due ↔ e ∈ s.due ∨ ∃ c r,
    e = .moveComplete c r ∧ ((s.tickRelays.relaySet c).relays.get r).completes (s.sensed c r) = true ∨
      e = .moveFail c r ∧ ((s.tickRelays.relaySet c).relays.get r).fails (s.sensed c r) = true := by
  have hset (c : Fin 24) : s.tickRelays.relaySet c = s.moved.relaySet c := by
    rw [tickRelays_eq, State.addDue_relaySet]
  have hdue : s.moved.due = s.due := by simp only [State.moved]
  have hsensed (c : Fin 24) (r : RelayName) : s.moved.sensed c r = s.sensed c r := by
    simp only [State.sensed, State.moved]
  simp only [hset, ← hsensed]
  rw [tickRelays_eq, State.addDue_due, List.mem_append, mem_movements, hdue]

/-- The events that a table's records bring about. -/
theorem mem_map_filter {α : Type} {l : List α} {q : α → Bool} {f : α → Event} (hl : ∀ a, a ∈ l) :
    e ∈ (l.filter q).map f ↔ ∃ a, e = f a ∧ q a = true := by
  rw [List.mem_map]
  refine exists_congr fun a => ?_
  rw [List.mem_filter, and_iff_right (hl a), and_comm]
  exact and_congr eq_comm Iff.rfl

theorem mem_sampleBattery : e ∈ s.sampleBattery.due ↔ e ∈ s.due ∨ e = .battery ∧ s.sampleBattery.battery.count = 4 := by
  have hdue : s.sampleBattery.due = s.due ++ if s.sampleBattery.battery.count = 4 then [.battery] else [] := rfl
  rw [hdue]
  split <;> simp_all

theorem mem_tickFaults {d : Nat} : e ∈ (s.tickFaults d w).due ↔ e ∈ s.due ∨
    ∃ k, e = .durationEnd k ∧ ((s.tickFaults d w).fault k).state = .active ∧
      ((s.tickFaults d w).fault k).durationOver = true := by
  have hdue : (s.tickFaults d w).due = s.due ++ ((List.finRange 64).filter fun k =>
      ((s.tickFaults d w).fault k).state == .active && ((s.tickFaults d w).fault k).durationOver).map Event.durationEnd := rfl
  rw [hdue, List.mem_append, mem_map_filter List.mem_finRange]
  simp only [Bool.and_eq_true, beq_iff_eq]

theorem mem_noteAtTime : e ∈ s.noteAtTime.due ↔ e ∈ s.due ∨ s.run.mode = .run ∧ ∃ k, e = .atTime k ∧
    (s.fault k).state = .armed ∧ ∃ x : RigTime, (s.fault k).trigger = .atTime x ∧ x.toNat ≤ s.rigTime.toNat := by
  have htrigger (k : Fin 64) : (match (s.fault k).trigger with
      | .atTime t => decide (t.toNat ≤ s.rigTime.toNat)
      | .atAngle _ _ | .onCapture _ _ _ | .onFault _ _ => false) = true ↔
        ∃ x : RigTime, (s.fault k).trigger = .atTime x ∧ x.toNat ≤ s.rigTime.toNat := by
    cases (s.fault k).trigger <;> simp
  unfold State.noteAtTime
  split
  next hm =>
    rw [State.addDue_due, List.mem_append, mem_map_filter List.mem_finRange, and_iff_right hm]
    refine or_congr Iff.rfl (exists_congr fun k => and_congr Iff.rfl ?_)
    rw [Bool.and_eq_true, beq_iff_eq]
    exact and_congr Iff.rfl (htrigger k)
  next hm => simp [hm]

theorem mem_sampleInputs : e ∈ s.sampleInputs.due ↔ e ∈ s.due ∨ ∃ i, e = .captureReport i ∧
    (s.sampleInputs.input i).level.isSome = true ∧ (s.sampleInputs.input i).edge.isSome = true := by
  have hdue : s.sampleInputs.due = s.due ++ ((List.finRange 16).filter fun i =>
      (s.sampleInputs.input i).agreed).map Event.captureReport := rfl
  rw [hdue, List.mem_append, mem_map_filter List.mem_finRange]
  simp only [CaptureInput.agreed, Bool.and_eq_true]

theorem mem_countGenerators : e ∈ s.countGenerators.due ↔ e ∈ s.due ∨ ∃ c, kindOf c = .pulse ∧
    e ∈ gridEvent c (s.channel c) := by
  have hdue : s.countGenerators.due = s.due ++ s.gridEvents := rfl
  rw [hdue, List.mem_append, State.gridEvents, List.mem_flatMap]
  simp only [mem_pulseChannels]

theorem mem_sampleLimits : e ∈ s.sampleLimits.due ↔ e ∈ s.due ∨ ∃ c, e = .driverTrip c ∧
    (s.sampleLimits.channel c).limitTicks = some 1000 := by
  have hdue : s.sampleLimits.due = s.due ++ ((List.finRange 24).filter fun c =>
      (s.sampleLimits.channel c).limitTicks == some 1000).map Event.driverTrip := rfl
  rw [hdue, List.mem_append, mem_map_filter List.mem_finRange]
  simp only [beq_iff_eq]

theorem run_with_timer {r : RunControl} {x : Option Nat} (h : x = r.monitor.timer) :
    r = { r with monitor := { r.monitor with timer := x } } := by
  subst h
  rfl

theorem tickMonitor_spec (s : State) : s.tickMonitor.run = { s.run with
      monitor := { s.run.monitor with
        timer := if s.run.mode = .run then s.run.monitor.timer.map (· - 1) else s.run.monitor.timer } } ∧
    ∀ e, e ∈ s.tickMonitor.due ↔ e ∈ s.due ∨ e = .deadline ∧ s.run.mode = .run ∧ ∃ n ≤ 1, s.run.monitor.timer = some n := by
  unfold State.tickMonitor
  split
  next n hm ht =>
    rw [if_pos hm, ht]
    refine ⟨by simp, fun e => ?_⟩
    by_cases hn : n ≤ 1 <;> simp [hn, hm]
  next hne =>
    by_cases hm : s.run.mode = .run
    · cases ht : s.run.monitor.timer with
      | none =>
        exact ⟨run_with_timer (by rw [if_pos hm, ht]; rfl), fun e => by simp⟩
      | some n => exact absurd ht (hne n hm)
    · simp [hm]

theorem mem_sampleSafeLine : e ∈ s.sampleSafeLine.due ↔ e ∈ s.due ∨ e = .safeLine ∧ s.sampleSafeLine.run.safe.count = 4 := by
  have hdue : s.sampleSafeLine.due = s.due ++ if s.sampleSafeLine.run.safe.count = 4 then [.safeLine] else [] := rfl
  rw [hdue]
  split <;> simp_all

end Sys2Proof.Machine
end

section
/-! O13: the tick. -/

namespace Sys2Proof.Machine

variable {s t u v : State} {n j : Fin 4} {c : Fin 24} {k : Fin 64} {e : Event} {w : Bool}

/-! ## A quiet tick, field by field -/

/-- No AT_ANGLE trigger can fire in the state and no engine plays under ANGLE pacing. -/
def State.unangled (s : State) : Prop := s.run.mode = .run →
  (∀ k c a, (s.fault k).state = .armed → (s.fault k).trigger ≠ .atAngle c a) ∧ ∀ n, (s.engine n).unpaced

theorem fireAtAngle_of_none {a d : Nat} {x y : Half}
    (h : s.run.mode = .run → ∀ k c a, (s.fault k).state = .armed → (s.fault k).trigger ≠ .atAngle c a) :
    s.fireAtAngle a d x y = s := by
  unfold State.fireAtAngle
  split
  next hm =>
    have hnone : ((List.finRange 64).filter fun k => (s.fault k).state == .armed &&
        match (s.fault k).trigger with
        | .atAngle cycle z => reaches z cycle a d x y
        | .atTime _ | .onCapture _ _ _ | .onFault _ _ => false) = [] := by
      refine List.filter_eq_nil_iff.2 fun k _ => ?_
      cases ht : (s.fault k).trigger with
      | atAngle c z =>
        have harmed : (s.fault k).state ≠ .armed := fun ha => h hm k c z ha ht
        simp [harmed]
      | _ => simp
    exact congrArg (List.foldl State.fire s) hnone
  next => rfl

theorem tickPlayed_timed (h : s.unangled) : s.tickPlayed.segments = s.segments ∧ (∀ p, s.tickPlayed.port p = s.port p) ∧
    (∀ j, s.tickPlayed.engine j = if s.run.mode = .run then (s.engine j).timed else s.engine j) ∧
    ∀ e, e ∈ s.tickPlayed.due ↔ e ∈ s.due ∨ s.run.mode = .run ∧ ∃ j, e = .replayAdvance j ∧ (s.engine j).advances := by
  have hengines : s.clocked.evaluatePulses.engines = s.engines := by simp [State.clocked]
  have hengine (j : Fin 4) : s.clocked.evaluatePulses.engine j = s.engine j := congrArg (·.get j) hengines
  have hrun : s.clocked.evaluatePulses.run = s.run := by simp
  have hdue : s.clocked.evaluatePulses.due = s.due := by simp [State.clocked]
  have hsegments : s.clocked.evaluatePulses.segments = s.segments := by simp [State.clocked]
  have hport (p : Port) : s.clocked.evaluatePulses.port p = s.port p := by cases p <;> simp [State.clocked, State.port]
  have htimed := tickEngines_timed (s := s.clocked.evaluatePulses) (b := s.angle.phase) (w := s.wraps)
    fun hm j => by
      rw [hengine]
      exact (h (by rw [← hrun]; exact hm)).2 j
  simp only [hengine, hrun, hdue, hsegments, hport] at htimed
  exact htimed

theorem tickCounted_fault (s : State) (k : Fin 64) :
    s.tickCounted.fault k = tickRecord s.advanceNow s.wraps (s.fault k) := by
  have hfaults : (s.tickPlayed.addDue (clockEvents s.tickPlayed.rigTime).1).tickRelays.sampleBattery.faults = s.faults := by
    simp [State.tickPlayed, State.clocked]
  have hfault : (s.tickPlayed.addDue (clockEvents s.tickPlayed.rigTime).1).tickRelays.sampleBattery.fault k = s.fault k :=
    congrArg (·.get k) hfaults
  have hnoted : s.tickCounted.faults = ((s.tickPlayed.addDue (clockEvents s.tickPlayed.rigTime).1).tickRelays.sampleBattery.tickFaults
      s.advanceNow s.wraps).faults := by
    simp [State.tickCounted]
  rw [← hfault, ← tickFaults_fault]
  exact congrArg (·.get k) hnoted

theorem tickFired_of_unangled (h : s.unangled) : s.tickFired = s.tickCounted := by
  refine fireAtAngle_of_none fun hm k c a => ?_
  have hmode : s.tickCounted.run = s.run := by simp [State.tickCounted, State.tickPlayed]
  rw [tickCounted_fault]
  exact (h (by rw [← hmode]; exact hm)).1 k c a

theorem tickCounted_relaySet (s : State) (c : Fin 24) :
    s.tickCounted.relaySet c = { s.relaySet c with relays := (s.relaySet c).relays.map Relay.ticked } := by
  have hrelays : s.tickCounted.relays = (s.tickPlayed.addDue (clockEvents s.tickPlayed.rigTime).1).tickRelays.relays := by
    simp [State.tickCounted]
  have hbefore : (s.tickPlayed.addDue (clockEvents s.tickPlayed.rigTime).1).relays = s.relays := by
    simp [State.tickPlayed, State.clocked]
  have hset : (s.tickPlayed.addDue (clockEvents s.tickPlayed.rigTime).1).relaySet c = s.relaySet c :=
    congrArg (·.get c) hbefore
  rw [← hset, ← tickRelays_relaySet]
  exact congrArg (·.get c) hrelays

/-- The effective record of a channel after every record has counted a tick. -/
theorem effectiveRecord_ticked {d : Nat} (h : ∀ k, t.fault k = tickRecord d w (s.fault k)) (c : Fin 24) :
    t.effectiveRecord c = (s.effectiveRecord c).map (tickRecord d w) := by
  have hbetter : betterRecord t = betterRecord s := by
    simp only [funext_iff, betterRecord, h, tickRecord, implies_true]
  have heffective : t.effective c = s.effective c := by rw [State.effective, hbetter, State.effective]
  rw [State.effectiveRecord, heffective, State.effectiveRecord, Option.map_map]
  exact congrArg (Option.map · (s.effective c)) (funext h)

/-- The wheel evaluation reads of the Fault Table what a tick leaves as it was. -/
theorem wheelActive_ticked {d : Nat} {x : Channel} (h : ∀ k, t.fault k = tickRecord d w (s.fault k))
    (ha : t.angle = u.angle) (hu : u.faults = s.faults) : t.wheelActive c x = u.wheelActive c x := by
  unfold State.wheelActive State.angleNow
  rw [effectiveRecord_ticked h, effectiveRecord_congr hu, ha]
  cases s.effectiveRecord c <;> rfl

/-! ## What a quiet tick makes due -/

theorem mem_tickCounted (h : s.unangled) (hd : s.due = []) : e ∈ s.tickCounted.due ↔
    (s.run.mode = .run ∧ ∃ j, e = .replayAdvance j ∧ (s.engine j).advances) ∨
    (e = .millisecond ∧ (s.rigTime + 1).toNat % 1000 = 0) ∨
    (∃ c r, e = .moveComplete c r ∧ (((s.relaySet c).relays.map Relay.ticked).get r).completes (s.sensed c r) = true ∨
      e = .moveFail c r ∧ (((s.relaySet c).relays.map Relay.ticked).get r).fails (s.sensed c r) = true) ∨
    (e = .battery ∧ (s.battery.sample (decide (6400 < s.pins.batteryMv))).count = 4) ∨
    (∃ k, e = .durationEnd k ∧ (s.fault k).state = .active ∧
      (tickRecord s.advanceNow s.wraps (s.fault k)).durationOver = true) ∨
    (s.run.mode = .run ∧ ∃ k, e = .atTime k ∧ (s.fault k).state = .armed ∧
      ∃ x : RigTime, (s.fault k).trigger = .atTime x ∧ x.toNat ≤ (s.rigTime + 1).toNat) := by
  obtain ⟨-, -, -, hplayed⟩ := tickPlayed_timed h
  let a := s.tickPlayed.addDue (clockEvents s.tickPlayed.rigTime).1
  have htime : s.tickPlayed.rigTime = s.rigTime + 1 := by simp [State.tickPlayed, State.clocked]
  have hsensed (c : Fin 24) (r : RelayName) : a.sensed c r = s.sensed c r := by
    simp [a, State.sensed, State.tickPlayed, State.clocked]
  have hset (c : Fin 24) : a.relaySet c = s.relaySet c := by
    have hrelays : a.relays = s.relays := by simp [a, State.tickPlayed, State.clocked]
    exact congrArg (·.get c) hrelays
  have hbattery : a.tickRelays.sampleBattery.battery = s.battery.sample (decide (6400 < s.pins.batteryMv)) := by
    simp only [State.sampleBattery]
    simp [a, State.tickPlayed, State.clocked]
  have hfault (k : Fin 64) : (a.tickRelays.sampleBattery.tickFaults s.advanceNow s.wraps).fault k =
      tickRecord s.advanceNow s.wraps (s.fault k) := by
    have hfaults : a.tickRelays.sampleBattery.faults = s.faults := by simp [a, State.tickPlayed, State.clocked]
    have hone : a.tickRelays.sampleBattery.fault k = s.fault k := congrArg (·.get k) hfaults
    rw [tickFaults_fault, hone]
  have hmode : (a.tickRelays.sampleBattery.tickFaults s.advanceNow s.wraps).run.mode = s.run.mode := by
    simp [a, State.tickPlayed, State.clocked]
  have hclock : (a.tickRelays.sampleBattery.tickFaults s.advanceNow s.wraps).rigTime = s.rigTime + 1 := by
    simp [a, htime]
  have hdue : a.due = s.tickPlayed.due ++ (clockEvents s.tickPlayed.rigTime).1 := rfl
  rw [show s.tickCounted = (a.tickRelays.sampleBattery.tickFaults s.advanceNow s.wraps).noteAtTime from rfl,
    mem_noteAtTime, mem_tickFaults, mem_sampleBattery, mem_tickRelays, hdue, List.mem_append, hplayed, (mem_clockEvents _).1,
    hmode, hclock, hbattery, htime, hd]
  simp only [hfault, hsensed, tickRelays_relaySet, hset, List.not_mem_nil, false_or, or_assoc]
  rfl

end Sys2Proof.Machine
end

section
/-! O13: a tick at a closed instant. -/

namespace Sys2Proof.Machine

variable {s t u v : State} {n j : Fin 4} {c : Fin 24} {k : Fin 64} {e : Event} {w : Bool}

/-! ## The end of a quiet tick -/

theorem makeTick_of_quiet (h : s.unangled) (hx : s.examineDue = false) : s.makeTick =
    ((s.tickCounted.sampleInputs.countGenerators.addDue
      (clockEvents s.tickCounted.sampleInputs.countGenerators.rigTime).2).sampleLimits.tickMonitor.sampleSafeLine) := by
  have hsampled : s.tickSampled.examineDue = false := by
    rw [State.tickSampled, State.tickGridded, tickFired_of_unangled h]
    simp [State.tickCounted, State.tickPlayed, State.clocked, hx]
  rw [makeTick_eq, settle_of_not_examineDue hsampled, State.tickSampled, State.tickGridded, tickFired_of_unangled h]

/-- The channels after the pulse evaluation and the generators of a tick. -/
theorem tickCounted_channel (s : State) (c : Fin 24) :
    s.tickCounted.channel c = s.clocked.evaluatePulses.channel c := by
  have hchannels : s.tickCounted.channels = s.clocked.evaluatePulses.channels := by
    simp [State.tickCounted, State.tickPlayed]
  exact congrArg (·.get c) hchannels

/-- What a quiet tick makes due at its last blocks. -/
theorem mem_makeTick_of_quiet (h : s.unangled) (hx : s.examineDue = false) : e ∈ s.makeTick.due ↔
    e ∈ s.tickCounted.due ∨
    (∃ i, e = .captureReport i ∧ (s.makeTick.input i).level.isSome = true ∧ (s.makeTick.input i).edge.isSome = true) ∨
    (∃ c, kindOf c = .pulse ∧ e ∈ gridEvent c (s.channel c)) ∨
    (e = .refresh ∧ (s.rigTime + 1).toNat % 4 = 0) ∨
    (∃ c, e = .driverTrip c ∧ (s.makeTick.channel c).limitTicks = some 1000) ∨
    (e = .deadline ∧ s.run.mode = .run ∧ ∃ n ≤ 1, s.run.monitor.timer = some n) ∨
    (e = .safeLine ∧ s.makeTick.run.safe.count = 4) := by
  let a := s.tickCounted.sampleInputs
  let b := a.countGenerators.addDue (clockEvents a.countGenerators.rigTime).2
  have hend : s.makeTick = b.sampleLimits.tickMonitor.sampleSafeLine := makeTick_of_quiet h hx
  have hinput (i : Fin 16) : a.input i = s.makeTick.input i := by
    have hinputs : a.inputs = s.makeTick.inputs := by
      rw [hend]
      simp [b]
    exact congrArg (·.get i) hinputs
  have hchannel (c : Fin 24) : b.sampleLimits.channel c = s.makeTick.channel c := by
    have hchannels : b.sampleLimits.channels = s.makeTick.channels := by
      rw [hend]
      simp
    exact congrArg (·.get c) hchannels
  have hgrid (c : Fin 24) : gridEvent c (a.channel c) = gridEvent c (s.channel c) := by
    have hpulsed : a.channel c = s.clocked.evaluatePulses.channel c := by
      have hchannels : a.channels = s.tickCounted.channels := by simp [a]
      exact (congrArg (·.get c) hchannels).trans (tickCounted_channel s c)
    rw [hpulsed]
    by_cases hc : kindOf c = .pulse
    · rw [evaluatePulses_pulse hc]
      rfl
    · rw [evaluatePulses_other hc]
      rfl
  have hrun : b.sampleLimits.run = s.run := by simp [b, a, State.tickCounted, State.tickPlayed]
  have htime : a.countGenerators.rigTime = s.rigTime + 1 := by simp [a, State.tickCounted, State.tickPlayed, State.clocked]
  have hdue : b.due = a.countGenerators.due ++ (clockEvents a.countGenerators.rigTime).2 := rfl
  have hlast : e ∈ s.makeTick.due ↔ e ∈ b.sampleLimits.tickMonitor.due ∨ e = .safeLine ∧ s.makeTick.run.safe.count = 4 := by
    rw [hend]
    exact mem_sampleSafeLine
  rw [hlast, (tickMonitor_spec _).2, mem_sampleLimits, hdue, List.mem_append, mem_countGenerators,
    show a = s.tickCounted.sampleInputs from rfl, mem_sampleInputs, (mem_clockEvents _).2, hrun, htime]
  simp only [show s.tickCounted.sampleInputs = a from rfl, hinput, hchannel, hgrid, or_assoc]

/-- A quiet tick leaves everything but the fields it counts, samples or evaluates. -/
theorem makeTick_rest (h : s.unangled) (hx : s.examineDue = false) : s.makeTick =
    { s with
      rigTime := s.rigTime + 1, halfDone := false, angle := s.clocked.angle, due := s.makeTick.due
      battery := s.makeTick.battery, run := s.makeTick.run, faults := s.makeTick.faults, relays := s.makeTick.relays
      inputs := s.makeTick.inputs, channels := s.makeTick.channels, engines := s.makeTick.engines, place := s.place - 1 } := by
  obtain ⟨hsegments, hports, -, -⟩ := tickPlayed_timed h
  have hM : s.tickPlayed.portM = s.portM := hports .M
  have hB : s.tickPlayed.portB = s.portB := hports .B
  have hplace : s.tickCounted.sampleInputs.countGenerators.place = s.place - 1 := by
    simp only [State.countGenerators]
    simp [State.tickCounted, State.tickPlayed]
  rw [makeTick_of_quiet h hx]
  apply State.ext <;> simp [hplace] <;> simp [State.tickCounted, hsegments, hM, hB] <;>
    simp [State.tickPlayed] <;> rfl

theorem makeTick_fault (h : s.unangled) (hx : s.examineDue = false) (k : Fin 64) :
    s.makeTick.fault k = tickRecord s.advanceNow s.wraps (s.fault k) := by
  have hfaults : s.makeTick.faults = s.tickCounted.faults := by
    rw [makeTick_of_quiet h hx]
    simp
  rw [← tickCounted_fault]
  exact congrArg (·.get k) hfaults

theorem makeTick_relaySet (h : s.unangled) (hx : s.examineDue = false) (c : Fin 24) :
    s.makeTick.relaySet c = { s.relaySet c with relays := (s.relaySet c).relays.map Relay.ticked } := by
  have hrelays : s.makeTick.relays = s.tickCounted.relays := by
    rw [makeTick_of_quiet h hx]
    simp
  rw [← tickCounted_relaySet]
  exact congrArg (·.get c) hrelays

theorem makeTick_battery (h : s.unangled) (hx : s.examineDue = false) :
    s.makeTick.battery = s.battery.sample (decide (6400 < s.pins.batteryMv)) := by
  have hcounted : s.makeTick.battery =
      (s.tickPlayed.addDue (clockEvents s.tickPlayed.rigTime).1).tickRelays.sampleBattery.battery := by
    rw [makeTick_of_quiet h hx]
    simp [State.tickCounted]
  rw [hcounted, State.sampleBattery]
  simp [State.tickPlayed, State.clocked]

theorem makeTick_run (h : s.unangled) (hx : s.examineDue = false) : s.makeTick.run = { s.run with
    safe := s.run.safe.sample s.pins.safeLine
    monitor := { s.run.monitor with
      timer := if s.run.mode = .run then s.run.monitor.timer.map (· - 1) else s.run.monitor.timer } } := by
  have hlast (u : State) : u.tickMonitor.sampleSafeLine.run =
      { u.tickMonitor.run with safe := u.tickMonitor.run.safe.sample u.tickMonitor.pins.safeLine } := by
    simp only [State.sampleSafeLine]
    simp
  rw [makeTick_of_quiet h hx, hlast, (tickMonitor_spec _).1]
  simp [State.tickCounted, State.tickPlayed, State.clocked]

theorem makeTick_input (h : s.unangled) (hx : s.examineDue = false) (i : Fin 16) : s.makeTick.input i =
    if (s.input i).settings.enabled = true ∧ s.run.mode ≠ .config ∧
        (s.rigTime + 1).toNat % (s.input i).settings.divider = 0 then
      (s.input i).sample ⟨s.rigTime + 1, s.clocked.angleNow, s.clocked.angle.cycle⟩
    else s.input i := by
  have hinputs : s.makeTick.inputs = s.tickCounted.sampleInputs.inputs := by
    rw [makeTick_of_quiet h hx]
    simp
  have hbefore : s.tickCounted.input i = s.input i := by
    have hone : s.tickCounted.inputs = s.inputs := by simp [State.tickCounted, State.tickPlayed, State.clocked]
    exact congrArg (·.get i) hone
  have hsamples : s.tickCounted.samples (s.input i) = true ↔ (s.input i).settings.enabled = true ∧ s.run.mode ≠ .config ∧
      (s.rigTime + 1).toNat % (s.input i).settings.divider = 0 := by
    simp [State.samples, State.tickCounted, State.tickPlayed, State.clocked, and_assoc]
  have hstamp : s.tickCounted.stampNow = ⟨s.rigTime + 1, s.clocked.angleNow, s.clocked.angle.cycle⟩ := by
    simp [State.stampNow, State.angleNow, State.tickCounted, State.tickPlayed, State.clocked]
  have hsampled : s.tickCounted.sampleInputs.input i =
      if s.tickCounted.samples (s.tickCounted.input i) then (s.tickCounted.input i).sample s.tickCounted.stampNow
      else s.tickCounted.input i := by
    simp only [State.sampleInputs, State.input, mapV_get] <;> rfl
  rw [hbefore, hstamp] at hsampled
  have hmade : s.makeTick.input i = s.tickCounted.sampleInputs.input i := congrArg (·.get i) hinputs
  rw [hmade, hsampled]
  simp only [hsamples]

theorem makeTick_engine (h : s.unangled) (n : Fin 4) : s.makeTick.engine n =
    if s.run.mode = .run then (s.engine n).timed else s.engine n := by
  rw [← (tickPlayed_timed h).2.2.1 n]
  exact congrArg (·.get n) (makeTick_played s).1

theorem drives_congr (hch : (u.channel c).driver = (s.channel c).driver)
    (hset : (u.relaySet c).inService = (s.relaySet c).inService) : u.drives c = s.drives c := by
  rw [State.drives, State.drives, hch, hset]

/-- A channel after the generators and the current limits of a tick. -/
theorem countedLimits_channel (s : State) (l : List Event) (c : Fin 24) :
    ((s.countGenerators.addDue l).sampleLimits).channel c = { gridStep (s.channel c) with
      limitTicks := limitSample (s.drives c) (s.pins.limit.get c) (s.channel c).limitTicks } := by
  have hgrid : (s.countGenerators.addDue l).channel c = gridStep (s.channel c) := by
    rw [State.addDue_channel, countGenerators_channel]
  have hrelays : (s.countGenerators.addDue l).relays = s.relays := by simp
  have hdrives : (s.countGenerators.addDue l).drives c = s.drives c :=
    drives_congr (by rw [hgrid]; rfl) (congrArg RelaySet.inService (congrArg (·.get c) hrelays))
  have hpins : (s.countGenerators.addDue l).pins = s.pins := by simp
  rw [sampleLimits_channel, hdrives, hpins, hgrid]
  rfl

/-- A channel after a quiet tick: its pulse pin, its generator and its current limit. -/
theorem makeTick_channel (h : s.unangled) (hx : s.examineDue = false) (c : Fin 24) : s.makeTick.channel c =
    { gridStep (s.clocked.evaluatePulses.channel c) with
      limitTicks := limitSample (s.drives c) (s.pins.limit.get c) (s.channel c).limitTicks } := by
  have hchannels : s.makeTick.channels = ((s.tickCounted.sampleInputs.countGenerators.addDue
      (clockEvents s.tickCounted.sampleInputs.countGenerators.rigTime).2).sampleLimits).channels := by
    rw [makeTick_of_quiet h hx]
    simp
  have hsampled : s.tickCounted.sampleInputs.channel c = s.clocked.evaluatePulses.channel c := by
    have hone : s.tickCounted.sampleInputs.channels = s.tickCounted.channels := by simp
    exact (congrArg (·.get c) hone).trans (tickCounted_channel s c)
  have hpulsed : (s.clocked.evaluatePulses.channel c).driver = (s.channel c).driver ∧
      (s.clocked.evaluatePulses.channel c).limitTicks = (s.channel c).limitTicks := by
    by_cases hc : kindOf c = .pulse
    · rw [evaluatePulses_pulse hc]
      exact ⟨rfl, rfl⟩
    · rw [evaluatePulses_other hc]
      exact ⟨rfl, rfl⟩
  have hservice : (s.tickCounted.sampleInputs.relaySet c).inService = (s.relaySet c).inService := by
    have hone : s.tickCounted.sampleInputs.relays = s.tickCounted.relays := by simp
    have hset : s.tickCounted.sampleInputs.relaySet c = s.tickCounted.relaySet c := congrArg (·.get c) hone
    rw [hset, tickCounted_relaySet]
  have hpins : s.tickCounted.sampleInputs.pins = s.pins := by simp [State.tickCounted, State.tickPlayed, State.clocked]
  have hdrives : s.tickCounted.sampleInputs.drives c = s.drives c := drives_congr (by rw [hsampled, hpulsed.1]) hservice
  have hmade : s.makeTick.channel c = _ := congrArg (·.get c) hchannels
  refine hmade.trans ((countedLimits_channel _ _ c).trans ?_)
  rw [hdrives, hpins, hsampled, hpulsed.2]

end Sys2Proof.Machine
end

section
/-! O13: the tick, put together. -/

namespace Sys2Proof.Machine

variable {s t u v : State} {n j : Fin 4} {c : Fin 24} {k : Fin 64} {e : Event} {w : Bool}

/-! ## A quiet tick -/

theorem makeTick_wheel (h : s.unangled) (hx : s.examineDue = false) (c : Fin 24) (x : Channel) :
    s.makeTick.wheelActive c x = s.clocked.wheelActive c x := by
  refine wheelActive_ticked (makeTick_fault h hx) ?_ rfl
  rw [makeTick_rest h hx]

theorem pulseActive_eq {x : Channel} : s.pulseActive c x =
    if x.mode = .wheel then s.wheelActive c x else x.gen.any fun g => g.active := by
  unfold State.pulseActive
  cases x.mode with
  | wheel => rfl
  | free => cases x.gen <;> rfl

/-- A channel after a quiet tick, in the words of O13. -/
theorem makeTick_channel_spec (h : s.unangled) (hx : s.examineDue = false) (c : Fin 24) : ∃ (level : Nat) (held : Bool),
    (kindOf c ≠ .pulse → level = (s.channel c).pin ∧ held = (s.channel c).pinHeld) ∧
    (kindOf c = .pulse → (level, held) = pulsePin (s.effectiveRecord c) (s.channel c).inverted
      (if (s.channel c).mode = .wheel then s.makeTick.wheelActive c (s.channel c)
        else (s.channel c).gen.any fun g => g.active)) ∧
    s.makeTick.channel c = { s.channel c with
      pin := level
      pinHeld := held
      lastOutput := if kindOf c = .pulse then level else (s.channel c).lastOutput
      gen := (s.channel c).gen.map fun g => { g with elapsed := g.elapsed + 1 }
      wait := (s.channel c).wait - 1
      limitTicks :=
        if (s.channel c).driver = .driving ∧ (s.relaySet c).inService = true ∧ s.pins.limit.get c = true then
          (match (s.channel c).limitTicks with | none => some 0 | some n => some (n + 1))
        else none } := by
  have hlimit : limitSample (s.drives c) (s.pins.limit.get c) (s.channel c).limitTicks =
      if (s.channel c).driver = .driving ∧ (s.relaySet c).inService = true ∧ s.pins.limit.get c = true then
        (match (s.channel c).limitTicks with | none => some 0 | some n => some (n + 1))
      else none := by
    rw [limitSample_eq]
    simp only [drives_iff, and_assoc] <;> rfl
  have hchannel := makeTick_channel h hx c
  rw [hlimit] at hchannel
  by_cases hc : kindOf c = .pulse
  · rw [evaluatePulses_pulse hc, pulseActive_eq, show s.clocked.channel c = s.channel c from rfl,
      ← makeTick_wheel h hx, effectiveRecord_congr (show s.clocked.faults = s.faults from rfl)] at hchannel
    refine ⟨(pulsePin _ _ _).1, (pulsePin _ _ _).2, fun hne => absurd hc hne, fun _ => rfl, hchannel.trans ?_⟩
    rw [if_pos hc]
    rfl
  · rw [evaluatePulses_other hc, show s.clocked.channel c = s.channel c from rfl] at hchannel
    refine ⟨(s.channel c).pin, (s.channel c).pinHeld, fun _ => ⟨rfl, rfl⟩, fun hp => absurd hp hc, hchannel.trans ?_⟩
    rw [if_neg hc]
    rfl

theorem unangled_changePins (l : List PinChange) (h : s.unangled) : (s.changePins l).unangled := h

theorem tick_wraps (s : State) :
    s.wraps = decide (s.run.mode ≠ .config ∧ 2 ^ 32 ≤ s.angle.phase.toNat + increment s.angle.speed) := by
  rw [State.wraps, AngleBase.carries]
  simp only [Bool.decide_and]

theorem makeTick_angle_eq (h : s.unangled) (hx : s.examineDue = false) : s.makeTick.angle = s.clocked.angle := by
  rw [makeTick_rest h hx]

theorem makeTick_rigTime (h : s.unangled) (hx : s.examineDue = false) : s.makeTick.rigTime = s.rigTime + 1 := by
  rw [makeTick_rest h hx]

theorem makeTick_relay (h : s.unangled) (hx : s.examineDue = false) (c : Fin 24) (r : RelayName) :
    (s.makeTick.relaySet c).relays.get r = ((s.relaySet c).relays.get r).ticked := by
  rw [makeTick_relaySet h hx]
  cases r <;> rfl

/-- The advances that a quiet tick makes due, and nothing else under their name. -/
theorem mem_makeTick_due (h : s.unangled) (hx : s.examineDue = false) (hd : s.due = []) : e ∈ s.makeTick.due ↔
    ((s.run.mode = .run ∧ ∃ j, e = .replayAdvance j ∧ (s.engine j).advances) ∨
    (e = .millisecond ∧ s.makeTick.rigTime.toNat % 1000 = 0) ∨
    (∃ c r, e = .moveComplete c r ∧ ((s.makeTick.relaySet c).relays.get r).completes (s.sensed c r) = true ∨
      e = .moveFail c r ∧ ((s.makeTick.relaySet c).relays.get r).fails (s.sensed c r) = true) ∨
    (e = .battery ∧ s.makeTick.battery.count = 4) ∨
    (∃ k, e = .durationEnd k ∧ (s.makeTick.fault k).state = .active ∧ (s.makeTick.fault k).durationOver = true) ∨
    (s.run.mode = .run ∧ ∃ k, e = .atTime k ∧ (s.fault k).state = .armed ∧
      ∃ x : RigTime, (s.fault k).trigger = .atTime x ∧ x.toNat ≤ s.makeTick.rigTime.toNat)) ∨
    (∃ i, e = .captureReport i ∧ (s.makeTick.input i).level.isSome = true ∧ (s.makeTick.input i).edge.isSome = true) ∨
    (∃ c, kindOf c = .pulse ∧ e ∈ gridEvent c (s.channel c)) ∨
    (e = .refresh ∧ s.makeTick.rigTime.toNat % 4 = 0) ∨
    (∃ c, e = .driverTrip c ∧ (s.makeTick.channel c).limitTicks = some 1000) ∨
    (e = .deadline ∧ s.run.mode = .run ∧ ∃ n ≤ 1, s.run.monitor.timer = some n) ∨
    (e = .safeLine ∧ s.makeTick.run.safe.count = 4) := by
  rw [mem_makeTick_of_quiet h hx, mem_tickCounted h hd, makeTick_rigTime h hx, makeTick_battery h hx]
  simp only [makeTick_fault h hx, makeTick_relaySet h hx]
  rfl

/-- The third clause of O13 for the state whose lines have changed. -/
theorem quietTick_events (h : s.unangled) (hx : s.examineDue = false) (hd : s.due = []) :
    (Event.battery ∈ s.makeTick.due ↔ s.makeTick.battery.count = 4) ∧
    (Event.safeLine ∈ s.makeTick.due ↔ s.makeTick.run.safe.count = 4) ∧
    (Event.deadline ∈ s.makeTick.due ↔ s.run.mode = .run ∧ ∃ n ≤ 1, s.run.monitor.timer = some n) ∧
    (∀ k, (Event.durationEnd k ∈ s.makeTick.due ↔
        (s.makeTick.fault k).state = .active ∧ (s.makeTick.fault k).durationOver = true) ∧
      (Event.atTime k ∈ s.makeTick.due ↔ s.run.mode = .run ∧ (s.fault k).state = .armed ∧
        ∃ x : RigTime, (s.fault k).trigger = .atTime x ∧ x.toNat ≤ s.makeTick.rigTime.toNat) ∧
      Event.onCapture k ∉ s.makeTick.due) ∧
    (∀ c r, (Event.moveComplete c r ∈ s.makeTick.due ↔
        ((s.makeTick.relaySet c).relays.get r).completes (s.sensed c r) = true) ∧
      (Event.moveFail c r ∈ s.makeTick.due ↔
        ((s.makeTick.relaySet c).relays.get r).fails (s.sensed c r) = true)) ∧
    (∀ i, Event.captureReport i ∈ s.makeTick.due ↔
      (s.makeTick.input i).level.isSome = true ∧ (s.makeTick.input i).edge.isSome = true) ∧
    (∀ c, (Event.driverTrip c ∈ s.makeTick.due ↔ (s.makeTick.channel c).limitTicks = some 1000) ∧
      (Event.periodStart c ∈ s.makeTick.due ↔ kindOf c = .pulse ∧
        ((s.channel c).gen = none ∧ (s.channel c).wait = 1 ∨
          ∃ g, (s.channel c).gen = some g ∧ g.elapsed + 1 = g.period)) ∧
      (Event.highEnd c ∈ s.makeTick.due ↔ kindOf c = .pulse ∧ ∃ g, (s.channel c).gen = some g ∧
        g.active = true ∧ g.elapsed + 1 = g.high ∧ g.high < g.period)) ∧
    ∀ n, Event.replayAdvance n ∈ s.makeTick.due ↔ s.run.mode = .run ∧ (s.engine n).state = .running ∧
      (s.engine n).current.isSome = true ∧ ∃ p, (s.engine n).pacing = .time p ∧ p ≤ (s.engine n).e + 1 := by
  simp only [mem_makeTick_due h hx hd, mem_gridEvent]
  refine ⟨?_, ?_, ?_, fun k => ⟨?_, ?_, ?_⟩, fun c r => ⟨?_, ?_⟩, fun i => ?_, fun c => ⟨?_, ?_, ?_⟩, fun n => ?_⟩ <;>
    simp [Engine.advances]

end Sys2Proof.Machine
end

section
/-! O13: RIG_TICK and CYCLE_WRAP. -/

namespace Sys2Proof.Machine

variable {s t u v : State} {n j : Fin 4} {c : Fin 24} {k : Fin 64} {e : Event} {w : Bool}

/-! ## What every tick does -/

theorem makeTick_clock (s : State) : s.makeTick.rigTime = s.rigTime + 1 ∧ s.makeTick.halfDone = false ∧
    s.makeTick.angle = s.clocked.angle ∧ s.makeTick.run.mode = s.run.mode := by
  rw [makeTick_eq]
  refine ⟨?_, ?_, ?_, ?_⟩
  · simp [State.tickSampled, State.tickGridded, State.tickFired, State.tickCounted, State.tickPlayed, State.clocked]
  · simp [State.tickSampled, State.tickGridded, State.tickFired, State.tickCounted, State.tickPlayed, State.clocked]
  · simp [State.tickSampled, State.tickGridded, State.tickFired, State.tickCounted, State.tickPlayed]
  · have hsettle : s.tickSampled.settle.run = s.tickSampled.run := by simp
    rw [hsettle, State.tickSampled, sampleSafeLine_mode, tickMonitor_mode]
    simp [State.tickGridded, State.tickFired, State.tickCounted, State.tickPlayed]

/-- Of the two events of the clock a tick makes due what the rig time says (R2, R25). -/
theorem makeTick_clockDue (hd : s.due = []) :
    (Event.millisecond ∈ s.makeTick.due ↔ s.makeTick.rigTime.toNat % 1000 = 0) ∧
    (Event.refresh ∈ s.makeTick.due ↔ s.makeTick.rigTime.toNat % 4 = 0) := by
  have hplayed : ∀ e ∈ s.tickPlayed.due, Event.isAdvance e = true := by
    refine tickEngines_advances fun e he => ?_
    have hdue : s.clocked.evaluatePulses.due = s.due := by simp [State.clocked]
    rw [hdue, hd] at he
    cases he
  have hms : Event.millisecond ∉ s.tickPlayed.due := fun h => absurd (hplayed _ h) (by decide)
  have hrefresh : Event.refresh ∉ s.tickPlayed.due := fun h => absurd (hplayed _ h) (by decide)
  have htime : s.tickPlayed.rigTime = s.rigTime + 1 := by simp [State.tickPlayed, State.clocked]
  have htime' : s.tickFired.rigTime = s.rigTime + 1 := by
    simp [State.tickFired, State.tickCounted, State.tickPlayed, State.clocked]
  have hfired : s.tickFired.due = s.tickCounted.due := by simp [State.tickFired]
  have hsettle : s.makeTick.due = s.tickSampled.due := by
    rw [makeTick_eq]
    simp
  rw [hsettle, (makeTick_clock s).1]
  have hgrid {c : Fin 24} {x : Channel} : Event.millisecond ∉ gridEvent c x ∧ Event.refresh ∉ gridEvent c x := by
    simp [mem_gridEvent]
  simp only [State.tickSampled, mem_sampleSafeLine, (tickMonitor_spec _).2, mem_sampleLimits, State.addDue_due,
    List.mem_append, (mem_clockEvents _).2, State.tickGridded, mem_countGenerators, mem_sampleInputs, hfired,
    State.tickCounted, mem_noteAtTime, mem_tickFaults, mem_sampleBattery, mem_tickRelays, (mem_clockEvents _).1, htime,
    hms, hrefresh, hgrid]
  constructor <;> simp [htime']

theorem makeTick_moves_angle (s : State) :
    (s.run.mode = .config → s.makeTick.angle = s.angle) ∧
    (s.run.mode ≠ .config → s.makeTick.angle = s.angle.advance) := by
  rw [(makeTick_clock s).2.2.1]
  exact ⟨fun h => if_neg (not_not.2 h), fun h => if_pos h⟩

/-- The Angle Base after a tick that moves it (R4, R5). -/
theorem advance_spec (a : AngleBase) :
    a.advance.phase.toNat = (a.phase.toNat + increment a.speed) % 2 ^ 32 ∧
    (a.phase.toNat + increment a.speed < 2 ^ 32 → a.advance = { a with phase := a.advance.phase }) ∧
    (2 ^ 32 ≤ a.phase.toNat + increment a.speed →
      a.advance = { a with phase := a.advance.phase, cycle := a.cycle + 1,
                           active := a.advance.active, staged := ⟨none, none, none⟩ } ∧
      ∀ q, a.advance.active.get q = (a.staged.get q).getD (a.active.get q)) := by
  refine ⟨phase_after a, fun h => ?_, fun h => ?_⟩
  · have hcarry : a.carries = false := by
      rw [Bool.eq_false_iff, ne_eq, carries_iff]
      exact not_le.2 h
    rw [advance_of_not_carries hcarry]
  · rw [advance_of_carries ((carries_iff a).2 h)]
    refine ⟨rfl, fun q => ?_⟩
    cases q <;> rfl

/-! ## Instants at which only the FREE generators have something due -/

/-- Only period starts and ends of high time are due. -/
def State.gridDue (s : State) : Prop := ∀ x ∈ s.due, ∃ d, x = .periodStart d ∨ x = .highEnd d

/-- One event of a generator, taken: nothing else is due after it than before, and the rest of the instant is as it was. -/
theorem performGrid_keeps (h : ∃ d, e = .periodStart d ∨ e = .highEnd d) :
    (s.perform e).settle.due = s.due ∧ (s.perform e).settle.halfDone = s.halfDone ∧
    (s.perform e).settle.angle = s.angle ∧ (s.perform e).settle.run = s.run := by
  obtain ⟨d, rfl | rfl⟩ := h <;> simp [State.perform]

/-- Closing an instant at which only generators have something due. -/
theorem flushFuel_keeps (m : Nat) (h : s.gridDue) : (flushFuel m s).halfDone = s.halfDone ∧
    (flushFuel m s).angle = s.angle ∧ (flushFuel m s).run = s.run := by
  induction m generalizing s with
  | zero => exact ⟨rfl, rfl, rfl⟩
  | succ m ih =>
    cases hd : s.due with
    | nil =>
      simp only [flushFuel, hd, and_self]
    | cons e rest =>
      have hall : ∀ x ∈ e :: rest, ∃ d, x = .periodStart d ∨ x = .highEnd d := hd ▸ h
      obtain ⟨hdue, hhalf, hangle, hrun⟩ := performGrid_keeps (s := { s with due := rest }) (hall e List.mem_cons_self)
      simp only [flushFuel, hd]
      obtain ⟨hhalf', hangle', hrun'⟩ := ih (s := (State.perform { s with due := rest } e).settle) (by
        unfold State.gridDue
        rw [hdue]
        exact fun x hx => hall x (List.mem_cons_of_mem e hx))
      exact ⟨hhalf'.trans hhalf, hangle'.trans hangle, hrun'.trans hrun⟩

/-- Fuel for every event that is due is fuel enough. -/
theorem flushFuel_enough (m : Nat) (h : s.gridDue) (hm : s.due.length ≤ m) : flushFuel (m + 1) s = flushFuel m s := by
  induction m generalizing s with
  | zero =>
    have hd : s.due = [] := List.length_eq_zero_iff.1 (Nat.le_zero.1 hm)
    simp only [flushFuel, hd]
  | succ m ih =>
    cases hd : s.due with
    | nil => simp only [flushFuel, hd]
    | cons e rest =>
      have hall : ∀ x ∈ e :: rest, ∃ d, x = .periodStart d ∨ x = .highEnd d := hd ▸ h
      obtain ⟨hdue, -⟩ := performGrid_keeps (s := { s with due := rest }) (hall e List.mem_cons_self)
      have hnext := ih (s := (State.perform { s with due := rest } e).settle)
        (by
          unfold State.gridDue
          rw [hdue]
          exact fun x hx => hall x (List.mem_cons_of_mem e hx))
        (by
          rw [hdue]
          rw [hd] at hm
          simpa using hm)
      rw [flushFuel, flushFuel, hd]
      exact hnext

/-- The event of a generator at the head of the events due is the first that a closing instant takes. -/
theorem flush_head {rest : List Event} (hd : s.due = e :: rest) (hrest : rest.length < 16) (h : s.gridDue) :
    (s.takeEvent e).due = rest ∧ s.flush = (s.takeEvent e).flush := by
  have hall : ∀ x ∈ e :: rest, ∃ d, x = .periodStart d ∨ x = .highEnd d := hd ▸ h
  have htook : s.took e = { s with due := rest } := by
    rw [State.took, hd, List.erase_cons_head]
  have htake : s.takeEvent e = (State.perform { s with due := rest } e).settle := by
    rw [State.takeEvent, if_pos (by rw [hd]; exact List.mem_cons_self), htook]
  obtain ⟨hdue, -⟩ := performGrid_keeps (s := { s with due := rest }) (hall e List.mem_cons_self)
  have hfuel (m : Nat) (hm : 16 ≤ m) : flushFuel (m + 1) s = flushFuel (m + 1) (s.takeEvent e) := by
    rw [flushFuel_enough (s := s.takeEvent e) m (by
      unfold State.gridDue
      rw [htake, hdue]
      exact fun x hx => hall x (List.mem_cons_of_mem e hx)) (by rw [htake, hdue]; exact (Nat.le_of_lt hrest).trans hm), htake, flushFuel, hd]
  exact ⟨by rw [htake, hdue], hfuel 999 (by decide)⟩

theorem closeInstant_congr (h : u.flush = s.flush) : u.closeInstant = s.closeInstant := by
  simp only [State.closeInstant, State.halfTick, h]

theorem tick_congr (l : List PinChange) (hp : u.pins.resetLine = false) (hs : s.pins.resetLine = false)
    (h : u.closeInstant = s.closeInstant) : u.tick l = s.tick l := by
  simp only [State.tick, hp, hs, h]
  rfl

/-- The half-tick instant makes due events of the generators alone. -/
theorem halfTick_gridDue (hd : s.due = []) : s.halfTick.gridDue := by
  intro e he
  obtain ⟨d, -, ⟨h, -⟩ | ⟨h, -⟩⟩ := ((State.halfTick_spec hd).2.2.2 e).1 he
  · exact ⟨d, .inl h⟩
  · exact ⟨d, .inr h⟩

/-- A closed instant, passed where its half-tick instant is still to come, keeps the angle, the mode and the lines. -/
theorem closeInstant_keeps (hd : s.due = []) : s.closeInstant.angle = s.angle ∧ s.closeInstant.run = s.run := by
  unfold State.closeInstant
  rw [flush_of_quiet hd]
  dsimp only
  split
  · exact ⟨rfl, rfl⟩
  · obtain ⟨-, hangle, hrun⟩ := flushFuel_keeps 1000 (halfTick_gridDue hd)
    have hhalf := (State.halfTick_spec hd).1
    refine ⟨hangle.trans ?_, hrun.trans ?_⟩
    · rw [hhalf]
    · rw [hhalf]

theorem closeInstant_halfTick (hd : s.due = []) (hh : s.halfDone = false) : s.halfTick.closeInstant = s.closeInstant := by
  have hdone : s.halfTick.flush.halfDone = true := by
    have hkept := (flushFuel_keeps 1000 (halfTick_gridDue hd)).1
    have hhalf := (State.halfTick_spec hd).1
    exact hkept.trans (by rw [hhalf])
  have hleft : s.halfTick.closeInstant = s.halfTick.flush := if_pos hdone
  have hright : s.closeInstant = s.halfTick.flush := by
    simp only [State.closeInstant, flush_of_quiet hd]
    exact if_neg (by rw [hh]; decide)
  rw [hleft, hright]

/-- CYCLE_WRAP is the tick whose addition carries (R5). -/
theorem wrapTick_spec (hr : s.pins.resetLine = false) (hd : s.due = []) :
    (s.run.mode ≠ .config → 2 ^ 32 ≤ s.angle.phase.toNat + increment s.angle.speed →
      s.wrapTick = s.tick [] ∧ (s.tick []).angle.cycle = s.angle.cycle + 1) ∧
    (s.run.mode = .config ∨ s.angle.phase.toNat + increment s.angle.speed < 2 ^ 32 → s.wrapTick = s) := by
  obtain ⟨hangle, hrun⟩ := closeInstant_keeps hd
  have hpins : s.closeInstant.pins.resetLine = false := by simpa using hr
  refine ⟨fun hm hcarry => ?_, fun hstay => if_neg ?_⟩
  · have htick : s.tick [] = s.closeInstant.makeTick := if_neg (by rw [hr]; decide)
    have hwrap : s.wrapTick = s.closeInstant.makeTick :=
      if_pos ⟨hpins, by rw [hrun]; exact hm, by rw [hangle]; exact (carries_iff _).2 hcarry⟩
    refine ⟨hwrap.trans htick.symm, ?_⟩
    rw [htick, (makeTick_moves_angle _).2 (by rw [hrun]; exact hm), hangle,
      advance_of_carries ((carries_iff _).2 hcarry)]
  · rintro ⟨-, hm, hcarry⟩
    rw [hrun] at hm
    rw [hangle, carries_iff] at hcarry
    rcases hstay with hc | hlt
    · exact hm hc
    · exact absurd hlt (not_lt.2 hcarry)

theorem timed_of_mode (s : State) (n : Fin 4) : (if s.run.mode = .run then (s.engine n).timed else s.engine n) =
    { s.engine n with e :=
      if s.run.mode = .run ∧ (s.engine n).state = .running ∧ (s.engine n).current.isSome = true then
        (match (s.engine n).pacing with
          | .time p => if (s.engine n).e + 1 < p then (s.engine n).e + 1 else (s.engine n).e
          | .angle _ => (s.engine n).e)
      else (s.engine n).e } := by
  by_cases hm : s.run.mode = .run
  · rw [if_pos hm, Engine.timed]
    simp only [hm, true_and] <;> rfl
  · rw [if_neg hm, if_neg (fun h => hm h.1)]

/-- Settles O13. -/
theorem tickAdvancesTimeAndPhase : Obligations.TickAdvancesTimeAndPhase := by
  refine ⟨fun s l hr => ⟨s.tick l, rfl, ?_⟩, fun s l hr hd hh => ⟨s.tick l, rfl, ?_⟩,
    fun s l hr hd hh hx hu => ?_, fun s l hr hd hh hx => ⟨s.halfTick, State.halfTick_spec hd, ?_⟩,
    fun s l c i e rest hr hd hrest hgrid hi => ?_, fun s hr hd _ => ?_⟩
  · have htick : s.tick l = (s.closeInstant.changePins l).makeTick := if_neg (by rw [hr]; decide)
    obtain ⟨htime, hhalf, -⟩ := makeTick_clock (s.closeInstant.changePins l)
    rw [htick, htime, hhalf]
    simp [State.changePins]
  · have htick := tick_of_closed l hr hd hh
    obtain ⟨-, -, -, hmode⟩ := makeTick_clock (s.changePins l)
    obtain ⟨hms, hrefresh⟩ := makeTick_clockDue (s := s.changePins l) hd
    obtain ⟨hstay, hmoves⟩ := makeTick_moves_angle (s.changePins l)
    rw [htick]
    refine ⟨hmode, hms, hrefresh, hstay, fun hm => ?_⟩
    rw [hmoves hm]
    exact advance_spec s.angle
  · have htick := tick_of_closed l hr hd hh
    have hquiet : (s.changePins l).unangled := fun hm => ⟨(hu hm).1, (hu hm).2⟩
    have hevents := quietTick_events hquiet hx hd
    obtain ⟨hbattery, hsafe, hdeadline, hrecords, hmovements, hreports, hchannels, hengines⟩ := hevents
    have hpins : ((s.changePins l).makeTick).pins = (s.changePins l).pins := by simp
    have hclock : ((s.changePins l).makeTick).rigTime = s.rigTime + 1 := makeTick_rigTime hquiet hx
    have hangle : ((s.changePins l).makeTick).angle = (s.changePins l).clocked.angle := makeTick_angle_eq hquiet hx
    refine ⟨(s.changePins l).makeTick, (s.changePins l).advanceNow, (s.changePins l).wraps,
      congrArg Host.Outcome.next htick, ?_, tick_wraps (s.changePins l), ?_, ?_, ?_, makeTick_fault hquiet hx, fun c => ⟨?_, fun r => ?_⟩,
      fun i => ?_, fun c => ?_, fun n => ?_, hbattery, hsafe, hdeadline, hrecords, fun c r => ?_, hreports, hchannels, hengines⟩
    · exact congrArg (fun a : AngleBase => angleAdvance (angleCount s.angle.phase) (angleCount a.phase)) hangle.symm
    · have hrest := makeTick_rest hquiet hx
      rw [hclock, hangle, hpins]
      exact hrest
    · rw [hpins]
      exact makeTick_battery hquiet hx
    · rw [hpins]
      exact makeTick_run hquiet hx
    · rw [makeTick_relaySet hquiet hx]
      rfl
    · exact makeTick_relay hquiet hx c r
    · rw [hclock, hangle]
      exact makeTick_input hquiet hx i
    · rw [hpins]
      exact makeTick_channel_spec hquiet hx c
    · exact (makeTick_engine hquiet n).trans (timed_of_mode s n)
    · rw [hpins]
      exact hmovements c r
  · have hpins : s.halfTick.pins.resetLine = false := by simpa using hr
    exact congrArg Host.Outcome.next (tick_congr l hpins hr (closeInstant_halfTick hd hh)).symm
  · have hmem : e ∈ s.due := by
      rw [hd]
      exact List.mem_cons_self
    obtain ⟨hdue, hflush⟩ := flush_head hd hrest hgrid
    have hpins : (s.takeEvent e).pins.resetLine = false := by simpa using hr
    refine ⟨s.takeEvent e, ?_, hdue, congrArg Host.Outcome.next (tick_congr l hr hpins (closeInstant_congr hflush))⟩
    have htake : s.takeGridEvent e = s.takeEvent e := if_pos hmem
    rw [← htake]
    obtain ⟨rfl, rfl⟩ | ⟨rfl, rfl⟩ := hi
    · rfl
    · rfl
  · obtain ⟨hwraps, hstays⟩ := wrapTick_spec hr hd
    refine ⟨fun hm hcarry => ?_, fun h => congrArg Host.Outcome.next (hstays h)⟩
    obtain ⟨hwrap, hcycle⟩ := hwraps hm hcarry
    exact ⟨s.tick [], congrArg Host.Outcome.next hwrap, rfl, hcycle⟩

end Sys2Proof.Machine
end

section
/-! The starts and the buffers that a change of a base pair brings about (R32, R33). -/

namespace Sys2Proof.Machine

variable {s t u v : State} {c d : Fin 24} {w : Nat} {wrote : Fin 24 → Bool} {b x : Value}

/-! ## One channel -/

/-- A change of the base pair does nothing where a channel is neither running nor free to start (R33). -/
theorem basePairChanged_of_resting (h : kindOf c ≠ .pulse ∨ (s.channel c).mode = .wheel ∨ ((s.channel c).gen = none ∧
      (s.run.mode ≠ .run ∨ 0 < (s.channel c).wait ∨ (s.channel c).ownBase.value = 0))) : s.basePairChanged w c = s := by
  have hidle : ¬(kindOf c = .pulse ∧ (s.channel c).mode = .free ∧ (s.channel c).gen.isSome = true) := by
    rintro ⟨hc, hm, hg⟩
    rcases h with h | h | ⟨h, -⟩
    · exact h hc
    · rw [hm] at h
      cases h
    · rw [h] at hg
      cases hg
  have hstays : s.mayStart c = false := by
    rw [← Bool.not_eq_true, mayStart_eq_true_iff]
    rintro ⟨hc, hm, hr, hg, hw, hb⟩
    rcases h with h | h | ⟨-, h | h | h⟩
    · exact h hc
    · rw [hm] at h
      cases h
    · exact h hr
    · omega
    · exact hb h
  unfold State.basePairChanged
  dsimp only
  rw [if_neg hidle, startRequested_of_not_mayStart hstays]

/-- A running channel buffers its new base pair (R33). -/
theorem basePairChanged_of_running (hc : kindOf c = .pulse) (hm : (s.channel c).mode = .free)
    (hg : (s.channel c).gen.isSome = true) :
    s.basePairChanged w c = s.updChannel c fun y => { y with buffer := some y.ownBase } := if_pos ⟨hc, hm, hg⟩

/-- A stopped channel in RUN starts with its new base pair (R33). -/
theorem basePairChanged_of_mayStart (h : s.mayStart c = true) : s.basePairChanged w c = s.startRequested w c := by
  obtain ⟨-, -, -, hg, -⟩ := mayStart_eq_true_iff.1 h
  refine if_neg ?_
  rintro ⟨-, -, hsome⟩
  rw [hg] at hsome
  cases hsome

theorem basePairChanged_channel_ne (h : c ≠ d) : (s.basePairChanged w c).channel d = s.channel d := by
  unfold State.basePairChanged
  dsimp only
  split
  · exact State.updChannel_channel_ne _ _ h
  · exact startRequested_channel_ne s c d h

theorem pairWritten_channel_ne (s : State) (c d : Fin 24) (h : c ≠ d) :
    (State.pairWritten w s c).channel d = s.channel d := by
  unfold State.pairWritten
  split
  · exact basePairChanged_channel_ne h
  · rfl

/-! ## All channels that a request has written -/

/-- The channels come to their new pairs once each, as they were; and a place that is kept then is kept to the end. -/
theorem pairsWritten_visits (hc : kindOf c = .pulse) (hw : wrote c = true) : ∃ v : State,
    v.channel c = s.channel c ∧ v.run = s.run ∧ v.faults = s.faults ∧
    (s.pairsWritten wrote).channel c = (State.pairWritten s.startPlace v c).channel c ∧
    ((State.pairWritten s.startPlace v c).place = s.startPlace → (s.pairsWritten wrote).place = s.startPlace) := by
  obtain ⟨a, r, hl, hbefore, hafter⟩ := foldl_visits (g := State.channel) (l := pulseChannels.filter wrote) (x := c)
    (pairWritten_channel_ne (w := s.startPlace)) (((List.nodup_finRange 24).filter _).filter _)
    (by simp [pulseChannels, hc, hw]) s
  refine ⟨_, hbefore, foldl_keeps State.run _ (fun u x => by simp) a s,
    foldl_keeps State.faults _ (fun u x => by simp) a s, hafter, fun hplace => ?_⟩
  rw [State.pairsWritten, hl, List.foldl_append, List.foldl_cons]
  have hrest := foldl_place (f := State.pairWritten s.startPlace) (w := s.startPlace)
    (fun u c => State.pairWritten_place u s.startPlace c) r
    (State.pairWritten s.startPlace (a.foldl (State.pairWritten s.startPlace) s) c)
  exact hrest.elim (·.trans hplace) id

/-- A channel whose pair does not come to be used is left as it was (R33). -/
theorem pairsWritten_rests (h : kindOf c ≠ .pulse ∨ wrote c = false ∨ (s.channel c).source ≠ .live ∨
      (s.channel c).mode = .wheel ∨ ((s.channel c).gen = none ∧
        (s.run.mode ≠ .run ∨ 0 < (s.channel c).wait ∨ (s.channel c).live.value = 0))) :
    (s.pairsWritten wrote).channel c = s.channel c := by
  by_cases hc : kindOf c = .pulse ∧ wrote c = true
  · obtain ⟨v, hch, hrun, -, hvisit, -⟩ := pairsWritten_visits (s := s) hc.1 hc.2
    rw [hvisit, ← hch]
    unfold State.pairWritten
    split
    next hlive =>
      rw [hch] at hlive
      refine congrArg (State.channel · c) (basePairChanged_of_resting ?_)
      rw [hch, hrun]
      have hbase : (s.channel c).ownBase = (s.channel c).live := by simp [Channel.ownBase, hlive]
      rw [hbase]
      rcases h with h | h | h | h | h
      · exact absurd hc.1 h
      · exact absurd hc.2 (by rw [h]; decide)
      · exact absurd hlive h
      · exact .inr (.inl h)
      · exact .inr (.inr h)
    next => rfl
  · refine foldl_skips (g := State.channel) pairWritten_channel_ne ?_ s
    simp only [pulseChannels, List.mem_filter, List.mem_finRange, true_and, beq_iff_eq]
    exact hc

/-- A running channel whose live value was written buffers it (R33). -/
theorem pairsWritten_buffers (hc : kindOf c = .pulse) (hw : wrote c = true) (hl : (s.channel c).source = .live)
    (hm : (s.channel c).mode = .free) (hg : (s.channel c).gen.isSome = true) :
    (s.pairsWritten wrote).channel c = { s.channel c with buffer := some (s.channel c).live } := by
  obtain ⟨v, hch, -, -, hvisit, -⟩ := pairsWritten_visits (s := s) hc hw
  have hwritten : State.pairWritten s.startPlace v c = v.basePairChanged s.startPlace c := if_pos (by rw [hch]; exact hl)
  rw [hvisit, hwritten, basePairChanged_of_running hc (by rw [hch]; exact hm) (by rw [hch]; exact hg),
    State.updChannel_channel_self, hch]
  simp [Channel.ownBase, hl]

/-- A stopped channel in RUN whose live value was written starts with it (R32, R33). -/
theorem pairsWritten_startsAt (hc : kindOf c = .pulse) (hw : wrote c = true) (hl : (s.channel c).source = .live)
    (hm : (s.channel c).mode = .free) (hr : s.run.mode = .run) (hg : (s.channel c).gen = none)
    (hwait : (s.channel c).wait = 0) (hv : (s.channel c).live.value ≠ 0) :
    s.startsAt (s.pairsWritten wrote) c (s.channel c).live (s.channel c) s.startPlace := by
  obtain ⟨v, hch, hrun, hfaults, hvisit, hkept⟩ := pairsWritten_visits (s := s) hc hw
  have hbase : (s.channel c).ownBase = (s.channel c).live := by simp [Channel.ownBase, hl]
  have hmay : v.mayStart c = true := by
    rw [mayStart_congr hch hrun, mayStart_eq_true_iff]
    exact ⟨hc, hm, hr, hg, hwait, by rw [hbase]; exact hv⟩
  have hwritten : State.pairWritten s.startPlace v c = v.startRequested s.startPlace c :=
    (if_pos (by rw [hch]; exact hl)).trans (basePairChanged_of_mayStart hmay)
  obtain ⟨hplace, hnow, hlater⟩ := startRequested_startsAt (w := s.startPlace) hmay
  rw [hch, hbase, ← hwritten, ← hvisit] at hnow
  rw [hch, ← hwritten, ← hvisit] at hlater
  rw [periodOpens_congr hfaults] at hnow
  exact ⟨hkept (by rw [hwritten]; exact hplace), hnow, hlater⟩

end Sys2Proof.Machine
end

section
/-! O22 and O23: LIVE_UPDATE and STEP_MARK. -/

namespace Sys2Proof.Machine

variable {s t u v : State} {c d : Fin 24} {w : Nat} {g : List GoodEntry} {l : List LiveEntry} {e : LiveEntry}

/-! ## Judging a list (R27) -/

theorem valueGood_eq_false {k : ChannelKind} {x : Int} : valueGood k x = false ↔
    (k = .pulse ∧ (x < 0 ∨ 16777215 < x)) ∨ (k = .switch ∧ x ≠ 0 ∧ x ≠ 1) := by
  cases k
  · simp [valueGood]
  · simp [valueGood]
    omega
  · simp [valueGood]

theorem judgeEntry_eq_none : judgeEntry e = none ↔ 24 ≤ e.channel.toNat ∨ 2 ≤ e.placement.toNat ∨
    ∃ c : Fin 24, e.channel.toNat = c.1 ∧
      ((kindOf c = .pulse ∧ (e.value.toInt < 0 ∨ 16777215 < e.value.toInt)) ∨
        (kindOf c = .switch ∧ e.value.toInt ≠ 0 ∧ e.value.toInt ≠ 1)) := by
  unfold judgeEntry
  cases hi : indexIn 24 e.channel with
  | none => simp [indexIn_eq_none_iff.1 hi]
  | some c =>
    have hc := indexIn_eq_some_iff.1 hi
    have hin : ¬24 ≤ e.channel.toNat := by omega
    have honly : (∃ c : Fin 24, e.channel.toNat = c.1 ∧
        ((kindOf c = .pulse ∧ (e.value.toInt < 0 ∨ 16777215 < e.value.toInt)) ∨
          (kindOf c = .switch ∧ e.value.toInt ≠ 0 ∧ e.value.toInt ≠ 1))) ↔ valueGood (kindOf c) e.value.toInt = false := by
      rw [valueGood_eq_false]
      constructor
      · rintro ⟨d, hd, h⟩
        have hcd : d = c := Fin.ext (hd.symm.trans hc)
        exact hcd ▸ h
      · exact fun h => ⟨c, hc, h⟩
    rw [honly]
    by_cases hp : e.placement.toNat ≤ 1
    · have hlow : ¬2 ≤ e.placement.toNat := by omega
      cases hv : valueGood (kindOf c) e.value.toInt <;> simp [hp, hin, hlow, hv]
    · have hhigh : 2 ≤ e.placement.toNat := by omega
      simp [hp, hhigh]

theorem judgeEntry_parts {staged : Bool} {x : Value} (h : judgeEntry e = some (c, staged, x)) :
    e.channel.toNat = c.1 ∧ e.placement.toNat = (if staged then 1 else 0) ∧
      x = ⟨e.value.toInt, if kindOf c = .pulse then e.aux.toNat else 0⟩ := by
  unfold judgeEntry at h
  cases hi : indexIn 24 e.channel with
  | none =>
    rw [hi] at h
    cases h
  | some d =>
    simp only [hi] at h
    split at h
    next hgood =>
      obtain ⟨rfl, hstaged, hx⟩ : d = c ∧ (e.placement == 1) = staged ∧
          storedValue (kindOf d) e.value.toInt e.aux.toNat = x := by simpa using h
      refine ⟨indexIn_eq_some_iff.1 hi, ?_, ?_⟩
      · rw [← hstaged]
        by_cases hone : e.placement = 1
        · rw [hone]
          decide
        · have hne : e.placement.toNat ≠ 1 := fun h => hone (BitVec.eq_of_toNat_eq h)
          rw [if_neg (by simpa using hone)]
          omega
      · rw [← hx]
        cases kindOf d <;> rfl
    next => cases h

theorem judgeEntries_eq_none (h : ∃ e ∈ l, judgeEntry e = none) : judgeEntries l = none := by
  induction l with
  | nil => simp at h
  | cons a l ih =>
    obtain ⟨e, he, hbad⟩ := h
    rcases List.mem_cons.1 he with rfl | he
    · rw [judgeEntries, hbad]
    · rw [judgeEntries, ih ⟨e, he, hbad⟩]
      cases judgeEntry a <;> rfl

theorem judgeEntries_eq_some (h : l.map judgeEntry = g.map some) : judgeEntries l = some g := by
  induction l generalizing g with
  | nil =>
    cases g with
    | nil => rfl
    | cons x g => cases h
  | cons a l ih =>
    cases g with
    | nil => cases h
    | cons x g =>
      obtain ⟨ha, hl⟩ := List.cons.inj h
      rw [judgeEntries, ha, ih hl]

/-! ## Writing a list (R28) -/

/-- What the entries of a list leave of the channels and of the echo. -/
theorem applyEntries_spec (g : List GoodEntry) (s : State) :
    g.foldl State.applyEntry s = { s with
      channels := (g.foldl State.applyEntry s).channels, lastEcho := (g.foldl State.applyEntry s).lastEcho } ∧
    (g.foldl State.applyEntry s).lastEcho =
      ((g.filter fun x => !x.2.1).getLast?.map fun x => some ⟨x.1, x.2.2, s.rigTime⟩).getD s.lastEcho ∧
    ∀ c, (g.foldl State.applyEntry s).channel c = { s.channel c with
      live := ((g.filter fun x => x.1 == c && !x.2.1).getLast?.map fun x => x.2.2).getD (s.channel c).live
      slot := ((g.filter fun x => x.1 == c).getLast?.map fun x => if x.2.1 then some x.2.2 else none).getD
        (s.channel c).slot } := by
  induction g using List.reverseRecOn with
  | nil => exact ⟨rfl, rfl, fun c => rfl⟩
  | append_singleton g x ih =>
    obtain ⟨hrest, hecho, hchannel⟩ := ih
    have htime : (g.foldl State.applyEntry s).rigTime = s.rigTime := by rw [hrest]
    obtain ⟨d, staged, y⟩ := x
    rw [List.foldl_append, List.foldl_cons, List.foldl_nil]
    generalize g.foldl State.applyEntry s = u at hrest hecho hchannel htime
    cases staged with
    | true =>
      refine ⟨?_, ?_, fun c => ?_⟩
      · rw [hrest]
        rfl
      · simpa [State.applyEntry, State.stage] using hecho
      · by_cases hcd : d = c
        · subst hcd
          simp [State.applyEntry, State.stage, hchannel, List.filter_append]
        · simp [State.applyEntry, State.stage, hchannel, List.filter_append, hcd]
    | false =>
      refine ⟨?_, ?_, fun c => ?_⟩
      · rw [hrest]
        rfl
      · simp [State.applyEntry, State.writeLive, List.filter_append, htime]
      · have hwrite : (u.writeLive d y).channel c = (u.updChannel d fun ch => { ch with live := y, slot := none }).channel c := rfl
        by_cases hcd : d = c
        · subst hcd
          simp [State.applyEntry, hwrite, hchannel, List.filter_append]
        · simp [State.applyEntry, hwrite, hchannel, List.filter_append, hcd]

/-! ## O22 -/

theorem startsAt_congr (h : u.faults = s.faults) : u.startsAt = s.startsAt := by
  simp only [funext_iff, State.startsAt, periodOpens_congr h, implies_true]

/-- A grid point open to a state is open to one with the same place, events and generators (assumption 23). -/
theorem mayOpenAt_congr (hp : u.place = s.place) (hd : u.due = s.due) (hh : u.halfDone = s.halfDone)
    (hg : ∀ c, (u.channel c).gen = (s.channel c).gen ∧ (u.channel c).wait = (s.channel c).wait) :
    u.mayOpenAt w ↔ s.mayOpenAt w := by
  have hevent (c : Fin 24) : gridEvent c (u.channel c) = gridEvent c (s.channel c) := by
    rw [gridEvent, gridEvent, (hg c).1, (hg c).2]
  simp only [State.mayOpenAt, hp, hd, hh, hevent]

theorem shownThrough_values (e : Option FaultRecord) (x : Channel) :
    (shownThrough c e x).live = x.live ∧ (shownThrough c e x).slot = x.slot := by
  unfold shownThrough
  split <;> exact ⟨rfl, rfl⟩

theorem keepLevel_values (c : Fin 24) (x : Channel) : (keepLevel c x).live = x.live ∧ (keepLevel c x).slot = x.slot := by
  unfold keepLevel
  split <;> exact ⟨rfl, rfl⟩

/-- The live value and the slot of a channel. -/
def State.values (s : State) (c : Fin 24) : Value × Option Value := ((s.channel c).live, (s.channel c).slot)

theorem updChannel_values {f : Channel → Channel} (hf : ∀ x, (f x).live = x.live ∧ (f x).slot = x.slot) (d : Fin 24) :
    (s.updChannel d f).values c = s.values c := by
  by_cases h : d = c
  · subst h
    simp only [State.values, State.updChannel_channel_self, hf]
  · simp only [State.values, State.updChannel_channel_ne _ _ h]

theorem showFree_values (d : Fin 24) : (s.showFree d).values c = s.values c := by
  unfold State.showFree
  split
  · refine updChannel_values ?_ d
    exact fun x => ⟨rfl, rfl⟩
  · rfl

theorem openPeriod_values (d : Fin 24) (b : Value) : (s.openPeriod d b).values c = s.values c := by
  unfold State.openPeriod State.keepOutput
  rw [updChannel_values (keepLevel_values d), showFree_values]
  refine updChannel_values ?_ d
  exact fun x => ⟨rfl, rfl⟩

theorem startGenerator_values (d : Fin 24) : (State.startGenerator w s d).values c = s.values c := by
  unfold State.startGenerator
  split
  · split
    · exact openPeriod_values d _
    · refine updChannel_values ?_ d
      exact fun x => ⟨rfl, rfl⟩
  · rfl

theorem basePairChanged_values (d : Fin 24) : (s.basePairChanged w d).values c = s.values c := by
  unfold State.basePairChanged State.startRequested
  dsimp only
  split
  · refine updChannel_values ?_ d
    exact fun x => ⟨rfl, rfl⟩
  · split
    · exact startGenerator_values d
    · rfl

/-- The pairs that are taken or buffered leave the live values and the slots. -/
theorem pairsWritten_values (q : Fin 24 → Bool) (c : Fin 24) : (s.pairsWritten q).values c = s.values c := by
  refine foldl_keeps (fun u => u.values c) _ (fun u d => ?_) _ s
  unfold State.pairWritten
  split
  · exact basePairChanged_values d
  · rfl

theorem wheel_of_not_free {m : PulseMode} (h : m ≠ .free) : m = .wheel := by
  cases m with
  | free => exact absurd rfl h
  | wheel => rfl

theorem handleLiveUpdate_of_bad (h : ∃ e ∈ l, judgeEntry e = none) : handleLiveUpdate l s = refuse s .badValue := by
  simp only [handleLiveUpdate, judgeEntries_eq_none h]

theorem handleLiveUpdate_of_good (h : l.map judgeEntry = g.map some) :
    handleLiveUpdate l s = okay ((g.foldl State.applyEntry s).pairsWritten (writesLive g)) (.count l.length) := by
  have hlength : l.length = g.length := by simpa using congrArg List.length h
  simp only [handleLiveUpdate, judgeEntries_eq_some h, hlength]

/-- Settles O22. -/
theorem liveUpdateApplies : Obligations.LiveUpdateApplies := by
  refine ⟨fun e => judgeEntry_eq_none, fun e c staged v => judgeEntry_parts, fun s tag l hn hl => ?_⟩
  have hsender : (Instr.liveUpdate .M tag l).sender = some (.M, tag) := rfl
  have hwords : (l.flatMap entryWords).length ≤ 255 := by
    rw [Laws.entryWords_length]
    omega
  refine ⟨fun hbad => exec_of_refuse hsender rfl hwords rfl hn (handleLiveUpdate_of_bad hbad), fun g hg => ?_⟩
  obtain ⟨hrest, hecho, hchannel⟩ := applyEntries_spec g s
  have hexec := exec_of_okay hsender rfl hwords rfl hn (handleLiveUpdate_of_good (s := s) hg)
  generalize g.foldl State.applyEntry s = u at hrest hecho hchannel hexec
  have hfaults : u.faults = s.faults := by rw [hrest]
  have hrun : u.run = s.run := by rw [hrest]
  have hplace : u.place = s.place := by rw [hrest]
  refine ⟨u.pairsWritten (writesLive g), u.startPlace, hexec, ?_, ?_, ?_, ?_, fun c => ?_⟩
  · apply State.ext <;> simp <;> rw [hrest]
  · exact (mayOpenAt_congr hplace (by rw [hrest]) (by rw [hrest]) fun c => by rw [hchannel]; exact ⟨rfl, rfl⟩).1
      u.startPlace_allowed
  · rw [← hplace]
    exact u.pairsWritten_place _
  · rw [show (u.pairsWritten (writesLive g)).lastEcho = u.lastEcho by simp, hecho]
    cases (g.filter fun x => !x.2.1).getLast? <;> rfl
  · have hvalues := pairsWritten_values (s := u) (writesLive g) c
    obtain ⟨hlive, hslot⟩ := Prod.mk.inj hvalues
    have hwrites : writesLive g c = g.any fun x => x.1 == c && !x.2.1 := rfl
    have hkept : u.channel c = { s.channel c with
        live := ((u.pairsWritten (writesLive g)).channel c).live, slot := ((u.pairsWritten (writesLive g)).channel c).slot } := by
      rw [hlive, hslot, hchannel]
    have hsource : (u.channel c).source = (s.channel c).source := by rw [hchannel]
    have hmode : (u.channel c).mode = (s.channel c).mode := by rw [hchannel]
    have hgen : (u.channel c).gen = (s.channel c).gen := by rw [hchannel]
    have hwait : (u.channel c).wait = (s.channel c).wait := by rw [hchannel]
    refine ⟨?_, ?_, fun hg hrests => ?_, fun hg hr hc hm hs hw hv hwrote => ?_, fun hg hc hm => ?_⟩
    · rw [hlive, hchannel]
      cases (g.filter fun x => x.1 == c && !x.2.1).getLast? <;> rfl
    · rw [hslot, hchannel]
      cases (g.filter fun x => x.1 == c).getLast? <;> rfl
    · refine (pairsWritten_rests ?_).trans hkept
      rw [hlive] at hrests
      rw [hsource, hmode, hgen, hwait, hrun]
      rcases hrests with h | h | h | h | h | h | h
      · exact .inr (.inr (.inr (.inr ⟨hg, .inl h⟩)))
      · exact .inl h
      · exact .inr (.inr (.inr (.inl (wheel_of_not_free h))))
      · exact .inr (.inr (.inl h))
      · exact .inr (.inr (.inr (.inr ⟨hg, .inr (.inl h)⟩)))
      · exact .inr (.inr (.inr (.inr ⟨hg, .inr (.inr h)⟩)))
      · exact .inr (.inl h)
    · rw [hlive] at hv
      have hstart := pairsWritten_startsAt (s := u) hc (hwrites.trans hwrote) (hsource.trans hs) (hmode.trans hm)
        (by rw [hrun]; exact hr) (hgen.trans hg) (hwait.trans hw) hv
      rw [startsAt_congr hfaults] at hstart
      rw [← hkept, hlive]
      exact hstart
    · by_cases hwrote : (s.channel c).source = .live ∧ (g.any fun x => x.1 == c && !x.2.1) = true
      · have hbuffers := pairsWritten_buffers (s := u) hc (hwrites.trans hwrote.2) (hsource.trans hwrote.1)
          (hmode.trans hm) (by rw [hgen]; exact hg)
        rw [hbuffers, if_pos hwrote, hchannel]
        exact ⟨rfl, rfl⟩
      · have hrests : (u.pairsWritten (writesLive g)).channel c = u.channel c := by
          refine pairsWritten_rests ?_
          rw [hsource, hwrites]
          rcases not_and_or.1 hwrote with h | h
          · exact .inr (.inr (.inl h))
          · exact .inr (.inl (Bool.eq_false_iff.2 h))
        rw [hrests, if_neg hwrote, hchannel]
        exact ⟨rfl, rfl⟩

/-! ## O23 -/

/-- What the copies of STEP_MARK leave, one channel after the other (R29). -/
theorem copySlots_spec (l : List (Fin 24)) (hl : l.Nodup) (s : State) :
    l.foldl State.copySlot s = { s with
      channels := (l.foldl State.copySlot s).channels, lastEcho := (l.foldl State.copySlot s).lastEcho } ∧
    (l.foldl State.copySlot s).lastEcho = ((l.filter fun c => (s.channel c).slot.isSome).getLast?.map fun c =>
      some ⟨c, ((s.channel c).slot).getD {}, s.rigTime⟩).getD s.lastEcho ∧
    ∀ c, (l.foldl State.copySlot s).channel c = if c ∈ l ∧ (s.channel c).slot.isSome = true then
      { s.channel c with live := ((s.channel c).slot).getD {}, slot := none } else s.channel c := by
  induction l using List.reverseRecOn with
  | nil => exact ⟨rfl, rfl, fun c => by simp⟩
  | append_singleton l d ih =>
    have hd : d ∉ l := fun hd => (List.nodup_append.1 hl).2.2 d hd d (List.mem_singleton_self d) rfl
    obtain ⟨hrest, hecho, hchannel⟩ := ih (List.nodup_append.1 hl).1
    have htime : (l.foldl State.copySlot s).rigTime = s.rigTime := by rw [hrest]
    rw [List.foldl_append, List.foldl_cons, List.foldl_nil]
    generalize l.foldl State.copySlot s = u at hrest hecho hchannel htime
    have hsame : u.channel d = s.channel d := (hchannel d).trans (if_neg fun h => hd h.1)
    cases hslot : (s.channel d).slot with
    | none =>
      have hcopy : u.copySlot d = u := by
        unfold State.copySlot
        rw [hsame, hslot]
      rw [hcopy]
      refine ⟨hrest, by simpa [List.filter_append, hslot] using hecho, fun c => (hchannel c).trans ?_⟩
      by_cases hc : c = d
      · subst hc
        simp [hslot]
      · simp [hc]
    | some y =>
      have hcopy : u.copySlot d = u.writeLive d y := by
        unfold State.copySlot
        rw [hsame, hslot]
      rw [hcopy]
      refine ⟨?_, ?_, fun c => ?_⟩
      · rw [hrest]
        rfl
      · simp [State.writeLive, List.filter_append, htime, hslot]
      · have hwrite : (u.writeLive d y).channel c = (u.updChannel d fun ch => { ch with live := y, slot := none }).channel c := rfl
        by_cases hc : d = c
        · subst hc
          simp [hwrite, hsame, hslot]
        · simp [hwrite, hc, hchannel, Ne.symm hc]

/-- The state after the copies of STEP_MARK and before the FREE channels take them. -/
def State.copied (s : State) : State := (List.finRange 24).foldl State.copySlot s

/-- The state after STEP_MARK. -/
def State.stepMarked (s : State) : State :=
  if s.run.mode = .run then s.copySlots.updRun fun r => { r with monitor := r.monitor.mark } else s.copySlots

theorem copied_spec (s : State) : s.copied = { s with channels := s.copied.channels, lastEcho := s.copied.lastEcho } ∧
    s.copied.lastEcho = (((List.finRange 24).filter fun c => (s.channel c).slot.isSome).getLast?.map fun c =>
      some ⟨c, ((s.channel c).slot).getD {}, s.rigTime⟩).getD s.lastEcho ∧
    ∀ c, s.copied.channel c = if (s.channel c).slot.isSome = true then
      { s.channel c with live := ((s.channel c).slot).getD {}, slot := none } else s.channel c := by
  obtain ⟨hrest, hecho, hchannel⟩ := copySlots_spec (List.finRange 24) (List.nodup_finRange 24) s
  simp only [List.mem_finRange, true_and] at hchannel
  exact ⟨hrest, hecho, hchannel⟩

theorem stepMarked_channels (s : State) : s.stepMarked.channels = s.copySlots.channels ∧ s.stepMarked.place = s.copySlots.place := by
  unfold State.stepMarked
  split <;> exact ⟨rfl, rfl⟩

theorem stepMarked_run (s : State) : s.stepMarked.run =
    if s.run.mode = .run then { s.run with monitor := s.run.monitor.mark } else s.run := by
  have hrun : s.copySlots.run = s.run := by simp
  unfold State.stepMarked
  split
  · rw [← hrun]
    rfl
  · exact hrun

theorem stepMarked_rest (s : State) : s.stepMarked = { s with
    channels := s.stepMarked.channels, lastEcho := s.stepMarked.lastEcho, run := s.stepMarked.run, freeCount := s.stepMarked.freeCount,
    place := s.stepMarked.place } := by
  unfold State.stepMarked
  split <;> apply State.ext <;> simp

/-- A channel after STEP_MARK is the one that its copy leaves, once the pair has been taken. -/
theorem stepMarked_channel (s : State) (c : Fin 24) :
    s.stepMarked.channel c = (s.copied.pairsWritten fun c => (s.channel c).slot.isSome).channel c :=
  congrArg (·.get c) (stepMarked_channels s).1

theorem mark_of_counting {m : Monitor} (h : m.state = .onTime ∨ m.state = .late) :
    m.mark = { m with state := .onTime, misses := 0, timer := some (10 * m.deadline) } := by
  unfold Monitor.mark
  rcases h with h | h <;> simp [h]

theorem mark_of_resting {m : Monitor} (h : m.state = .off ∨ m.state = .lost) : m.mark = m := by
  unfold Monitor.mark
  rcases h with h | h <;> simp [h]

/-- The ramp is not held after STEP_MARK, for the monitor is not LATE in RUN (R9, R179). -/
theorem stepMarked_not_held (s : State) : s.stepMarked.rampHeld = false := by
  unfold State.rampHeld
  rw [stepMarked_run]
  by_cases hm : s.run.mode = .run
  · rw [if_pos hm]
    cases hs : s.run.monitor.state with
    | onTime => rw [mark_of_counting (.inl hs)]; simp
    | late => rw [mark_of_counting (.inr hs)]; simp
    | off => rw [mark_of_resting (.inl hs)]; simp [hs]
    | lost => rw [mark_of_resting (.inr hs)]; simp [hs]
  · simp [hm]

/-- Settles O23. -/
theorem stepMarkCopiesAndMarks : Obligations.StepMarkCopiesAndMarks := by
  intro s tag hn
  obtain ⟨hrest, hecho, hchannel⟩ := copied_spec s
  have hexec : exec (.stepMark .M tag) s = .next (s.stepMarked.answerOk .M .stepMark tag (.count s.slotCount)) :=
    exec_of_okay rfl rfl (by simp) rfl hn rfl
  have hfaults : s.copied.faults = s.faults := by rw [hrest]
  have hrun : s.copied.run = s.run := by rw [hrest]
  have hplace : s.copied.place = s.place := by rw [hrest]
  have hsame (c : Fin 24) : (s.copied.channel c).gen = (s.channel c).gen ∧ (s.copied.channel c).wait = (s.channel c).wait ∧
      (s.copied.channel c).mode = (s.channel c).mode ∧ (s.copied.channel c).source = (s.channel c).source := by
    rw [hchannel]
    split <;> exact ⟨rfl, rfl, rfl, rfl⟩
  have hmarked : s.stepMarked.place = (s.copied.pairsWritten fun c => (s.channel c).slot.isSome).place := (stepMarked_channels s).2
  refine ⟨s.stepMarked, s.copied.startPlace, hexec, stepMarked_rest s, ?_, ?_, ?_, fun c => ⟨fun hnone => ?_, fun v hv => ?_⟩,
    fun hm hs => ?_, fun hm hs => ?_, fun hm => ?_, stepMarked_not_held s⟩
  · exact (mayOpenAt_congr hplace (by rw [hrest]) (by rw [hrest]) fun c => ⟨(hsame c).1, (hsame c).2.1⟩).1
      s.copied.startPlace_allowed
  · rw [hmarked, ← hplace]
    exact s.copied.pairsWritten_place _
  · have hlast : s.stepMarked.lastEcho = s.copied.lastEcho := by
      unfold State.stepMarked
      split <;> simp [State.copySlots, State.copied]
    rw [hlast, hecho]
    cases ((List.finRange 24).filter fun c => (s.channel c).slot.isSome).getLast? <;> rfl
  · rw [stepMarked_channel, pairsWritten_rests (.inr (.inl (by rw [hnone]; rfl))), hchannel, if_neg (by simp [hnone])]
  · have hcopied : s.copied.channel c = { s.channel c with live := v, slot := none } := by
      rw [hchannel, if_pos (by simp [hv]), hv]
      rfl
    have hlive : (s.copied.channel c).live = v := by rw [hcopied]
    have hwrote : (s.channel c).slot.isSome = true := by rw [hv]; rfl
    obtain ⟨hgen, hwait, hmode, hsource⟩ := hsame c
    refine ⟨fun hrests => ?_, fun hc hm hs => ⟨fun hg => ?_, fun hg hr hw hv => ?_⟩⟩
    · rw [stepMarked_channel, ← hcopied]
      refine pairsWritten_rests ?_
      rw [hgen, hwait, hmode, hsource, hrun, hlive]
      rcases hrests with h | h | h | h
      · exact .inl h
      · exact .inr (.inr (.inr (.inl h)))
      · exact .inr (.inr (.inl h))
      · exact .inr (.inr (.inr (.inr h)))
    · rw [stepMarked_channel, pairsWritten_buffers hc hwrote (hsource.trans hs) (hmode.trans hm) (by rw [hgen]; exact hg),
        hlive, hcopied]
    · have hstart := pairsWritten_startsAt (wrote := fun c => (s.channel c).slot.isSome) hc hwrote (hsource.trans hs)
        (hmode.trans hm) (by rw [hrun]; exact hr) (hgen.trans hg) (hwait.trans hw) (by rw [hlive]; exact hv)
      rw [startsAt_congr hfaults, hlive, hcopied] at hstart
      obtain ⟨hopen, hnow, hlater⟩ := hstart
      rw [← stepMarked_channel] at hnow hlater
      exact ⟨hmarked.trans hopen, hnow, hlater⟩
  · rw [stepMarked_run, if_pos hm, mark_of_counting hs]
  · rw [stepMarked_run, if_pos hm, mark_of_resting hs]
  · rw [stepMarked_run, if_neg hm]

end Sys2Proof.Machine
end

section
/-! O26: PERIOD_START and PULSE_HIGH_END. -/

namespace Sys2Proof.Machine

variable {s t u v : State} {c d : Fin 24} {w : Nat} {e : Event} {b : Value} {g : Generator} {x : Channel}

/-- A state that differs in one channel alone. -/
theorem eq_updChannel (hrest : u = { s with channels := u.channels }) (h : ∀ d, d ≠ c → u.channel d = s.channel d) :
    u = s.updChannel c fun _ => u.channel c := by
  have hchannels : u.channels = (s.updChannel c fun _ => u.channel c).channels := by
    refine vector_ext_get fun d => ?_
    by_cases hd : d = c
    · subst hd
      exact (State.updChannel_channel_self s d fun _ => u.channel d).symm
    · exact (h d hd).trans (State.updChannel_channel_ne s _ (Ne.symm hd)).symm
  rw [hrest]
  conv_lhs => rw [hchannels]
  rfl

/-- The level that a FREE channel shows is the pin it leaves. -/
theorem shownThrough_rest (e : Option FaultRecord) (x : Channel) : shownThrough c e x =
    { x with pin := (shownThrough c e x).pin, pinHeld := (shownThrough c e x).pinHeld } := by
  unfold shownThrough
  split <;> rfl

theorem openPeriod_spec (hc : kindOf c = .pulse) (hm : (s.channel c).mode = .free) :
    ((s.openPeriod c b).channel c).buffer = none ∧
      ((s.openPeriod c b).channel c).lastOutput = ((s.openPeriod c b).channel c).pin := by
  obtain ⟨noisy, r, v, period, high, z, -, -, -, -, -, hz, hy⟩ := openPeriod_opens (b := b) hc hm
  rw [hy]
  refine ⟨?_, rfl⟩
  rw [hz, shownThrough_rest]

theorem stopGenerator_keepOutput (hc : kindOf c = .pulse) (hm : (s.channel c).mode = .free) :
    ((s.stopGenerator c).keepOutput c).channel c =
      { shownThrough c (s.effectiveRecord c) (haltGenerator (s.channel c)) with
        lastOutput := (shownThrough c (s.effectiveRecord c) (haltGenerator (s.channel c))).pin } := by
  have hmode : ((s.stopGenerator c).channel c).mode = .free := by
    rw [stopGenerator_channel, shownThrough_mode]
    exact hm
  rw [keepOutput_channel_of_free hc hmode, stopGenerator_channel]

theorem stopGenerator_channel_ne (h : c ≠ d) : (s.stopGenerator c).channel d = s.channel d := by
  rw [State.stopGenerator, showFree_channel_ne h, State.updChannel_channel_ne _ _ h]

/-! ## A generator's event between grid points (R32) -/

theorem halfTick_due (hd : s.due = []) : s.halfTick.due = s.gridEvents := by
  have hg : s.keepOutputs.gridEvents = s.gridEvents := by
    refine List.flatMap_congr fun c _ => ?_
    rw [keepOutputs_channel, keepLevel]
    split <;> rfl
  have hdue : s.keepOutputs.due = [] := by simp [hd]
  have hhalf : s.halfTick.due = s.keepOutputs.due ++ s.keepOutputs.gridEvents := by
    rw [State.halfTick, flush_of_quiet hd]
    simp only [State.countGenerators]
  rw [hhalf, hg, hdue, List.nil_append]

theorem takeGridEvent_of_quiet (hd : s.due = []) : s.takeGridEvent e =
    if s.halfDone = false ∧ e ∈ s.halfTick.due then s.halfTick.takeGridEvent e else s := by
  have hnot : e ∉ s.due := by simp [hd]
  have hreach : s.flush.reachesHalf e = true ↔ s.halfDone = false ∧ e ∈ s.halfTick.due := by
    rw [flush_of_quiet hd, halfTick_due hd]
    simp [State.reachesHalf]
  unfold State.takeGridEvent
  rw [if_neg hnot]
  by_cases h : s.halfDone = false ∧ e ∈ s.halfTick.due
  · rw [if_pos (hreach.2 h), if_pos h, if_pos h.2]
  · rw [if_neg (fun hr => h (hreach.1 hr)), if_neg h]

/-! ## O26 -/

theorem periodOver_iff : periodOver g = true ↔ g.elapsed = g.period := beq_iff_eq

theorem highOver_iff : highOver g = true ↔ g.active = true ∧ g.elapsed = g.high ∧ g.high < g.period := by
  simp [highOver, and_assoc]

theorem takePeriodStart_of_over (hg : (s.channel c).gen = some g) (hp : g.elapsed = g.period) :
    s.takePeriodStart c =
      if ((s.channel c).buffer.getD (s.channel c).ownBase).value = 0 then (s.stopGenerator c).keepOutput c
      else s.openPeriod c ((s.channel c).buffer.getD (s.channel c).ownBase) := by
  have hover : periodOver g = true := periodOver_iff.2 hp
  simp only [State.takePeriodStart, hg, hover]
  rfl

/-- A period that has elapsed: the buffered or the base pair opens the next one, or the channel stops (R32, R33). -/
theorem takePeriodStart_spec (hg : (s.channel c).gen = some g) (hp : g.elapsed = g.period) (hc : kindOf c = .pulse)
    (hm : (s.channel c).mode = .free) (hb : b = (s.channel c).buffer.getD (s.channel c).ownBase) :
    (∀ d, d ≠ c → (s.takePeriodStart c).channel d = s.channel d) ∧
    ((s.takePeriodStart c).channel c).buffer = none ∧
    ((s.takePeriodStart c).channel c).lastOutput = ((s.takePeriodStart c).channel c).pin ∧
    (b.value = 0 → ∃ z : Channel,
      z = shownThrough c (s.effectiveRecord c)
        { s.channel c with gen := none, buffer := none, wait := 0, clamped := false } ∧
      (s.takePeriodStart c).channel c = { z with lastOutput := z.pin }) ∧
    (b.value ≠ 0 → s.periodOpens c b (s.channel c) ((s.takePeriodStart c).channel c)) := by
  rw [takePeriodStart_of_over hg hp, ← hb]
  by_cases hv : b.value = 0
  · rw [if_pos hv, stopGenerator_keepOutput hc hm]
    refine ⟨fun d hd => ?_, ?_, rfl, fun _ => ⟨_, rfl, rfl⟩, fun h => absurd hv h⟩
    · rw [keepOutput_channel_ne (Ne.symm hd), stopGenerator_channel_ne (Ne.symm hd)]
    · rw [shownThrough_rest]
      rfl
  · rw [if_neg hv]
    obtain ⟨hbuffer, houtput⟩ := openPeriod_spec (b := b) hc hm
    exact ⟨fun d hd => openPeriod_channel_ne (Ne.symm hd), hbuffer, houtput, fun h => absurd h hv,
      fun _ => openPeriod_opens hc hm⟩

/-- A start that fell off the grid (R32). -/
theorem takePeriodStart_starts (hr : s.run.mode = .run) (hg : (s.channel c).gen = none) (hw : (s.channel c).wait = 0)
    (hc : kindOf c = .pulse) (hm : (s.channel c).mode = .free) :
    (∀ d, d ≠ c → (s.takePeriodStart c).channel d = s.channel d) ∧
    ((s.channel c).ownBase.value = 0 → (s.takePeriodStart c).channel c = s.channel c) ∧
    ((s.channel c).ownBase.value ≠ 0 →
      s.periodOpens c (s.channel c).ownBase (s.channel c) ((s.takePeriodStart c).channel c)) := by
  have htake : s.takePeriodStart c = s.startGenerator 0 c := by simp only [State.takePeriodStart, hg]
  rw [htake]
  by_cases hb : (s.channel c).ownBase.value = 0
  · have hstays : s.startGenerator 0 c = s := if_neg fun h => (mayStart_eq_true_iff.1 h).2.2.2.2.2 hb
    rw [hstays]
    exact ⟨fun d _ => rfl, fun _ => rfl, fun h => absurd hb h⟩
  · have hopens : s.startGenerator 0 c = s.openPeriod c (s.channel c).ownBase :=
      (if_pos (mayStart_eq_true_iff.2 ⟨hc, hm, hr, hg, hw, hb⟩)).trans (if_pos rfl)
    rw [hopens]
    exact ⟨fun d hd => openPeriod_channel_ne (Ne.symm hd), fun h => absurd h hb, fun _ => openPeriod_opens hc hm⟩

/-- The end of the high time (R32). -/
theorem takeHighEnd_spec (hg : (s.channel c).gen = some g) (h : highOver g = true) (hc : kindOf c = .pulse)
    (hm : (s.channel c).mode = .free) :
    (∀ d, d ≠ c → (s.takeHighEnd c).channel d = s.channel d) ∧
    (s.takeHighEnd c).channel c =
      { shownThrough c (s.effectiveRecord c) { s.channel c with gen := some { g with active := false } } with
        lastOutput := (shownThrough c (s.effectiveRecord c)
          { s.channel c with gen := some { g with active := false } }).pin } := by
  have htake : s.takeHighEnd c =
      ((s.updChannel c fun x => { x with gen := some { g with active := false } }).showFree c).keepOutput c := by
    simp only [State.takeHighEnd, hg, h]
    rfl
  have hshown : ((s.updChannel c fun x => { x with gen := some { g with active := false } }).showFree c).channel c =
      shownThrough c (s.effectiveRecord c) { s.channel c with gen := some { g with active := false } } := by
    rw [showFree_channel, effectiveRecord_congr (State.updChannel_faults ..), State.updChannel_channel_self]
  rw [htake]
  refine ⟨fun d hd => ?_, ?_⟩
  · rw [keepOutput_channel_ne (Ne.symm hd), showFree_channel_ne (Ne.symm hd), State.updChannel_channel_ne _ _ (Ne.symm hd)]
  · rw [keepOutput_channel_of_free hc (by rw [hshown, shownThrough_mode]; exact hm), hshown]

theorem ownBase_of_source (h : x.source ≠ .replay) : x.ownBase = if x.source = .forced then x.forced else x.live := by
  unfold Channel.ownBase
  cases hs : x.source with
  | replay => exact absurd hs h
  | live => rfl
  | forced => rfl

/-- Settles O26. -/
theorem freePeriodEvents : Obligations.FreePeriodEvents := by
  refine ⟨fun s c i e hd hi => ?_, fun s c g hdue hq hg hp hc hm => ?_, fun s c hdue hq hr hg hw hc hm hs => ?_,
    fun s c g hdue hq hg ha he hlt hc hm => ⟨_, rfl, ?_⟩⟩
  · have hexec (u : State) : exec i u = .next (u.takeGridEvent e) := by
      obtain ⟨rfl, rfl⟩ | ⟨rfl, rfl⟩ := hi
      · rfl
      · rfl
    refine ⟨fun hh => ?_, fun hh => ⟨s.halfTick, State.halfTick_spec hd, fun he => ?_, fun he => ?_⟩⟩
    · rw [hexec, takeGridEvent_of_quiet hd, if_neg (by simp [hh])]
    · rw [hexec, hexec, takeGridEvent_of_quiet hd, if_pos ⟨hh, he⟩]
    · rw [hexec, takeGridEvent_of_quiet hd, if_neg fun h => he h.2]
  · have htake : s.takeEvent (.periodStart c) = (s.took (.periodStart c)).takePeriodStart c :=
      takeEvent_of_quiet hdue hq (by simp [State.perform]) (by simp [State.perform])
    have hgrid : s.takeGridEvent (.periodStart c) = (s.took (.periodStart c)).takePeriodStart c := (if_pos hdue).trans htake
    obtain ⟨hothers, hbuffer, houtput, -⟩ := takePeriodStart_spec (s := s.took (.periodStart c)) hg hp hc hm rfl
    refine ⟨(s.took (.periodStart c)).takePeriodStart c, congrArg Host.Outcome.next hgrid, ?_, hothers, hbuffer, houtput,
      fun b hb hs => ?_⟩
    · apply State.ext <;> simp [State.took]
    · have hown : b = (s.channel c).buffer.getD (s.channel c).ownBase := by rw [hb, ownBase_of_source hs]
      obtain ⟨-, -, -, hstops, hopens⟩ := takePeriodStart_spec (s := s.took (.periodStart c)) hg hp hc hm hown
      rw [periodOpens_congr (show (s.took (.periodStart c)).faults = s.faults from rfl)] at hopens
      rw [took_effectiveRecord] at hstops
      exact ⟨hstops, hopens⟩
  · have htake : s.takeEvent (.periodStart c) = (s.took (.periodStart c)).takePeriodStart c :=
      takeEvent_of_quiet hdue hq (by simp [State.perform]) (by simp [State.perform])
    have hgrid : s.takeGridEvent (.periodStart c) = (s.took (.periodStart c)).takePeriodStart c := (if_pos hdue).trans htake
    obtain ⟨hothers, hstays, hopens⟩ := takePeriodStart_starts (s := s.took (.periodStart c)) hr hg hw hc hm
    refine ⟨(s.took (.periodStart c)).takePeriodStart c, congrArg Host.Outcome.next hgrid, ?_, hothers, fun b hb => ?_⟩
    · apply State.ext <;> simp [State.took]
    · rw [← ownBase_of_source hs] at hb
      rw [periodOpens_congr (show (s.took (.periodStart c)).faults = s.faults from rfl)] at hopens
      rw [hb]
      exact ⟨hstays, hopens⟩
  · have htake : s.takeEvent (.highEnd c) = (s.took (.highEnd c)).takeHighEnd c :=
      takeEvent_of_quiet hdue hq (by simp [State.perform]) (by simp [State.perform])
    have hgrid : s.takeGridEvent (.highEnd c) = (s.took (.highEnd c)).takeHighEnd c := (if_pos hdue).trans htake
    obtain ⟨hothers, hself⟩ := takeHighEnd_spec (s := s.took (.highEnd c)) hg (highOver_iff.2 ⟨ha, he, hlt⟩) hc hm
    have hone := eq_updChannel (u := (s.took (.highEnd c)).takeHighEnd c) (s := s.took (.highEnd c))
      (by apply State.ext <;> simp) hothers
    rw [hself, took_effectiveRecord] at hone
    exact congrArg Host.Outcome.next (hgrid.trans hone)

end Sys2Proof.Machine
end

section
/-! O24: SET_CHANNEL. -/

namespace Sys2Proof.Machine

variable {s t u v : State} {c d : Fin 24} {w : Nat} {b : Value} {g : ChannelArgs} {x : Byte} {k : ChannelKind}

/-! ## Judging the fields (R43) -/

theorem patternOf_of_code (v : BitVec 2) : patternOf v.toNat =
    if v.toNat = 3 then none else some (if v = 0 then .crank else if v = 1 then .cam0 else .cam1) := by
  revert v
  decide

theorem judgeSource_of_code (k : ChannelKind) (v : BitVec 2) : judgeSource k v =
    if v.toNat = 3 ∨ k ≠ .analog ∧ v.toNat = 2 then none
    else some (if v = 0 then .live else if v = 1 then .forced else .replay) := by
  revert v
  cases k <;> decide

/-- The checks as the model groups them, the one on the safe value of a pulse channel made twice. -/
theorem or_regroup {A B S P Q R O X Y : Prop} : ((((A ∨ B ∨ S) ∨ P) ∨ Q ∨ R) ∨ O) ∨ S ∨ X ∨ Y ↔
    A ∨ B ∨ S ∨ P ∨ Q ∨ R ∨ O ∨ X ∨ Y := by
  by_cases hs : S <;> simp [hs, or_assoc]

theorem fieldsBad_iff (k : ChannelKind) (g : ChannelArgs) : fieldsBad k g = true ↔
    (k ≠ .pulse ∧ (g.wheel.isSome ∨ g.pattern.isSome ∨ g.offset.isSome)) ∨
    (k = .analog ∧ g.inverted.isSome) ∨ (k = .pulse ∧ g.safe.isSome) ∨
    (∃ x, g.pattern = some x ∧ x.toNat = 3) ∨ (∃ x, g.source = some x ∧ x.toNat = 3) ∨
    (k ≠ .analog ∧ ∃ x, g.source = some x ∧ x.toNat = 2) ∨ (∃ x, g.offset = some x ∧ 11519 < x.toNat) ∨
    (k = .analog ∧ ∃ x, g.safe = some x ∧ 4000 < x.toNat) ∨
    (k = .switch ∧ ∃ x, g.safe = some x ∧ 1 < x.toNat) := by
  have hpattern : (g.pattern.any fun x => (patternOf x.toNat).isNone) = true ↔ ∃ x, g.pattern = some x ∧ x.toNat = 3 := by
    cases g.pattern with
    | none => simp
    | some v =>
      simp only [Option.any_some, patternOf_of_code, Option.some.injEq, exists_eq_left']
      by_cases h : v.toNat = 3 <;> simp [h]
  have hsource : (g.source.any fun x => (judgeSource k x).isNone) = true ↔
      (∃ x, g.source = some x ∧ x.toNat = 3) ∨ k ≠ .analog ∧ ∃ x, g.source = some x ∧ x.toNat = 2 := by
    cases g.source with
    | none => simp
    | some v =>
      simp only [Option.any_some, judgeSource_of_code, Option.some.injEq, exists_eq_left']
      by_cases h : v.toNat = 3 ∨ k ≠ .analog ∧ v.toNat = 2
      · rw [if_pos h]
        exact iff_of_true rfl h
      · rw [if_neg h]
        exact iff_of_false (by simp) h
  have hoffset : (g.offset.any fun x => decide (11519 < x.toNat)) = true ↔ ∃ x, g.offset = some x ∧ 11519 < x.toNat := by
    cases g.offset <;> simp
  have hsafe : g.safe.any (safeBad k) = true ↔ (k = .pulse ∧ g.safe.isSome) ∨
      (k = .analog ∧ ∃ x, g.safe = some x ∧ 4000 < x.toNat) ∨ (k = .switch ∧ ∃ x, g.safe = some x ∧ 1 < x.toNat) := by
    cases g.safe <;> cases k <;> simp [safeBad]
  have hunused : unusedField k g = true ↔ (k ≠ .pulse ∧ (g.wheel.isSome ∨ g.pattern.isSome ∨ g.offset.isSome)) ∨
      (k = .analog ∧ g.inverted.isSome) ∨ (k = .pulse ∧ g.safe.isSome) := by
    cases k <;> simp [unusedField, or_assoc]
  simp only [fieldsBad, Bool.or_eq_true, hunused, hpattern, hsource, hoffset, hsafe]
  exact or_regroup

/-! ## Writing the fields (R44) -/

/-- The record of a channel with the present fields written, field by field. -/
def writtenFields (k : ChannelKind) (g : ChannelArgs) (m : Mode) (x : Channel) : Channel :=
  { x with
    mode := (match g.wheel with | some true => .wheel | some false => .free | none => x.mode)
    offset := (match g.offset with | some v => v.toNat | none => x.offset)
    safe := (match g.safe with | some v => v.toNat | none => x.safe)
    inverted := g.inverted.getD x.inverted
    autoRestore := g.autoRestore.getD x.autoRestore
    keepOut := g.keepOut.getD x.keepOut
    pattern := (match g.pattern with
      | some v => if v = 0 then .crank else if v = 1 then .cam0 else .cam1
      | none => x.pattern)
    source := (match g.source with
      | some v => if v = 0 then .live else if v = 1 then .forced else .replay
      | none => x.source)
    driver := (if g.autoRestore.isSome = true ∧ x.driver = .tripped then
      (if m = .config then .off else .driving) else x.driver)
    pin := (if k = .pulse ∧ x.pinHeld = false ∧ g.inverted = some (!x.inverted) then 1 - x.pin else x.pin) }

theorem fields_good (h : fieldsBad k g = false) :
    (∀ v, g.pattern = some v → v.toNat ≠ 3) ∧ ∀ v, g.source = some v → v.toNat ≠ 3 ∧ (k ≠ .analog → v.toNat ≠ 2) := by
  have hnot : ¬fieldsBad k g = true := by simp [h]
  rw [fieldsBad_iff] at hnot
  refine ⟨fun v hv h3 => hnot ?_, fun v hv => ⟨fun h3 => hnot ?_, fun hk h2 => hnot ?_⟩⟩
  · exact .inr (.inr (.inr (.inl ⟨v, hv, h3⟩)))
  · exact .inr (.inr (.inr (.inr (.inl ⟨v, hv, h3⟩))))
  · exact .inr (.inr (.inr (.inr (.inr (.inl ⟨hk, v, hv, h2⟩)))))

theorem writeFields_eq (h : fieldsBad k g = false) (m : Mode) (x : Channel) :
    writeFields k g m x = writtenFields k g m x := by
  obtain ⟨hgoodPattern, hgoodSource⟩ := fields_good h
  have hmode : (g.wheel.map modeOf).getD x.mode =
      (match g.wheel with | some true => .wheel | some false => .free | none => x.mode) := by
    cases g.wheel with
    | none => rfl
    | some y => cases y <;> rfl
  have hpattern : (g.pattern.bind fun x => patternOf x.toNat).getD x.pattern =
      (match g.pattern with
        | some v => if v = 0 then .crank else if v = 1 then .cam0 else .cam1
        | none => x.pattern) := by
    cases hp : g.pattern with
    | none => rfl
    | some v => simp only [Option.bind_some, patternOf_of_code, if_neg (hgoodPattern v hp), Option.getD_some]
  have hsource : (g.source.bind (judgeSource k)).getD x.source =
      (match g.source with
        | some v => if v = 0 then .live else if v = 1 then .forced else .replay
        | none => x.source) := by
    cases hs : g.source with
    | none => rfl
    | some v =>
      obtain ⟨h3, h2⟩ := hgoodSource v hs
      have hnot : ¬(v.toNat = 3 ∨ k ≠ .analog ∧ v.toNat = 2) := by
        rintro (h | ⟨hk, h⟩)
        · exact h3 h
        · exact h2 hk h
      simp only [Option.bind_some, judgeSource_of_code, if_neg hnot, Option.getD_some]
  have hoffset : (g.offset.map BitVec.toNat).getD x.offset = (match g.offset with | some v => v.toNat | none => x.offset) := by
    cases g.offset <;> rfl
  have hsafe : (g.safe.map BitVec.toNat).getD x.safe = (match g.safe with | some v => v.toNat | none => x.safe) := by
    cases g.safe <;> rfl
  have hdriver : (if g.autoRestore.isSome then x.driver.restore m else x.driver) =
      (if g.autoRestore.isSome = true ∧ x.driver = .tripped then (if m = .config then .off else .driving) else x.driver) := by
    rw [restore_eq]
    by_cases ha : g.autoRestore.isSome = true <;> simp [ha]
  have hflips : (k == .pulse && !x.pinHeld && (g.inverted.any fun y => y != x.inverted)) = true ↔
      k = .pulse ∧ x.pinHeld = false ∧ g.inverted = some (!x.inverted) := by
    cases g.inverted with
    | none => simp
    | some y => cases y <;> cases x.inverted <;> simp
  unfold writeFields writtenFields
  simp only [hmode, hpattern, hsource, hoffset, hsafe, hdriver, hflips]

/-! ## The request, taken (R43, R44) -/

theorem armedOn_iff : s.armedOn c = true ↔
    ∃ k, (s.fault k).state = .armed ∧ (s.fault k).kind.electronic = true ∧ (s.fault k).target = c := by
  simp [State.armedOn, and_assoc]

/-- The channel after the fields are written and, where the mode is among them, the generator is stopped. -/
def State.refielded (s : State) (c : Fin 24) (g : ChannelArgs) : Channel :=
  if g.wheel.isSome then shownThrough c (s.effectiveRecord c)
    (haltGenerator (writtenFields (kindOf c) g s.run.mode (s.channel c)))
  else writtenFields (kindOf c) g s.run.mode (s.channel c)

/-- The state with the fields written, before a change of the base pair acts. -/
def State.withFields (s : State) (c : Fin 24) (g : ChannelArgs) : State :=
  s.updChannel c fun _ => s.refielded c g

/-- The state that a taken SET_CHANNEL leaves. -/
def State.channelSet (s : State) (c : Fin 24) (g : ChannelArgs) : State :=
  if (s.refielded c g).source = (s.channel c).source then s.withFields c g
  else (s.withFields c g).basePairChanged s.startPlace c

theorem withFields_channel (s : State) (c : Fin 24) (g : ChannelArgs) :
    (s.withFields c g).channel c = s.refielded c g := State.updChannel_channel_self ..

theorem withFields_eq (h : fieldsBad (kindOf c) g = false) :
    (if g.wheel.isSome then (s.updChannel c (writeFields (kindOf c) g s.run.mode)).stopGenerator c
      else s.updChannel c (writeFields (kindOf c) g s.run.mode)) = s.withFields c g := by
  have hwrite : writeFields (kindOf c) g s.run.mode = writtenFields (kindOf c) g s.run.mode :=
    funext fun x => writeFields_eq h s.run.mode x
  rw [hwrite]
  by_cases hg : g.wheel.isSome = true
  · rw [if_pos hg]
    have hself : ((s.updChannel c (writtenFields (kindOf c) g s.run.mode)).stopGenerator c).channel c = s.refielded c g := by
      rw [stopGenerator_channel, effectiveRecord_congr (State.updChannel_faults ..), State.updChannel_channel_self]
      exact (if_pos hg).symm
    rw [State.withFields, ← hself]
    refine eq_updChannel ?_ fun d hd => ?_
    · apply State.ext <;> simp
    · rw [stopGenerator_channel_ne (Ne.symm hd), State.updChannel_channel_ne _ _ (Ne.symm hd)]
  · rw [if_neg hg]
    have hself : (s.updChannel c (writtenFields (kindOf c) g s.run.mode)).channel c = s.refielded c g := by
      rw [State.updChannel_channel_self]
      exact (if_neg hg).symm
    rw [State.withFields, ← hself]
    exact eq_updChannel rfl fun d hd => State.updChannel_channel_ne _ _ (Ne.symm hd)

theorem handleSetChannel_of_taken (hx : x.toNat = c.1) (h : fieldsBad (kindOf c) g = false)
    (hfree : (g.wheel = none ∧ g.pattern = none) ∨ s.run.mode = .config ∧ s.armedOn c = false) :
    handleSetChannel x g s = okay (s.channelSet c g) (.channel ((s.channelSet c g).channel c)) := by
  have hmode : ¬((g.wheel.isSome || g.pattern.isSome) = true ∧ s.run.mode ≠ .config) := by
    rcases hfree with ⟨hw, hp⟩ | ⟨hm, -⟩
    · simp [hw, hp]
    · simp [hm]
  have harmed : ¬((g.wheel.isSome || g.pattern.isSome) = true ∧ s.armedOn c = true) := by
    rcases hfree with ⟨hw, hp⟩ | ⟨-, ha⟩
    · simp [hw, hp]
    · simp [ha]
  have hhandle : handleSetChannel x g s = (let t := s.withFields c g
      let t := if (t.channel c).source = (s.channel c).source then t else t.basePairChanged s.startPlace c
      okay t (.channel (t.channel c))) := by
    simp only [handleSetChannel, indexIn_eq_some hx, h, if_neg hmode, if_neg harmed, ← withFields_eq h]
    rfl
  rw [hhandle]
  dsimp only
  rw [withFields_channel]
  rfl

theorem handleSetChannel_of_bad (h : ∀ c : Fin 24, x.toNat = c.1 → fieldsBad (kindOf c) g = true) :
    handleSetChannel x g s = refuse s .badValue := by
  cases hi : indexIn 24 x with
  | none => simp only [handleSetChannel, hi]
  | some c =>
    simp only [handleSetChannel, hi, h c (indexIn_eq_some_iff.1 hi)]
    rfl

theorem handleSetChannel_of_held (hx : x.toNat = c.1) (h : fieldsBad (kindOf c) g = false)
    (hheld : g.wheel.isSome ∨ g.pattern.isSome) :
    (s.run.mode ≠ .config → handleSetChannel x g s = refuse s .wrongMode) ∧
    (s.run.mode = .config → s.armedOn c = true → handleSetChannel x g s = refuse s .busy) := by
  have hsome : (g.wheel.isSome || g.pattern.isSome) = true := by simpa using hheld
  refine ⟨fun hm => ?_, fun hm ha => ?_⟩
  · simp only [handleSetChannel, indexIn_eq_some hx, h]
    exact if_pos (And.intro hsome hm)
  · simp only [handleSetChannel, indexIn_eq_some hx, h]
    have hconfig : ¬((g.wheel.isSome || g.pattern.isSome) = true ∧ s.run.mode ≠ .config) := fun h => h.2 hm
    exact (if_neg hconfig).trans (if_pos (And.intro hsome ha))

theorem refielded_mode : (s.refielded c g).mode = (writtenFields (kindOf c) g s.run.mode (s.channel c)).mode ∧
    (s.refielded c g).source = (writtenFields (kindOf c) g s.run.mode (s.channel c)).source ∧
    (s.refielded c g).ownBase = (writtenFields (kindOf c) g s.run.mode (s.channel c)).ownBase := by
  unfold State.refielded
  split
  · rw [shownThrough_rest]
    exact ⟨rfl, rfl, rfl⟩
  · exact ⟨rfl, rfl, rfl⟩

/-- A pulse channel cannot come to the source REPLAY (R43). -/
theorem writtenFields_source (h : fieldsBad (kindOf c) g = false) (hc : kindOf c = .pulse)
    (hs : (writtenFields (kindOf c) g s.run.mode (s.channel c)).source ≠ (s.channel c).source) :
    (writtenFields (kindOf c) g s.run.mode (s.channel c)).source ≠ .replay := by
  obtain ⟨-, hgood⟩ := fields_good h
  unfold writtenFields at hs ⊢
  dsimp only at hs ⊢
  cases hg : g.source with
  | none =>
    rw [hg] at hs
    exact absurd rfl hs
  | some v =>
    obtain ⟨h3, h2⟩ := hgood v hg
    have hcodes : ∀ v : BitVec 2, v.toNat ≠ 3 → v.toNat ≠ 2 →
        (if v = 0 then BaseSource.live else if v = 1 then .forced else .replay) ≠ .replay := by decide
    exact hcodes v h3 (h2 (by rw [hc]; decide))

/-- What a change of the base source does to the channel that has it (R33). -/
theorem channelSet_spec (h : fieldsBad (kindOf c) g = false) (b : Value)
    (hb : b = if (s.refielded c g).source = .forced then (s.refielded c g).forced else (s.refielded c g).live) :
    (kindOf c ≠ .pulse ∨ (s.refielded c g).source = (s.channel c).source ∨ (s.refielded c g).mode = .wheel ∨
        ((s.refielded c g).gen = none ∧ (s.run.mode ≠ .run ∨ 0 < (s.refielded c g).wait ∨ b.value = 0)) →
      s.channelSet c g = s.updChannel c fun _ => s.refielded c g) ∧
    (kindOf c = .pulse → (s.refielded c g).source ≠ (s.channel c).source → (s.refielded c g).mode = .free →
      ((s.refielded c g).gen.isSome = true →
        s.channelSet c g = s.updChannel c fun _ => { s.refielded c g with buffer := some b }) ∧
      ((s.refielded c g).gen = none → s.run.mode = .run → (s.refielded c g).wait = 0 → b.value ≠ 0 →
        s.channelSet c g = { s with channels := (s.channelSet c g).channels, freeCount := (s.channelSet c g).freeCount,
                                    place := (s.channelSet c g).place } ∧
        (∀ d, d ≠ c → (s.channelSet c g).channel d = s.channel d) ∧
        ∃ w, s.mayOpenAt w ∧ s.startsAt (s.channelSet c g) c b (s.refielded c g) w)) := by
  have hchannel : (s.withFields c g).channel c = s.refielded c g := withFields_channel s c g
  have hrun : (s.withFields c g).run = s.run := rfl
  have hown (hc : kindOf c = .pulse) (hs : (s.refielded c g).source ≠ (s.channel c).source) :
      ((s.withFields c g).channel c).ownBase = b := by
    have hreplay : (s.refielded c g).source ≠ .replay := by
      rw [refielded_mode.2.1] at hs ⊢
      exact writtenFields_source h hc hs
    rw [hchannel, ownBase_of_source hreplay, hb]
  refine ⟨fun hrests => ?_, fun hc hs hm => ⟨fun hg => ?_, fun hg hr hw hv => ?_⟩⟩
  · by_cases hs : (s.refielded c g).source = (s.channel c).source
    · exact if_pos hs
    · refine (if_neg hs).trans (basePairChanged_of_resting ?_)
      rw [hchannel, hrun]
      rcases hrests with hk | hsame | hm | ⟨hg, hrest⟩
      · exact .inl hk
      · exact absurd hsame hs
      · exact .inr (.inl hm)
      · by_cases hc : kindOf c = .pulse
        · rw [← hchannel, hown hc hs, hchannel]
          exact .inr (.inr ⟨hg, hrest⟩)
        · exact .inl hc
  · refine (if_neg hs).trans ((basePairChanged_of_running hc (by rw [hchannel]; exact hm) (by rw [hchannel]; exact hg)).trans ?_)
    have hself : ((s.withFields c g).updChannel c fun y => { y with buffer := some y.ownBase }).channel c =
        { s.refielded c g with buffer := some b } := by
      rw [State.updChannel_channel_self, hown hc hs, hchannel]
    rw [← hself]
    exact eq_updChannel rfl fun d hd => by
      rw [State.updChannel_channel_ne _ _ (Ne.symm hd), State.withFields, State.updChannel_channel_ne _ _ (Ne.symm hd)]
  · have hmay : (s.withFields c g).mayStart c = true := by
      rw [mayStart_eq_true_iff, hown hc hs, hchannel]
      exact ⟨hc, hm, hr, hg, hw, hv⟩
    have hset : s.channelSet c g = (s.withFields c g).startRequested s.startPlace c :=
      (if_neg hs).trans (basePairChanged_of_mayStart hmay)
    have hstart := startRequested_startsAt (w := s.startPlace) hmay
    rw [hown hc hs, hchannel, startsAt_congr (show (s.withFields c g).faults = s.faults from rfl), ← hset] at hstart
    refine ⟨?_, fun d hd => ?_, s.startPlace, s.startPlace_allowed, hstart⟩
    · rw [hset]
      apply State.ext <;> simp [State.withFields]
    · rw [hset, startRequested_channel_ne _ _ _ (Ne.symm hd), State.withFields, State.updChannel_channel_ne _ _ (Ne.symm hd)]

/-- Settles O24. -/
theorem setChannelWritesFields : Obligations.SetChannelWritesFields := by
  have hwords (x : Byte) (g : ChannelArgs) : (channelWords x g).length ≤ 255 := by simp [channelWords]
  have hrefuse {s : State} {x tag : Byte} {g : ChannelArgs} {code : Status} (hn : s.takesNow .B = true)
      (h : handleSetChannel x g s = refuse s code) :
      exec (.setChannel .B tag x g) s = .next (s.answerNo .B .setChannel tag code) :=
    exec_of_refuse (i := .setChannel .B tag x g) rfl rfl (hwords x g) rfl hn h
  refine ⟨fun s tag x g hn hx => hrefuse hn (handleSetChannel_of_bad fun c hc => absurd c.2 (by omega)),
    fieldsBad_iff, fun s tag x c g hn hx => ⟨fun hbad => hrefuse hn (handleSetChannel_of_bad fun d hd => ?_),
      fun hgood hheld hm => hrefuse hn ((handleSetChannel_of_held hx hgood hheld).1 hm),
      fun hgood hheld hm ha => hrefuse hn ((handleSetChannel_of_held hx hgood hheld).2 hm (armedOn_iff.2 ha)),
      fun hgood hfree => ?_⟩⟩
  · have hcd : d = c := Fin.ext (hd.symm.trans hx)
    rw [hcd]
    exact hbad
  · have hfree' : (g.wheel = none ∧ g.pattern = none) ∨ s.run.mode = .config ∧ s.armedOn c = false := by
      refine hfree.imp_right fun ⟨hm, hk⟩ => ⟨hm, ?_⟩
      rw [← Bool.not_eq_true, armedOn_iff]
      rintro ⟨k, hk'⟩
      exact hk k hk'
    have hexec : exec (.setChannel .B tag x g) s = .next ((s.channelSet c g).answerOk .B .setChannel tag
        (.channel ((s.channelSet c g).channel c))) :=
      exec_of_okay (i := .setChannel .B tag x g) rfl rfl (hwords x g) rfl hn (handleSetChannel_of_taken hx hgood hfree')
    obtain ⟨hmode, hsource, -⟩ := refielded_mode (s := s) (c := c) (g := g)
    have hvalues : (s.refielded c g).forced = (writtenFields (kindOf c) g s.run.mode (s.channel c)).forced ∧
        (s.refielded c g).live = (writtenFields (kindOf c) g s.run.mode (s.channel c)).live := by
      unfold State.refielded
      split
      · rw [shownThrough_rest]
        exact ⟨rfl, rfl⟩
      · exact ⟨rfl, rfl⟩
    obtain ⟨hrests, hchanges⟩ := channelSet_spec hgood _ rfl
    rw [hmode, hsource, hvalues.1, hvalues.2] at hrests hchanges
    exact ⟨writtenFields (kindOf c) g s.run.mode (s.channel c), s.refielded c g, _, s.channelSet c g, hexec, rfl, rfl, rfl,
      hrests, hchanges⟩

end Sys2Proof.Machine
end

section
/-! O25: FORCE. -/

namespace Sys2Proof.Machine

variable {s t u v : State} {c d : Fin 24} {w : Nat} {b : Value} {x : BitVec 6} {aux : BitVec 24} {y : Word} {e : Option FaultRecord}
  {r : Half} {tag : Byte}

/-! ## The request, taken -/

/-- The forced value written (R31). -/
def State.withForced (s : State) (c : Fin 24) (b : Value) : State := s.updChannel c fun ch => { ch with forced := b }

theorem withForced_channel (s : State) (c : Fin 24) (b : Value) :
    (s.withForced c b).channel c = { s.channel c with forced := b } := State.updChannel_channel_self ..

theorem withForced_effectiveRecord (s : State) (c : Fin 24) (b : Value) :
    (s.withForced c b).effectiveRecord = s.effectiveRecord := effectiveRecord_congr rfl

theorem handleForce_of_bad (h : ∀ c : Fin 24, x.toNat = c.1 → valueGood (kindOf c) y.toInt = false) :
    handleForce x aux y s = refuse s .badValue := by
  cases hi : indexIn 24 x with
  | none => simp only [handleForce, hi]
  | some c =>
    simp only [handleForce, hi, h c (indexIn_eq_some_iff.1 hi)]
    rfl

theorem handleForce_of_wrongSource (hx : x.toNat = c.1) (hg : valueGood (kindOf c) y.toInt = true)
    (hs : (s.channel c).source ≠ .forced) : handleForce x aux y s = refuse s .wrongState := by
  simp only [handleForce, indexIn_eq_some hx, hg]
  exact (if_neg (by decide)).trans (if_pos hs)

theorem handleForce_of_taken (hx : x.toNat = c.1) (hg : valueGood (kindOf c) y.toInt = true)
    (hs : (s.channel c).source = .forced) (hb : storedValue (kindOf c) y.toInt aux.toNat = b) :
    handleForce x aux y s = okay ((if (s.withForced c b).needsDraw c then (s.withForced c b).useFree
        else s.withForced c b).basePairChanged s.startPlace c)
      (.forced (s.outputBefore c) ((s.withForced c b).outputAfter c).1 ((s.withForced c b).outputAfter c).2) := by
  simp only [handleForce, indexIn_eq_some hx, hg, hb]
  exact (if_neg (by decide)).trans (if_neg (not_not.2 hs))

theorem exec_force_of_okay {q : Body} (hn : s.takesNow .B = true) (h : handleForce x aux y s = okay u q) :
    exec (.force .B tag x aux y) s = .next (u.answerOk .B .force tag q) :=
  exec_of_okay (i := .force .B tag x aux y) rfl rfl (by simp) rfl hn h

/-! ## The outputs of an analog or a switch channel -/

theorem needsDraw_iff : s.needsDraw c = true ↔
    kindOf c = .analog ∧ (s.effectiveRecord c).any (fun f => f.kind == .noise) = true ∧ (s.channel c).drawn = false := by
  simp [State.needsDraw, drawsNoise_eq, and_assoc]

theorem enteringValue_forced (hs : (s.channel c).source = .forced) : (s.withForced c b).enteringValue c =
    if s.run.mode = .safe then ((s.channel c).safe : Int) else b.value := by
  have hsource : ((s.withForced c b).channel c).source = .forced := by
    rw [withForced_channel]
    exact hs
  unfold State.enteringValue
  rw [(baseValue_of_source c).2.1 hsource, withForced_channel]
  rfl

/-- The value of an analog or a switch channel beneath its clamp, with the draw `r` and the entering value `b`. -/
def State.overlaid (s : State) (c : Fin 24) (r : Half) (b : Int) : Int :=
  if kindOf c = .analog then analogOverlay (s.effectiveRecord c) r b else switchOverlay (s.effectiveRecord c) b

theorem outputAfter_of_level (hc : kindOf c ≠ .pulse) : s.outputAfter c =
    (.level (if kindOf c = .analog then (clampInt 0 4000 (s.overlaid c (s.lastDraw c) (s.enteringValue c))).toNat
        else (s.overlaid c (s.lastDraw c) (s.enteringValue c)).toNat),
      decide (kindOf c = .analog ∧ (s.overlaid c (s.lastDraw c) (s.enteringValue c) < 0 ∨
        4000 < s.overlaid c (s.lastDraw c) (s.enteringValue c)))) := by
  cases hk : kindOf c with
  | pulse => exact absurd hk hc
  | analog => simp [State.outputAfter, State.overlaid, hk]
  | switch => simp [State.outputAfter, State.overlaid, hk]

theorem overlaid_congr (h : u.faults = s.faults) : u.overlaid = s.overlaid := by
  simp only [funext_iff, State.overlaid, effectiveRecord_congr h, implies_true]

theorem outputBefore_of_level (h : kindOf c ≠ .pulse ∨ (s.channel c).mode = .wheel) :
    s.outputBefore c = .level (s.channel c).lastOutput := by
  cases hc : kindOf c with
  | pulse =>
    have hm := h.resolve_left fun hne => hne hc
    simp only [State.outputBefore, hc, hm]
  | analog => simp only [State.outputBefore, hc]
  | switch => simp only [State.outputBefore, hc]

/-- FORCE of an analog or a switch channel (R31). -/
theorem force_level (hn : s.takesNow .B = true) (hx : x.toNat = c.1) (hg : valueGood (kindOf c) y.toInt = true)
    (hs : (s.channel c).source = .forced) (hc : kindOf c ≠ .pulse) :
    ∃ (noisy : Bool) (r : Half) (b w : Int) (u : State),
      noisy = (s.effectiveRecord c).any (fun f => f.kind == .noise) ∧
      (noisy = true → (s.channel c).drawn = true → r = (s.channel c).noise) ∧
      b = (if s.run.mode = .safe then ((s.channel c).safe : Int) else y.toInt) ∧
      w = (if kindOf c = .analog then analogOverlay (s.effectiveRecord c) r b
        else switchOverlay (s.effectiveRecord c) b) ∧
      u = (if kindOf c = .analog ∧ noisy = true ∧ (s.channel c).drawn = false then
        { s with freeCount := s.freeCount + 1 } else s) ∧
      exec (.force .B tag x aux y) s =
        .next ((u.updChannel c fun ch => { ch with forced := ⟨y.toInt, 0⟩ }).answerOk .B .force tag
          (.forced (.level (s.channel c).lastOutput)
            (.level (if kindOf c = .analog then (clampInt 0 4000 w).toNat else w.toNat))
            (decide (kindOf c = .analog ∧ (w < 0 ∨ 4000 < w))))) := by
  have hstored : storedValue (kindOf c) y.toInt aux.toNat = ⟨y.toInt, 0⟩ := by
    cases hk : kindOf c with
    | pulse => exact absurd hk hc
    | analog => rfl
    | switch => rfl
  have hentering := enteringValue_forced (s := s) (b := ⟨y.toInt, 0⟩) hs
  have hafter := outputAfter_of_level (s := s.withForced c ⟨y.toInt, 0⟩) hc
  rw [hentering, overlaid_congr (show (s.withForced c ⟨y.toInt, 0⟩).faults = s.faults from rfl)] at hafter
  have hneeds : (s.withForced c ⟨y.toInt, 0⟩).needsDraw c = true ↔ kindOf c = .analog ∧
      (s.effectiveRecord c).any (fun f => f.kind == .noise) = true ∧ (s.channel c).drawn = false := by
    rw [needsDraw_iff, withForced_effectiveRecord, withForced_channel]
  have hdraw : (s.channel c).drawn = true → (s.withForced c ⟨y.toInt, 0⟩).lastDraw c = (s.channel c).noise := by
    intro hd
    unfold State.lastDraw
    rw [withForced_channel]
    exact if_pos hd
  refine ⟨_, (s.withForced c ⟨y.toInt, 0⟩).lastDraw c, _, _, _, rfl, fun _ => hdraw, rfl, rfl, rfl, ?_⟩
  rw [exec_force_of_okay hn (handleForce_of_taken hx hg hs hstored), hafter, outputBefore_of_level (.inl hc),
    basePairChanged_of_resting (.inl hc)]
  by_cases h : (s.withForced c ⟨y.toInt, 0⟩).needsDraw c = true
  · rw [if_pos h, if_pos (hneeds.1 h)]
    rfl
  · rw [if_neg h, if_neg fun h' => h (hneeds.2 h')]
    rfl

/-! ## The outputs of a pulse channel -/

theorem effectivePair_spec (e : Option FaultRecord) (r : Half) (b : Value) : ∃ (p : Int) (period high : Nat),
    p = periodOverlay e r b.value ∧ (period : Int) = clampInt 20 16777215 p ∧ high = min b.aux period ∧
    effectivePair e r b = (period, high, decide (p ≠ period ∨ high ≠ b.aux)) :=
  ⟨_, _, _, rfl, Int.toNat_of_nonneg (le_trans (by decide) (le_max_left _ _)), rfl,
    by simp only [effectivePair, Bool.decide_or]⟩

theorem outputAfter_of_free (hc : kindOf c = .pulse) (hm : (s.channel c).mode = .free) : s.outputAfter c =
    (if (s.channel c).forced.value = 0 then .stopped
      else .pair (effectivePair (s.effectiveRecord c) (s.nextNoise c) (s.channel c).forced).1
        (effectivePair (s.effectiveRecord c) (s.nextNoise c) (s.channel c).forced).2.1,
      decide ((s.channel c).forced.value ≠ 0) &&
        (effectivePair (s.effectiveRecord c) (s.nextNoise c) (s.channel c).forced).2.2) := by
  simp only [State.outputAfter, hc, hm]
  split
  next h => simp [h]
  next h => simp [h]

theorem outputAfter_of_wheel (hc : kindOf c = .pulse) (hm : (s.channel c).mode = .wheel) :
    s.outputAfter c = (.level (s.channel c).lastOutput, false) := by
  simp only [State.outputAfter, hc, hm]

theorem outputBefore_of_free (hc : kindOf c = .pulse) (hm : (s.channel c).mode = .free) :
    s.outputBefore c = genView (s.channel c).gen := by
  simp only [State.outputBefore, hc, hm]

theorem nextNoise_eq : s.nextNoise c = if (s.effectiveRecord c).any (fun f => f.kind == .noise) then
    noiseNext (s.channel c).noise else (s.channel c).noise := by
  rw [State.nextNoise, drawsNoise_eq]

/-- FORCE of a pulse channel draws nothing free. -/
theorem handleForce_of_pulse (hx : x.toNat = c.1) (hg : valueGood .pulse y.toInt = true)
    (hs : (s.channel c).source = .forced) (hc : kindOf c = .pulse) :
    handleForce x aux y s = okay ((s.withForced c ⟨y.toInt, aux.toNat⟩).basePairChanged s.startPlace c)
      (.forced (s.outputBefore c) ((s.withForced c ⟨y.toInt, aux.toNat⟩).outputAfter c).1
        ((s.withForced c ⟨y.toInt, aux.toNat⟩).outputAfter c).2) := by
  have hneeds : ¬(s.withForced c ⟨y.toInt, aux.toNat⟩).needsDraw c = true := by
    rw [needsDraw_iff, hc]
    exact fun h => nomatch h.1
  have htaken := handleForce_of_taken (aux := aux) (b := ⟨y.toInt, aux.toNat⟩) hx (by rw [hc]; exact hg) hs (by rw [hc]; rfl)
  rw [if_neg hneeds] at htaken
  exact htaken

theorem updChannel_updChannel (s : State) (c : Fin 24) (f g : Channel → Channel) :
    (s.updChannel c f).updChannel c g = s.updChannel c fun x => g (f x) := by
  unfold State.updChannel
  rw [updV_updV]

theorem updChannel_congr {f g : Channel → Channel} (h : f (s.channel c) = g (s.channel c)) :
    s.updChannel c f = s.updChannel c g := by
  unfold State.updChannel
  rw [updV_congr h]

/-- The state a FORCE leaves of a FREE channel (R33). -/
theorem forcedPair_changes (hs : (s.channel c).source = .forced) (hc : kindOf c = .pulse)
    (hm : (s.channel c).mode = .free) :
    ((s.channel c).gen.isSome = true → (s.withForced c b).basePairChanged w c =
      s.updChannel c fun ch => { ch with forced := b, buffer := some b }) ∧
    ((s.channel c).gen = none → (s.run.mode ≠ .run ∨ 0 < (s.channel c).wait ∨ b.value = 0) →
      (s.withForced c b).basePairChanged w c = s.withForced c b) ∧
    ((s.channel c).gen = none → s.run.mode = .run → (s.channel c).wait = 0 → b.value ≠ 0 →
      (s.withForced c b).basePairChanged w c = { s with
        channels := ((s.withForced c b).basePairChanged w c).channels
        freeCount := ((s.withForced c b).basePairChanged w c).freeCount
        place := ((s.withForced c b).basePairChanged w c).place } ∧
      (∀ d, d ≠ c → ((s.withForced c b).basePairChanged w c).channel d = s.channel d) ∧
      s.startsAt ((s.withForced c b).basePairChanged w c) c b { s.channel c with forced := b } w) := by
  have hchannel := withForced_channel s c b
  have hown : ((s.withForced c b).channel c).ownBase = b := by
    rw [hchannel]
    simp [Channel.ownBase, hs]
  refine ⟨fun hg => ?_, fun hg hrests => ?_, fun hg hr hw hv => ?_⟩
  · rw [basePairChanged_of_running hc (by rw [hchannel]; exact hm) (by rw [hchannel]; exact hg)]
    have hbuffer : (s.withForced c b).updChannel c (fun y => { y with buffer := some y.ownBase }) =
        (s.withForced c b).updChannel c fun y => { y with buffer := some b } :=
      updChannel_congr (by simp only [hown])
    rw [hbuffer]
    exact updChannel_updChannel ..
  · refine basePairChanged_of_resting (.inr (.inr ⟨?_, ?_⟩))
    · rw [hchannel]
      exact hg
    · rw [hown, hchannel]
      exact hrests
  · have hmay : (s.withForced c b).mayStart c = true := by
      rw [mayStart_eq_true_iff, hown, hchannel]
      exact ⟨hc, hm, hr, hg, hw, hv⟩
    have hstart := startRequested_startsAt (w := w) hmay
    rw [hown, hchannel, startsAt_congr (show (s.withForced c b).faults = s.faults from rfl)] at hstart
    rw [basePairChanged_of_mayStart hmay]
    refine ⟨?_, fun d hd => ?_, hstart⟩
    · apply State.ext <;> simp [State.withForced]
    · rw [startRequested_channel_ne _ _ _ (Ne.symm hd), State.withForced, State.updChannel_channel_ne _ _ (Ne.symm hd)]

/-- Settles O25. -/
theorem forceShowsOutputs : Obligations.ForceShowsOutputs := by
  have hrefuse {s : State} {x : BitVec 6} {aux : BitVec 24} {y : Word} {tag : Byte} {code : Status} (hn : s.takesNow .B = true)
      (h : handleForce x aux y s = refuse s code) :
      exec (.force .B tag x aux y) s = .next (s.answerNo .B .force tag code) :=
    exec_of_refuse (i := .force .B tag x aux y) rfl rfl (by simp) rfl hn h
  refine ⟨fun s tag x aux v hn => ⟨fun hx => hrefuse hn (handleForce_of_bad fun c hc => absurd c.2 (by omega)), fun c hx =>
      ⟨fun hbad => hrefuse hn (handleForce_of_bad fun d hd => ?_),
        fun hg hs => hrefuse hn (handleForce_of_wrongSource hx hg hs)⟩⟩,
    fun s tag x aux v c hn hx hg hs hc => force_level hn hx hg hs hc,
    fun s tag x aux v c hn hx hg hs hc hm => ?_, fun s tag x aux v c hn hx hg hs hc hm => ?_⟩
  · have hcd : d = c := Fin.ext (hd.symm.trans hx)
    rw [hcd]
    exact valueGood_eq_false.2 hbad
  · have hexec := exec_force_of_okay (tag := tag) hn (handleForce_of_pulse (aux := aux) hx hg hs hc)
    have hafter := outputAfter_of_free (s := s.withForced c ⟨v.toInt, aux.toNat⟩) hc (by rw [withForced_channel]; exact hm)
    have hnoise : (s.withForced c ⟨v.toInt, aux.toNat⟩).nextNoise c = s.nextNoise c := by
      rw [State.nextNoise, withForced_effectiveRecord, withForced_channel]
      rfl
    obtain ⟨p, period, high, hp, hperiod, hhigh, hpair⟩ :=
      effectivePair_spec (s.effectiveRecord c) (s.nextNoise c) ⟨v.toInt, aux.toNat⟩
    rw [withForced_effectiveRecord, withForced_channel, hnoise, hpair] at hafter
    rw [hafter, outputBefore_of_free hc hm] at hexec
    obtain ⟨hruns, hrests, hstarts⟩ := forcedPair_changes (b := ⟨v.toInt, aux.toNat⟩) (w := s.startPlace) hs hc hm
    refine ⟨⟨v.toInt, aux.toNat⟩, s.nextNoise c, p, period, high, _, _, rfl, nextNoise_eq, hp, hperiod, hhigh, rfl,
      (Bool.decide_and (v.toInt ≠ 0) (p ≠ period ∨ high ≠ aux.toNat)).symm, fun g hgen => ?_, fun hgen hrest => ?_,
      fun hgen hr hw hv => ?_⟩
    · rw [hruns (by rw [hgen]; rfl), hgen] at hexec
      exact hexec
    · rw [hrests hgen hrest, hgen] at hexec
      exact hexec
    · obtain ⟨hrest, hothers, hstart⟩ := hstarts hgen hr hw hv
      rw [hgen] at hexec
      exact ⟨_, s.startPlace, hexec, hrest, hothers, s.startPlace_allowed, hstart⟩
  · have hexec := exec_force_of_okay (tag := tag) hn (handleForce_of_pulse (aux := aux) hx hg hs hc)
    have hafter := outputAfter_of_wheel (s := s.withForced c ⟨v.toInt, aux.toNat⟩) hc (by rw [withForced_channel]; exact hm)
    rw [withForced_channel] at hafter
    rw [hexec, hafter, outputBefore_of_level (.inr hm),
      basePairChanged_of_resting (.inr (.inl (by rw [withForced_channel]; exact hm)))]
    rfl

end Sys2Proof.Machine
end

section
/-! O45: CAPTURE_EDGE_REPORT. -/

namespace Sys2Proof.Machine

variable {s t u v : State} {i j : Fin 16} {k : Fin 64} {l rise : Bool} {st : Stamp} {r : FaultRecord} {e : Event} {run : Bool}

/-! ## One record at an edge (R82, R85, R88) -/

theorem triggerEdge_eq_some {n : Nat} : r.triggerEdge i rise = some n ↔
    ∃ d, r.trigger = .onCapture i d n ∧ d.selects rise = true := by
  unfold FaultRecord.triggerEdge
  cases r.trigger with
  | onCapture j d m =>
    by_cases h : j = i ∧ d.selects rise = true
    · obtain ⟨rfl, hd⟩ := h
      simp [hd]
    · dsimp only
      rw [if_neg h]
      refine iff_of_false (by simp) ?_
      rintro ⟨d', heq, hd⟩
      obtain ⟨rfl, rfl, rfl⟩ := Trigger.onCapture.inj heq
      exact h ⟨rfl, hd⟩
  | atTime x => simp
  | atAngle c a => simp
  | onFault k e => simp

theorem durationEdge_eq_some {n : Nat} : r.durationEdge i rise = some n ↔
    ∃ d, r.duration = .capture i d n ∧ d.selects rise = true := by
  unfold FaultRecord.durationEdge
  cases r.duration with
  | capture j d m =>
    by_cases h : j = i ∧ d.selects rise = true
    · obtain ⟨rfl, hd⟩ := h
      simp [hd]
    · dsimp only
      rw [if_neg h]
      refine iff_of_false (by simp) ?_
      rintro ⟨d', heq, hd⟩
      obtain ⟨rfl, rfl, rfl⟩ := Duration.capture.inj heq
      exact h ⟨rfl, hd⟩
  | untilRelease => simp
  | time n => simp
  | angle n => simp
  | cycles n => simp

theorem edgeRecord_of_trigger {n : Nat} (hf : r.fresh = false) (ha : r.state = .armed) (ht : r.triggerEdge i rise = some n) :
    edgeRecord run i rise r = if run = true ∧ r.trigProgress < n then { r with trigProgress := r.trigProgress + 1 } else r := by
  simp only [edgeRecord, hf, ha, ht]
  rfl

theorem edgeRecord_of_duration {n : Nat} (hf : r.fresh = false) (ha : r.state = .active)
    (hd : r.durationEdge i rise = some n) : edgeRecord run i rise r = { r with durProgress := r.durProgress + 1 } := by
  simp only [edgeRecord, hf, ha, hd]
  rfl

/-- A record that the edge does not count toward. -/
theorem edgeRecord_of_other (h : r.fresh = true ∨ (r.state ≠ .armed ∧ r.state ≠ .active) ∨
      (r.state = .armed ∧ r.triggerEdge i rise = none) ∨ (r.state = .active ∧ r.durationEdge i rise = none)) :
    edgeRecord run i rise r = r := by
  unfold edgeRecord
  rcases h with h | ⟨ha, hb⟩ | ⟨ha, ht⟩ | ⟨ha, hd⟩
  · rw [if_pos h]
  · simp [ha, hb]
  · simp [ha, ht]
  · simp [ha, hd]

theorem edgeRecord_cases (run : Bool) (i : Fin 16) (rise : Bool) (r : FaultRecord) :
    (∃ n, r.fresh = false ∧ r.state = .armed ∧ run = true ∧ r.triggerEdge i rise = some n ∧ r.trigProgress < n ∧
      edgeRecord run i rise r = { r with trigProgress := r.trigProgress + 1 }) ∨
    (∃ n, r.fresh = false ∧ r.state = .active ∧ r.durationEdge i rise = some n ∧
      edgeRecord run i rise r = { r with durProgress := r.durProgress + 1 }) ∨
    edgeRecord run i rise r = r := by
  by_cases hfresh : r.fresh = true
  · exact .inr (.inr (edgeRecord_of_other (.inl hfresh)))
  · have hf : r.fresh = false := Bool.eq_false_iff.2 hfresh
    by_cases ha : r.state = .armed
    · cases ht : r.triggerEdge i rise with
      | none => exact .inr (.inr (edgeRecord_of_other (.inr (.inr (.inl ⟨ha, ht⟩)))))
      | some n =>
        have hone := edgeRecord_of_trigger (run := run) hf ha ht
        by_cases hn : run = true ∧ r.trigProgress < n
        · rw [if_pos hn] at hone
          exact .inl ⟨n, hf, ha, hn.1, rfl, hn.2, hone⟩
        · rw [if_neg hn] at hone
          exact .inr (.inr hone)
    · by_cases hb : r.state = .active
      · cases hd : r.durationEdge i rise with
        | none => exact .inr (.inr (edgeRecord_of_other (.inr (.inr (.inr ⟨hb, hd⟩)))))
        | some n => exact .inr (.inl ⟨n, hf, hb, rfl, edgeRecord_of_duration hf hb hd⟩)
      · exact .inr (.inr (edgeRecord_of_other (.inr (.inl ⟨ha, hb⟩))))

theorem captureReady_of_trigger {d : EdgeSel} {n : Nat} (h : r.trigger = .onCapture i d n) :
    captureReady r = true ↔ r.state = .armed ∧ r.fresh = false ∧ r.trigProgress = n := by
  simp [captureReady, h, and_assoc]

/-- An edge completes a trigger exactly where it is the last that its count needs. -/
theorem edge_completes_trigger : ((r.triggerEdge i rise).isSome && run && captureReady (edgeRecord run i rise r) &&
      !captureReady r) = true ↔
    r.fresh = false ∧ r.state = .armed ∧ run = true ∧
      ∃ d n, r.trigger = .onCapture i d n ∧ d.selects rise = true ∧ r.trigProgress + 1 = n := by
  rw [Bool.and_eq_true, Bool.and_eq_true, Bool.and_eq_true, Bool.not_eq_true']
  constructor
  · rintro ⟨⟨⟨hsome, hrun⟩, hready⟩, hnot⟩
    rcases edgeRecord_cases run i rise r with ⟨n, hf, ha, hr, ht, hlt, heq⟩ | ⟨n, hf, hb, hd, heq⟩ | heq
    · obtain ⟨d, htrigger, hsel⟩ := triggerEdge_eq_some.1 ht
      rw [heq] at hready
      obtain ⟨-, -, hn⟩ := (captureReady_of_trigger (r := { r with trigProgress := r.trigProgress + 1 }) htrigger).1 hready
      exact ⟨hf, ha, hr, d, n, htrigger, hsel, hn⟩
    · obtain ⟨n', ht⟩ := Option.isSome_iff_exists.1 hsome
      obtain ⟨d, htrigger, hsel⟩ := triggerEdge_eq_some.1 ht
      rw [heq] at hready
      obtain ⟨ha, -⟩ := (captureReady_of_trigger (r := { r with durProgress := r.durProgress + 1 }) htrigger).1 hready
      exact absurd (hb.symm.trans ha) (by decide)
    · rw [heq, hnot] at hready
      cases hready
  · rintro ⟨hf, ha, hr, d, n, htrigger, hsel, hn⟩
    have ht : r.triggerEdge i rise = some n := triggerEdge_eq_some.2 ⟨d, htrigger, hsel⟩
    have heq := edgeRecord_of_trigger (run := run) hf ha ht
    rw [if_pos ⟨hr, by omega⟩] at heq
    refine ⟨⟨⟨by simp [ht], hr⟩, ?_⟩, ?_⟩
    · rw [heq]
      exact (captureReady_of_trigger (r := { r with trigProgress := r.trigProgress + 1 }) htrigger).2 ⟨ha, hf, hn⟩
    · rw [← Bool.not_eq_true, captureReady_of_trigger htrigger]
      omega

theorem durationOver_of_capture {d : EdgeSel} {n : Nat} (h : r.duration = .capture i d n) :
    r.durationOver = true ↔ n ≤ r.durProgress := by
  simp [FaultRecord.durationOver, Duration.value, h]

/-- An edge completes a duration exactly where it is the last that its value needs. -/
theorem edge_completes_duration : ((r.durationEdge i rise).isSome && (edgeRecord run i rise r).state == .active &&
      (edgeRecord run i rise r).durationOver && !r.durationOver) = true ↔
    r.fresh = false ∧ r.state = .active ∧
      ∃ d n, r.duration = .capture i d n ∧ d.selects rise = true ∧ r.durProgress + 1 = n := by
  rw [Bool.and_eq_true, Bool.and_eq_true, Bool.and_eq_true, Bool.not_eq_true', beq_iff_eq]
  constructor
  · rintro ⟨⟨⟨hsome, hactive⟩, hover⟩, hnot⟩
    rcases edgeRecord_cases run i rise r with ⟨n, hf, ha, hr, ht, hlt, heq⟩ | ⟨n, hf, hb, hd, heq⟩ | heq
    · rw [heq] at hactive
      exact absurd hactive (by simp [ha])
    · obtain ⟨d, hduration, hsel⟩ := durationEdge_eq_some.1 hd
      rw [heq] at hover
      have hover := (durationOver_of_capture (r := { r with durProgress := r.durProgress + 1 }) hduration).1 hover
      rw [← Bool.not_eq_true, durationOver_of_capture hduration] at hnot
      dsimp only at hover
      exact ⟨hf, hb, d, n, hduration, hsel, by omega⟩
    · rw [heq, hnot] at hover
      cases hover
  · rintro ⟨hf, ha, d, n, hduration, hsel, hn⟩
    have hd : r.durationEdge i rise = some n := durationEdge_eq_some.2 ⟨d, hduration, hsel⟩
    have heq := edgeRecord_of_duration (run := run) hf ha hd
    refine ⟨⟨⟨by simp [hd], by rw [heq]; exact ha⟩, ?_⟩, ?_⟩
    · rw [heq]
      exact (durationOver_of_capture (r := { r with durProgress := r.durProgress + 1 }) hduration).2 hn.ge
    · rw [← Bool.not_eq_true, durationOver_of_capture hduration]
      omega

/-! ## The report (R153 to R158, R161) -/

/-- The input as its edge is reported. -/
def State.edgeTaken (s : State) (i : Fin 16) (l : Bool) (st : Stamp) : State :=
  s.updInput i fun x => { x.restartFilter with level := some (!l), lastEdge := some st }

/-- The report with its record offered. -/
def State.edgeOffered (s : State) (i : Fin 16) (l : Bool) (st : Stamp) : State :=
  if (s.input i).settings.edges.selects (!l) then
    (s.edgeTaken i l st).offer (s.input i).settings.dest ⟨i, !l, st, false, (s.input i).edgeWidth st⟩
  else s.edgeTaken i l st

/-- The report without what a trip does. -/
def State.edgeReported (s : State) (i : Fin 16) (l : Bool) (st : Stamp) : State :=
  (s.edgeOffered i l st).countEdge i (!l)

theorem edgeOffered_run (s : State) (i : Fin 16) (l : Bool) (st : Stamp) : (s.edgeOffered i l st).run = s.run ∧
    (s.edgeOffered i l st).faults = s.faults ∧ (s.edgeOffered i l st).due = s.due := by
  unfold State.edgeOffered State.edgeTaken
  split <;> simp

theorem edgeReported_run (s : State) (i : Fin 16) (l : Bool) (st : Stamp) : (s.edgeReported i l st).run = s.run := by
  have h := (edgeOffered_run s i l st).1
  simpa [State.edgeReported] using h

theorem takeCaptureReport_eq (hl : (s.input i).level = some l) (he : (s.input i).edge = some st) :
    s.takeCaptureReport i =
      if (s.input i).settings.edges.selects (!l) = true ∧ (s.input i).settings.trip = true ∧ s.run.mode = .run then
        (s.edgeReported i l st).enterSafe (.trip i)
      else s.edgeReported i l st := by
  have hrun : (s.edgeReported i l st).run = s.run := edgeReported_run s i l st
  rw [← hrun]
  simp only [State.takeCaptureReport, hl, he]
  rfl

theorem edgeReported_rest (s : State) (i : Fin 16) (l : Bool) (st : Stamp) : s.edgeReported i l st =
    { s with inputs := (s.edgeReported i l st).inputs, portM := (s.edgeReported i l st).portM
             portB := (s.edgeReported i l st).portB, faults := (s.edgeReported i l st).faults
             due := (s.edgeReported i l st).due } := by
  unfold State.edgeReported State.edgeOffered State.edgeTaken
  split <;> apply State.ext <;> simp

theorem edgeReported_inputs (s : State) (i : Fin 16) (l : Bool) (st : Stamp) :
    (s.edgeReported i l st).input i =
      { s.input i with level := some (!l), disagree := 0, runStamp := none, edge := none, lastEdge := some st } ∧
    ∀ j, j ≠ i → (s.edgeReported i l st).input j = s.input j := by
  have hinputs : (s.edgeReported i l st).inputs = (s.edgeTaken i l st).inputs := by
    unfold State.edgeReported State.edgeOffered
    split <;> simp
  have hinput (j : Fin 16) : (s.edgeReported i l st).input j = (s.edgeTaken i l st).input j := congrArg (·.get j) hinputs
  refine ⟨?_, fun j hj => ?_⟩
  · rw [hinput, State.edgeTaken, State.updInput_input_self]
    rfl
  · rw [hinput, State.edgeTaken, State.updInput_input_ne _ _ (Ne.symm hj)]

theorem edgeReported_fault (s : State) (i : Fin 16) (l : Bool) (st : Stamp) (k : Fin 64) :
    (s.edgeReported i l st).fault k = edgeRecord (s.run.mode == .run) i (!l) (s.fault k) := by
  obtain ⟨hrun, hfaults, -⟩ := edgeOffered_run s i l st
  have hfault : (s.edgeOffered i l st).fault k = s.fault k := congrArg (·.get k) hfaults
  rw [State.edgeReported, countEdge_fault, hrun, hfault]

theorem mem_countEdge : e ∈ (s.countEdge i rise).due ↔ e ∈ s.due ∨
    (∃ k, e = .onCapture k ∧ (s.fault k).fresh = false ∧ (s.fault k).state = .armed ∧ s.run.mode = .run ∧
      ∃ d n, (s.fault k).trigger = .onCapture i d n ∧ d.selects rise = true ∧ (s.fault k).trigProgress + 1 = n) ∨
    ∃ k, e = .durationEnd k ∧ (s.fault k).fresh = false ∧ (s.fault k).state = .active ∧
      ∃ d n, (s.fault k).duration = .capture i d n ∧ d.selects rise = true ∧ (s.fault k).durProgress + 1 = n := by
  have hdue : (s.countEdge i rise).due = s.due ++
      ((List.finRange 64).filter fun k => ((s.fault k).triggerEdge i rise).isSome && (s.run.mode == .run) &&
        captureReady ((s.countEdge i rise).fault k) && !captureReady (s.fault k)).map Event.onCapture ++
      ((List.finRange 64).filter fun k => ((s.fault k).durationEdge i rise).isSome &&
        ((s.countEdge i rise).fault k).state == .active && ((s.countEdge i rise).fault k).durationOver &&
          !(s.fault k).durationOver).map Event.durationEnd := rfl
  rw [hdue, List.mem_append, List.mem_append, mem_map_filter List.mem_finRange, mem_map_filter List.mem_finRange, or_assoc]
  simp only [countEdge_fault, edge_completes_trigger, edge_completes_duration, beq_iff_eq]

theorem mem_edgeReported : e ∈ (s.edgeReported i l st).due ↔ e ∈ s.due ∨
    (∃ k, e = .onCapture k ∧ (s.fault k).fresh = false ∧ (s.fault k).state = .armed ∧ s.run.mode = .run ∧
      ∃ d n, (s.fault k).trigger = .onCapture i d n ∧ d.selects (!l) = true ∧ (s.fault k).trigProgress + 1 = n) ∨
    ∃ k, e = .durationEnd k ∧ (s.fault k).fresh = false ∧ (s.fault k).state = .active ∧
      ∃ d n, (s.fault k).duration = .capture i d n ∧ d.selects (!l) = true ∧ (s.fault k).durProgress + 1 = n := by
  obtain ⟨hrun, hfaults, hdue⟩ := edgeOffered_run s i l st
  have hfault (k : Fin 64) : (s.edgeOffered i l st).fault k = s.fault k := congrArg (·.get k) hfaults
  rw [State.edgeReported, mem_countEdge]
  simp only [hrun, hfault, hdue]

theorem edgeReported_port (s : State) (i : Fin 16) (l : Bool) (st : Stamp) (p : Port) :
    (s.edgeReported i l st).port p =
      if (s.input i).settings.edges.selects (!l) = true ∧ (s.input i).settings.dest.has p = true then
        (s.port p).offer ⟨i, !l, st, false, (s.input i).edgeWidth st⟩ else s.port p := by
  have hport : (s.edgeReported i l st).port p = (s.edgeOffered i l st).port p := by
    unfold State.edgeReported
    cases p <;> simp [State.port]
  rw [hport]
  unfold State.edgeOffered
  by_cases hs : (s.input i).settings.edges.selects (!l) = true
  · rw [if_pos hs]
    cases p <;> simp only [State.offer, State.port, hs, true_and] <;> rfl
  · rw [if_neg hs, if_neg fun h => hs h.1]
    cases p <;> rfl

/-! ## O45 -/

theorem no_report_before (h : ∀ j, j < i → Event.captureReport j ∉ s.due) : ∀ x ∈ s.due, Event.reportBefore i x = false := by
  intro x hx
  cases x with
  | captureReport j => exact decide_eq_false fun hj => h j hj hx
  | _ => rfl

theorem offer_of_room {q : PortState} {x : CaptureRecord} (h : q.captures.length < 128) :
    q.offer x = { q with captures := placeRecord { x with gap := q.gap } q.captures, gap := false } := if_pos h

theorem offer_of_full {q : PortState} {x : CaptureRecord} (h : 128 ≤ q.captures.length) :
    q.offer x = { q with gap := true, sticky := q.sticky ||| 2 } := if_neg (by omega)

theorem triggerEdge_eq_none (h : ∀ d n, r.trigger = .onCapture i d n → d.selects rise = false) :
    r.triggerEdge i rise = none := by
  rw [Option.eq_none_iff_forall_ne_some]
  intro n hn
  obtain ⟨d, ht, hd⟩ := triggerEdge_eq_some.1 hn
  rw [h d n ht] at hd
  cases hd

theorem durationEdge_eq_none (h : ∀ d n, r.duration = .capture i d n → d.selects rise = false) :
    r.durationEdge i rise = none := by
  rw [Option.eq_none_iff_forall_ne_some]
  intro n hn
  obtain ⟨d, ht, hd⟩ := durationEdge_eq_some.1 hn
  rw [h d n ht] at hd
  cases hd

/-- A record that an edge matches nothing of is left as it was (R82, R88). -/
theorem edgeRecord_unmatched (h : r.fresh = true ∨ (r.state ≠ .armed ∧ r.state ≠ .active) ∨
      (r.state = .armed ∧ (run = false ∨ ∀ d n, r.trigger = .onCapture i d n →
        d.selects rise = false ∨ n ≤ r.trigProgress)) ∨
      (r.state = .active ∧ ∀ d n, r.duration = .capture i d n → d.selects rise = false)) :
    edgeRecord run i rise r = r := by
  rcases edgeRecord_cases run i rise r with ⟨n, hf, ha, hr, ht, hlt, -⟩ | ⟨n, hf, hb, hd, -⟩ | heq
  · obtain ⟨d, htrigger, hsel⟩ := triggerEdge_eq_some.1 ht
    rcases h with h | ⟨h, -⟩ | ⟨-, h | h⟩ | ⟨h, -⟩
    · rw [hf] at h
      cases h
    · exact absurd ha h
    · rw [hr] at h
      cases h
    · rcases h d n htrigger with h | h
      · rw [hsel] at h
        cases h
      · omega
    · exact absurd (ha.symm.trans h) (by decide)
  · obtain ⟨d, hduration, hsel⟩ := durationEdge_eq_some.1 hd
    rcases h with h | ⟨-, h⟩ | ⟨h, -⟩ | ⟨-, h⟩
    · rw [hf] at h
      cases h
    · exact absurd hb h
    · exact absurd (hb.symm.trans h) (by decide)
    · rw [h d n hduration] at hsel
      cases hsel
  · exact heq

/-- Settles O45. -/
theorem captureEdgeIsReported : Obligations.CaptureEdgeIsReported := by
  refine ⟨fun rise => by cases rise <;> decide, fun s i l st hdue hbefore hq hl he htrip => ?_,
    fun s i l st hdue hbefore hl he hsel htrip hm => ?_⟩
  · have hexec : exec (.captureEdgeReport i) s = .next (s.takeEvent (.captureReport i)) :=
      congrArg Host.Outcome.next (takeAfter_of_none (no_report_before hbefore))
    have hperform : (s.took (.captureReport i)).perform (.captureReport i) =
        (s.took (.captureReport i)).edgeReported i l st := by
      refine (takeCaptureReport_eq (s := s.took (.captureReport i)) hl he).trans (if_neg ?_)
      rintro ⟨hsel, ht, hm⟩
      rcases htrip with h | h | h
      · exact absurd (hsel.symm.trans h) (by decide)
      · exact absurd (ht.symm.trans h) (by decide)
      · exact h hm
    have hquiet : ((s.took (.captureReport i)).edgeReported i l st).examineDue = false ∨
        ((s.took (.captureReport i)).edgeReported i l st).due ≠ [] := by
      rcases hq with h | h
      · rw [edgeReported_rest]
        exact .inl h
      · obtain ⟨x, hx⟩ := List.exists_mem_of_ne_nil _ h
        exact .inr (List.ne_nil_of_mem (mem_edgeReported.2 (.inl hx)))
    have htake : s.takeEvent (.captureReport i) = (s.took (.captureReport i)).edgeReported i l st := by
      rw [State.takeEvent, if_pos hdue, hperform, settle_of_no_pass hquiet]
    rw [hexec, htake]
    obtain ⟨hself, hothers⟩ := edgeReported_inputs (s.took (.captureReport i)) i l st
    have hrest := edgeReported_rest (s.took (.captureReport i)) i l st
    have hport := edgeReported_port (s.took (.captureReport i)) i l st
    have hfault := edgeReported_fault (s.took (.captureReport i)) i l st
    have hmem (e : Event) := mem_edgeReported (e := e) (s := s.took (.captureReport i)) (i := i) (l := l) (st := st)
    generalize (s.took (.captureReport i)).edgeReported i l st = t at hself hothers hrest hport hfault hmem
    refine ⟨t, rfl, hrest, hself, hothers, fun hsel => ?_, fun hsel => ⟨_, rfl, fun p => ⟨fun hp => ?_, fun hp hn => ?_,
      fun hp hn => ?_⟩⟩, fun e het => ?_, fun k => ⟨fun d n hf ha hm ht hd hn => ?_, fun d n hf ha hd hs => ?_,
      fun hrest => ?_, ?_, ?_⟩⟩
    · have hnot (p : Port) : t.port p = s.port p := (hport p).trans (if_neg fun h => absurd (h.1.symm.trans hsel) (by decide))
      exact ⟨hnot .M, hnot .B⟩
    · exact (hport p).trans (if_neg fun h => absurd (h.2.symm.trans hp) (by decide))
    · exact (hport p).trans ((if_pos ⟨hsel, hp⟩).trans (offer_of_room hn))
    · exact (hport p).trans ((if_pos ⟨hsel, hp⟩).trans (offer_of_full hn))
    · rcases (hmem e).1 het with h | ⟨k, h, -⟩ | ⟨k, h, -⟩
      · exact .inl (List.mem_of_mem_erase h)
      · exact .inr (.inl ⟨k, h⟩)
      · exact .inr (.inr ⟨k, h⟩)
    · have hone := edgeRecord_of_trigger (run := s.run.mode == .run) hf ha (triggerEdge_eq_some.2 ⟨d, ht, hd⟩)
      exact (hfault k).trans (hone.trans (if_pos ⟨by rw [hm]; rfl, hn⟩))
    · exact (hfault k).trans (edgeRecord_of_duration hf ha (durationEdge_eq_some.2 ⟨d, hd, hs⟩))
    · refine (hfault k).trans (edgeRecord_unmatched ?_)
      refine hrest.imp_right (Or.imp_right (Or.imp_left fun ⟨ha, h⟩ => ⟨ha, h.imp_left fun hm => ?_⟩))
      exact beq_eq_false_iff_ne.2 hm
    · rw [hmem]
      have herase : Event.onCapture k ∈ (s.took (.captureReport i)).due ↔ Event.onCapture k ∈ s.due :=
        List.mem_erase_of_ne (by simp)
      rw [herase]
      simp
    · rw [hmem]
      have herase : Event.durationEnd k ∈ (s.took (.captureReport i)).due ↔ Event.durationEnd k ∈ s.due :=
        List.mem_erase_of_ne (by simp)
      rw [herase]
      simp
  · have hexec : exec (.captureEdgeReport i) s = .next (s.takeEvent (.captureReport i)) :=
      congrArg Host.Outcome.next (takeAfter_of_none (no_report_before hbefore))
    have hperform : (s.took (.captureReport i)).perform (.captureReport i) =
        ((s.took (.captureReport i)).edgeReported i l st).enterSafe (.trip i) :=
      (takeCaptureReport_eq (s := s.took (.captureReport i)) hl he).trans (if_pos ⟨hsel, htrip, hm⟩)
    have hrun := edgeReported_run (s.took (.captureReport i)) i l st
    have hself := (edgeReported_inputs (s.took (.captureReport i)) i l st).1
    have hrest := edgeReported_rest (s.took (.captureReport i)) i l st
    rw [hexec, State.takeEvent, if_pos hdue, hperform]
    generalize (s.took (.captureReport i)).edgeReported i l st = u at hself hrest hrun
    obtain ⟨hsafe, -, hangle, hmemory, hinputs⟩ := settled_enterSafe (s := u) (why := .trip i) (by rw [hrun]; exact hm)
    have htime : u.rigTime = s.rigTime := by rw [hrest]; rfl
    have hinput : ((u.enterSafe (.trip i)).settle).input i = u.input i := congrArg (·.get i) hinputs
    refine ⟨_, rfl, by rw [hsafe], by rw [hsafe, htime], ?_, by rw [hinput, hself], by rw [hinput, hself], ?_⟩
    · rw [hangle, hrest]
      rfl
    · rw [hmemory, hrest]
      rfl

end Sys2Proof.Machine
end

section
/-! O49: STOP. -/

namespace Sys2Proof.Machine

variable {s t u v : State} {c d : Fin 24} {k : Fin 64} {e : Event}

/-! ## The generators halted (R34) -/

/-- A halted channel that no record is effective on shows the inactive level (R34). -/
theorem shownThrough_none (x : Channel) (hc : kindOf c = .pulse) : shownThrough c none (haltGenerator x) =
    { x with
      gen := none, buffer := none, wait := 0, clamped := false
      pin := if x.mode = .free then (if x.inverted then 1 else 0) else x.pin
      pinHeld := decide (x.mode = .wheel ∧ x.pinHeld = true) } := by
  unfold shownThrough
  cases hm : x.mode with
  | free =>
    rw [if_pos ⟨hc, hm⟩]
    cases hi : x.inverted <;> simp [haltGenerator, pulsePin, polarLevel, hi, hm]
  | wheel =>
    rw [if_neg (by simp [haltGenerator, hm])]
    simp [haltGenerator, hm]

/-- No record is effective where none is ACTIVE (R111). -/
theorem effectiveRecord_none (h : ∀ k, (s.fault k).target = c → (s.fault k).state ≠ .active) : s.effectiveRecord c = none := by
  have hbest := effective_bestOf (s := s) c
  unfold State.effectiveRecord
  cases he : s.effective c with
  | none => rfl
  | some b =>
    rw [he] at hbest
    obtain ⟨-, ⟨hactive, -, htarget⟩, -⟩ := hbest
    exact absurd hactive (h b htarget)

/-! ## STOP, judged and taken (R172, R173) -/

theorem stopBusy_eq (r : FaultRecord) : stopBusy r = r.state.passing := by
  unfold stopBusy
  cases r.state <;> rfl

theorem anyMoving_eq_true_iff : s.anyMoving = true ↔ ∃ c r, ((s.relaySet c).relays.get r).state.moving = true := by
  simp only [State.anyMoving, List.any_eq_true, List.mem_finRange, true_and, RelaySet.anyMoving]
  refine exists_congr fun c => exists_congr fun r => and_iff_right ?_
  cases r <;> simp [RelayName.all]

theorem no_capture_counted (h : ∀ k, Event.onCapture k ∉ s.due) : s.due.any Event.isOnCapture = false := by
  rw [List.any_eq_false]
  intro e he hq
  cases e with
  | onCapture k => exact h k he
  | _ => cases hq

/-- The activity that refuses STOP (R172). -/
def State.stopHeld (s : State) : Bool := (List.finRange 64).any (fun k => stopBusy (s.fault k)) || s.anyMoving

theorem stopHeld_iff : s.stopHeld = true ↔ (∃ k, (s.fault k).state.passing = true) ∨
    ∃ c r, ((s.relaySet c).relays.get r).state.moving = true := by
  rw [State.stopHeld, Bool.or_eq_true, anyMoving_eq_true_iff]
  simp [stopBusy_eq]

theorem handleStop_judged (h : ∀ k, Event.onCapture k ∉ s.due) : handleStop s =
    if s.run.mode = .config then refuse s .wrongMode
    else if s.stopHeld then refuse s .busy
    else okay s.stopRun (.modeOnly s.stopRun.run.mode) := by
  have hjudged : s.judgedForStop = s := if_neg (by rw [no_capture_counted h]; decide)
  rw [handleStop_eq, hjudged, State.stopHeld]
  refine if_congr Iff.rfl rfl ?_
  by_cases hb : (List.finRange 64).any (fun k => stopBusy (s.fault k)) = true
  · rw [hb, Bool.true_or, if_pos rfl, if_pos rfl]
  · rw [Bool.eq_false_iff.2 hb, Bool.false_or, if_neg (by decide)]

theorem stopEntry_faults (s : State) : s.stopEntry.faults = s.faults := by simp [State.stopEntry]

theorem stop_not_driving (y : Driver) : y.stop ≠ .driving := by cases y <;> decide

theorem stop_driver (y : Driver) : y.stop = if y = .driving then .off else y := by cases y <;> rfl

/-- A channel after STOP, where no record is ACTIVE (R34, R40). -/
theorem stopRun_channel (h : ∀ k, (s.fault k).state ≠ .active) (c : Fin 24) : ∃ y : Channel,
    y = { s.channel c with
      driver := if (s.channel c).driver = .driving then .off else (s.channel c).driver
      limitTicks := none } ∧
    (kindOf c ≠ .pulse → s.stopRun.channel c = y) ∧
    (kindOf c = .pulse → s.stopRun.channel c = { y with
      gen := none, buffer := none, wait := 0, clamped := false
      pin := if y.mode = .free then (if y.inverted then 1 else 0) else y.pin
      pinHeld := decide (y.mode = .wheel ∧ y.pinHeld = true) }) := by
  have hlast : s.stopRun.channels = s.stopEntry.haltGenerators.channels := by simp [stopRun_eq]
  have hchannel : s.stopRun.channel c = s.stopEntry.haltGenerators.channel c := congrArg (·.get c) hlast
  have hentry : s.stopEntry.channel c = { s.channel c with
      driver := if (s.channel c).driver = .driving then .off else (s.channel c).driver
      limitTicks := none } := by
    rw [State.stopEntry, mapDrivers_channel, ← stop_driver, if_neg (stop_not_driving _)]
    rfl
  have hnone : s.stopEntry.effectiveRecord c = none := by
    rw [effectiveRecord_congr (stopEntry_faults s)]
    exact effectiveRecord_none fun k _ => h k
  refine ⟨s.stopEntry.channel c, hentry, fun hc => ?_, fun hc => ?_⟩
  · rw [hchannel, haltGenerators_channel, if_neg hc]
  · rw [hchannel, haltGenerators_channel, if_pos hc, hnone, shownThrough_none _ hc]

/-- Settles O49. -/
theorem stopEntersConfig : Obligations.StopEntersConfig := by
  intro s tag hn hcounted
  have hrefuse {code : Status} (h : handleStop s = refuse s code) :
      exec (.stop .B tag) s = .next (s.answerNo .B .stop tag code) := exec_of_refuse (i := .stop .B tag) rfl rfl (by simp) rfl hn h
  have heq := handleStop_judged hcounted
  refine ⟨fun hm => hrefuse (heq.trans (if_pos hm)), fun hm hbusy => hrefuse (heq.trans ((if_neg hm).trans (if_pos (stopHeld_iff.2 hbusy)))),
    fun hm hrest hstill => ?_⟩
  have hfree : ¬s.stopHeld = true := by
    rw [stopHeld_iff]
    rintro (⟨k, hk⟩ | ⟨c, r, hr⟩)
    · rw [hrest k] at hk
      cases hk
    · rw [hstill c r] at hr
      cases hr
  have hrun := stopRun_run s
  have htaken : handleStop s = okay s.stopRun (.modeOnly .config) := by
    rw [heq, if_neg hm, if_neg hfree, hrun]
  have hidle : ∀ k, (s.fault k).state ≠ .active := fun k ha => by
    have hk := hrest k
    rw [ha] at hk
    cases hk
  refine ⟨s.stopRun, exec_of_okay (i := .stop .B tag) rfl rfl (by simp) rfl hn htaken, ?_, ?_, hrun, ?_, fun q => ?_,
    fun n => ?_, fun i => ?_, stopRun_channel hidle⟩
  · apply State.ext <;> simp [stopRun_eq, State.stopEntry]
  · simp [stopRun_eq, State.stopEntry, State.dropDue]
  · have hangle : s.stopRun.angle = s.angle.stop := by simp [stopRun_eq, State.stopEntry]
    rw [hangle]
    rfl
  · have hangle : s.stopRun.angle = s.angle.stop := by simp [stopRun_eq, State.stopEntry]
    rw [hangle]
    cases q <;> rfl
  · have hengines : s.stopRun.engines = s.stopEntry.haltGenerators.idleEngines.engines := by simp [stopRun_eq]
    have hbefore : s.stopEntry.haltGenerators.engines = s.engines := by simp [State.stopEntry]
    have hidled (u : State) : u.idleEngines.engine n = { u.engine n with state := .idle } := by
      simp only [State.idleEngines, State.engine, mapV_get]
    have hself : s.stopEntry.haltGenerators.engine n = s.engine n := congrArg (·.get n) hbefore
    rw [← hself, ← hidled]
    exact congrArg (·.get n) hengines
  · have hbefore : s.stopEntry.haltGenerators.idleEngines.inputs = s.inputs := by simp [State.stopEntry]
    have hself : s.stopRun.input i = (s.input i).clearLive := by
      rw [stopRun_eq]
      simp only [State.input, hbefore, mapV_get]
    exact hself

end Sys2Proof.Machine
end

section
/-! The chain of a fault event (R83, R84): which records fire at its instant, given where every ARMED listener is
electronic, and what the entry to ACTIVE and the end of an activation leave besides. -/

namespace Sys2Proof.Machine

variable {s t u v : State} {k : Fin 64} {e : FaultEvent} {L M : List (Fin 64)}

theorem updFault_congr {f g : FaultRecord → FaultRecord} (h : f (s.fault k) = g (s.fault k)) :
    s.updFault k f = s.updFault k g := by
  rw [State.updFault, State.updFault]
  exact congrArg (fun v => { s with faults := v }) (updV_congr h)

theorem updFault_updFault (f g : FaultRecord → FaultRecord) :
    (s.updFault k f).updFault k g = s.updFault k fun r => g (f r) := by
  rw [State.updFault, State.updFault]
  exact congrArg (fun v => { s with faults := v }) (updV_updV _ _ _ _)

/-! ## Entry to ACTIVE -/

theorem enterActive_of_electronic (h : (s.fault k).kind.electronic = true) : s.enterActive k =
    ((s.updFault k fun _ => s.activeNow k).raiseSet (s.fault k).notify .faultEvent).showFree (s.fault k).target := by
  have hrecord : s.updFault k (fun r =>
      { r with
        state := .active
        startStamp := some s.stampNow
        durProgress := 0
        frozen := if r.kind = .freeze then some (s.channel (s.fault k).target).lastOutput else none
        fresh := true }) = s.updFault k fun _ => s.activeNow k := updFault_congr rfl
  have hfault : (s.updFault k fun _ => s.activeNow k).fault k = s.activeNow k := (updFault_fault _ k).trans (if_pos rfl)
  unfold State.enterActive
  dsimp only
  rw [hrecord, raiseSet_fault, hfault]
  exact if_pos h

theorem showFree_eq (c : Fin 24) : s.showFree c = { s with channels := (s.showFree c).channels } := by
  unfold State.showFree
  split <;> rfl

/-- The pin of a FREE channel moves, its last output does not (assumption 28). -/
theorem showFree_lastOutput (c d : Fin 24) : ((s.showFree c).channel d).lastOutput = (s.channel d).lastOutput := by
  by_cases h : c = d
  · subst h
    rw [showFree_channel]
    unfold shownThrough
    split <;> rfl
  · rw [showFree_channel_ne h]

theorem enterActive_lastOutput (d : Fin 24) : ((s.enterActive k).channel d).lastOutput = (s.channel d).lastOutput := by
  unfold State.enterActive
  dsimp only
  split
  · exact showFree_lastOutput _ d
  · rfl

/-! ## The records that fire with a list of triggers -/

/-- The triggers of `L` have fired in `s`, which left `u`: those of them that were ARMED are ACTIVE, and so are the
records that listen for the START event of another one that fired; no other record changes (R83, R84). -/
structure Fired (L : List (Fin 64)) (s u : State) : Prop where
  rest : u = { s with faults := u.faults, channels := u.channels, portM := u.portM, portB := u.portB }
  outputs : ∀ c, (u.channel c).lastOutput = (s.channel c).lastOutput
  records : ∀ j, u.fault j = s.fault j ∨ (s.fault j).state = .armed ∧ u.fault j = s.activeNow j
  roots : ∀ j ∈ L, (s.fault j).state = .armed → (u.fault j).state = .active
  heard : s.run.mode = .run → ∀ i j, (s.fault i).state = .armed → (u.fault i).state = .active →
    (s.fault j).state = .armed → (s.fault j).trigger = .onFault i .start → (u.fault j).state = .active
  caused : ∀ j, (s.fault j).state = .armed → (u.fault j).state = .active →
    j ∈ L ∨ s.run.mode = .run ∧ ∃ i, (s.fault i).state = .armed ∧ (u.fault i).state = .active ∧
      (s.fault j).trigger = .onFault i .start

namespace Fired

theorem nil (s : State) : Fired [] s s where
  rest := rfl
  outputs _ := rfl
  records _ := .inl rfl
  roots _ h := absurd h List.not_mem_nil
  heard _ i _ ha hb := absurd (ha.symm.trans hb) (by decide)
  caused _ ha hb := absurd (ha.symm.trans hb) (by decide)

theorem activeNow (h : Fired L s u) {j : Fin 64} (hj : u.fault j = s.fault j) : u.activeNow j = s.activeNow j := by
  rw [State.activeNow, State.activeNow, hj, h.outputs, h.rest]

/-- An ACTIVE record is fired no more. -/
theorem keeps_active (h : Fired L s u) {j : Fin 64} (hj : (s.fault j).state = .active) : (u.fault j).state = .active := by
  rcases h.records j with heq | ⟨ha, -⟩
  · rw [heq]
    exact hj
  · exact absurd (ha.symm.trans hj) (by decide)

/-- A record is unchanged, or has fired. -/
theorem unchanged_or_active (h : Fired L s u) (j : Fin 64) :
    u.fault j = s.fault j ∨ (u.fault j).state = .active := by
  rcases h.records j with heq | ⟨-, heq⟩
  · exact .inl heq
  · exact .inr (by rw [heq]; rfl)

theorem armed_before (h : Fired L s u) {j : Fin 64} (hj : (u.fault j).state = .armed) :
    u.fault j = s.fault j ∧ (s.fault j).state = .armed := by
  rcases h.records j with heq | ⟨-, heq⟩
  · exact ⟨heq, heq ▸ hj⟩
  · rw [heq] at hj
    cases hj

theorem run (h : Fired L s u) : u.run = s.run := by
  rw [h.rest]

theorem trans (h : Fired L s u) (h' : Fired M u v) : Fired (L ++ M) s v where
  rest := by rw [h'.rest, h.rest]
  outputs c := (h'.outputs c).trans (h.outputs c)
  records j := by
    rcases h'.records j with heq' | ⟨ha, heq'⟩
    · rw [heq']
      exact h.records j
    · obtain ⟨heq, hs⟩ := h.armed_before ha
      exact .inr ⟨hs, heq'.trans (h.activeNow heq)⟩
  roots j hj ha := by
    rcases h.unchanged_or_active j with heq | hb
    · rcases List.mem_append.1 hj with hl | hm
      · exact h'.keeps_active (h.roots j hl ha)
      · exact h'.roots j hm (by rw [heq]; exact ha)
    · exact h'.keeps_active hb
  heard hm i j hi hi' hj ht := by
    rcases h.unchanged_or_active j with heq | hb
    · rcases h.unchanged_or_active i with heqi | hbi
      · exact h'.heard (by rw [h.run]; exact hm) i j (by rw [heqi]; exact hi) hi' (by rw [heq]; exact hj)
          (by rw [heq]; exact ht)
      · exact h'.keeps_active (h.heard hm i j hi hbi hj ht)
    · exact h'.keeps_active hb
  caused j hj hj' := by
    rcases h.unchanged_or_active j with heq | hb
    · rcases h'.caused j (by rw [heq]; exact hj) hj' with hl | ⟨hm, i, hi, hi', ht⟩
      · exact .inl (List.mem_append.2 (.inr hl))
      · exact .inr ⟨by rw [← h.run]; exact hm, i, (h.armed_before hi).2, hi', by rw [← heq]; exact ht⟩
    · rcases h.caused j hj hb with hl | ⟨hm, i, hi, hi', ht⟩
      · exact .inl (List.mem_append.2 (.inl hl))
      · exact .inr ⟨hm, i, hi, h'.keeps_active hi', ht⟩

theorem listenersElectronic (h : Fired L s u) (hs : s.listenersElectronic) : u.listenersElectronic := by
  intro j i x ha ht
  obtain ⟨heq, ha'⟩ := h.armed_before ha
  rw [heq] at ht ⊢
  exact hs j i x ha' ht

end Fired

theorem mem_listeners {j : Fin 64} : j ∈ s.listeners k e ↔
    s.run.mode = .run ∧ (s.fault j).state = .armed ∧ (s.fault j).trigger = .onFault k e := by
  unfold State.listeners
  by_cases hm : s.run.mode = .run <;> simp [hm]

/-- The records that are ARMED. -/
def State.armedSet (s : State) : Finset (Fin 64) := Finset.univ.filter fun j => (s.fault j).state = .armed

theorem mem_armedSet {j : Fin 64} : j ∈ s.armedSet ↔ (s.fault j).state = .armed := by simp [State.armedSet]

theorem Fired.armedSet_subset (h : Fired L s u) : u.armedSet ⊆ s.armedSet := fun _ hj =>
  mem_armedSet.2 (h.armed_before (mem_armedSet.1 hj)).2

/-- The entry of a record to ACTIVE changes its record, its target's pin and the notices alone. -/
theorem enterActive_rest : s.enterActive k = { s with
    faults := (s.enterActive k).faults, channels := (s.enterActive k).channels
    portM := (s.enterActive k).portM, portB := (s.enterActive k).portB } := by
  unfold State.enterActive
  dsimp only
  split
  · rw [showFree_eq]
    rfl
  · rfl

/-- An ARMED record enters ACTIVE, and then its listeners fire. -/
theorem Fired.enterActive (ha : (s.fault k).state = .armed)
    (h : Fired ((s.enterActive k).listeners k .start) (s.enterActive k) u) : Fired [k] s u := by
  have hself : (s.enterActive k).fault k = s.activeNow k := (enterActive_fault k).trans (if_pos rfl)
  have hothers {j : Fin 64} (hj : j ≠ k) : (s.enterActive k).fault j = s.fault j := (enterActive_fault j).trans (if_neg hj)
  have hrun : (s.enterActive k).run = s.run := by rw [enterActive_rest]
  have hactive : (u.fault k).state = .active := h.keeps_active (by rw [hself]; rfl)
  refine ⟨?_, fun c => (h.outputs c).trans (enterActive_lastOutput c), fun j => ?_, fun j hj _ => ?_,
    fun hm i j hi hi' hj ht => ?_, fun j hj hj' => ?_⟩
  · rw [h.rest, enterActive_rest]
  · by_cases hjk : j = k
    · subst hjk
      rcases h.records j with heq | ⟨hb, -⟩
      · exact .inr ⟨ha, heq.trans hself⟩
      · rw [hself] at hb
        cases hb
    · rcases h.records j with heq | ⟨hb, heq⟩
      · exact .inl (heq.trans (hothers hjk))
      · refine .inr ⟨hothers hjk ▸ hb, heq.trans ?_⟩
        rw [State.activeNow, State.activeNow, hothers hjk, enterActive_lastOutput, enterActive_rest]
  · rw [List.mem_singleton.1 hj]
    exact hactive
  · by_cases hjk : j = k
    · rw [hjk]
      exact hactive
    · rw [← hothers hjk] at hj ht
      by_cases hik : i = k
      · exact h.roots j (mem_listeners.2 ⟨by rw [hrun]; exact hm, hj, hik ▸ ht⟩) hj
      · exact h.heard (by rw [hrun]; exact hm) i j (by rw [hothers hik]; exact hi) hi' hj ht
  · by_cases hjk : j = k
    · exact .inl (List.mem_singleton.2 hjk)
    · rw [← hothers hjk] at hj ⊢
      rcases h.caused j hj hj' with hl | ⟨hm, i, hi, hi', ht⟩
      · obtain ⟨hm, -, ht⟩ := mem_listeners.1 hl
        exact .inr ⟨hrun ▸ hm, k, ha, hactive, ht⟩
      · have hik : i ≠ k := by
          rintro rfl
          rw [hself] at hi
          cases hi
        exact .inr ⟨hrun ▸ hm, i, by rw [← hothers hik]; exact hi, hi', ht⟩

theorem Fired.single_of_not_armed (h : (s.fault k).state ≠ .armed) : Fired [k] s s :=
  { Fired.nil s with
    roots := fun j hj ha => absurd (List.mem_singleton.1 hj ▸ ha) h
    caused := fun _ ha hb => absurd (ha.symm.trans hb) (by decide) }

/-- A list of triggers that fire in turn, each as `f` has it while no more than `n` records are ARMED. -/
theorem Fired.foldl {n : Nat} {f : State → Fin 64 → State}
    (hf : ∀ {s : State} {k : Fin 64}, s.armedSet.card ≤ n → s.listenersElectronic →
      ((s.fault k).state = .armed → (s.fault k).kind.electronic = true) → Fired [k] s (f s k)) (l : List (Fin 64)) :
    ∀ {s : State}, s.armedSet.card ≤ n → s.listenersElectronic →
      (∀ j ∈ l, (s.fault j).state = .armed → (s.fault j).kind.electronic = true) → Fired l s (l.foldl f s) := by
  induction l with
  | nil => exact fun _ _ _ => Fired.nil _
  | cons i l ih =>
    intro s hn hs hl
    have hfirst := hf (k := i) hn hs (hl i List.mem_cons_self)
    refine Fired.trans (L := [i]) hfirst (ih ((Finset.card_le_card hfirst.armedSet_subset).trans hn)
      (hfirst.listenersElectronic hs) fun j hj ha => ?_)
    obtain ⟨heq, hb⟩ := hfirst.armed_before ha
    rw [heq]
    exact hl j (List.mem_cons_of_mem _ hj) hb

theorem listeners_electronic (hs : s.listenersElectronic) : ∀ j ∈ s.listeners k e, (s.fault j).state = .armed →
    (s.fault j).kind.electronic = true := fun j hj ha => hs j k e ha (mem_listeners.1 hj).2.2

/-- A trigger that fires takes its record out of ARMED, so as much fuel as there are ARMED records suffices (R84). -/
theorem fireFuel_fired (n : Nat) : ∀ {s : State} {k : Fin 64}, s.armedSet.card ≤ n → s.listenersElectronic →
    ((s.fault k).state = .armed → (s.fault k).kind.electronic = true) → Fired [k] s (fireFuel n s k) := by
  induction n with
  | zero =>
    intro s k hn _ _
    refine Fired.single_of_not_armed fun ha => ?_
    have := Finset.card_pos.2 ⟨k, mem_armedSet.2 ha⟩
    omega
  | succ n ih =>
    intro s k hn hs hk
    rw [fireFuel_succ]
    by_cases ha : (s.fault k).state = .armed
    · rw [if_pos ha, if_pos (hk ha)]
      have hfault (j : Fin 64) : (s.enterActive k).fault j = if j = k then s.activeNow k else s.fault j := enterActive_fault j
      have hbefore {j : Fin 64} (hj : ((s.enterActive k).fault j).state = .armed) :
          j ≠ k ∧ (s.enterActive k).fault j = s.fault j := by
        by_cases hjk : j = k
        · rw [hfault, if_pos hjk] at hj
          cases hj
        · exact ⟨hjk, (hfault j).trans (if_neg hjk)⟩
      have helectronic : (s.enterActive k).listenersElectronic := by
        intro j i x hj ht
        obtain ⟨-, heq⟩ := hbefore hj
        rw [heq] at hj ht ⊢
        exact hs j i x hj ht
      have hcard : (s.enterActive k).armedSet.card ≤ n := by
        have hlt : (s.enterActive k).armedSet.card < s.armedSet.card := by
          refine Finset.card_lt_card ⟨fun j hj => ?_, fun hsub => ?_⟩
          · obtain ⟨-, heq⟩ := hbefore (mem_armedSet.1 hj)
            exact mem_armedSet.2 (heq ▸ mem_armedSet.1 hj)
          · exact (hbefore (mem_armedSet.1 (hsub (mem_armedSet.2 ha)))).1 rfl
        omega
      exact Fired.enterActive ha (Fired.foldl ih _ hcard helectronic (listeners_electronic helectronic))
    · rw [if_neg ha]
      exact Fired.single_of_not_armed ha

theorem armedSet_card_le (s : State) : s.armedSet.card ≤ 65 :=
  (Finset.card_le_univ _).trans (by decide)

/-- A fault event fires its chain (R83, R84). -/
theorem produce_fired (hs : s.listenersElectronic) : Fired (s.listeners k e) s (s.produce k e) :=
  Fired.foldl (fun hn h hk => fireFuel_fired 65 hn h hk) _ (armedSet_card_le s) hs (listeners_electronic hs)

/-! ## The chain of an event -/

/-- `t` is what the chain of event `e` of record `k` leaves, where `s` is changed at `k` alone before and after it. -/
theorem chainFires_of_fired (h : Fired (u.listeners k e) u v) (hk : (u.fault k).state ≠ .armed)
    (hs : ∀ j, j ≠ k → u.fault j = s.fault j ∧ u.activeNow j = s.activeNow j) (hrun : u.run = s.run)
    (ht : ∀ j, j ≠ k → t.fault j = v.fault j) : s.chainFires t k e := by
  intro j hj
  obtain ⟨heq, hactive⟩ := hs j hj
  rw [ht j hj]
  constructor
  · rintro ⟨hm, ha, i, x, htrigger, hcase⟩
    rw [← heq] at ha htrigger
    rw [← hrun] at hm
    have hfired : (v.fault j).state = .active := by
      rcases hcase with ⟨rfl, rfl⟩ | ⟨hi, rfl, hia, hit⟩
      · exact h.roots j (mem_listeners.2 ⟨hm, ha, htrigger⟩) ha
      · rw [ht i hi] at hit
        exact h.heard hm i j (by rw [(hs i hi).1]; exact hia) hit ha htrigger
    rcases h.records j with hkeep | ⟨-, hfire⟩
    · rw [hkeep] at hfired
      exact absurd (ha.symm.trans hfired) (by decide)
    · exact hfire.trans hactive
  · intro hnot
    rcases h.records j with hkeep | ⟨ha, hfire⟩
    · exact hkeep.trans heq
    · refine absurd ?_ hnot
      rcases h.caused j ha (by rw [hfire]; rfl) with hl | ⟨hm, i, hi, hi', htrigger⟩
      · obtain ⟨hm, -, htrigger⟩ := mem_listeners.1 hl
        exact ⟨hrun ▸ hm, heq ▸ ha, k, e, heq ▸ htrigger, .inl ⟨rfl, rfl⟩⟩
      · have hik : i ≠ k := fun hik => hk (hik ▸ hi)
        exact ⟨hrun ▸ hm, heq ▸ ha, i, .start, heq ▸ htrigger,
          .inr ⟨hik, rfl, (hs i hik).1 ▸ hi, by rw [ht i hik]; exact hi'⟩⟩

end Sys2Proof.Machine
end

section
/-! How electronic records fire and end (R70, R83, R85, R89, R94, R103). -/

namespace Sys2Proof.Machine

variable {s t u v : State} {k : Fin 64} {e : FaultEvent} {x : Event}

/-! ## The end of an activation -/

theorem stamped_fault : (s.stamped k).fault k =
    { s.fault k with endStamp := some s.stampNow, activations := (s.fault k).activations + 1 } :=
  (updFault_fault _ k).trans (if_pos rfl)

theorem again_eq (x : Trigger) (p : Nat) : x.again p =
    (match x with
      | .atTime t => .atTime (t + BitVec.ofNat 48 p)
      | .atAngle _ a => .atAngle none a
      | .onCapture i e n => .onCapture i e n
      | .onFault i e => .onFault i e) := by
  cases x <;> rfl

/-- The ports that the end of an activation is announced to: none where the record is re-armed (R70, R89). -/
def State.endAnnounced (s : State) (k : Fin 64) : PortSet :=
  if (s.endedNow k).state = FaultState.armed then ⟨false, false⟩ else (s.fault k).notify

theorem endedNow_of_done (h : (s.fault k).releasePending = true ∨ (s.fault k).repeats = 0) : s.endedNow k =
    { s.fault k with
      endStamp := some s.stampNow, activations := (s.fault k).activations + 1, frozen := none, seq := none
      state := .done } := by
  rw [State.endedNow]
  exact if_pos h

theorem endedNow_of_repeat (h : (s.fault k).releasePending = false) (hr : 0 < (s.fault k).repeats) : s.endedNow k =
    ((s.stamped k).fault k).rearm := by
  have hnot : ¬((s.fault k).releasePending = true ∨ (s.fault k).repeats = 0) := by
    rintro (hp | hz)
    · rw [h] at hp
      cases hp
    · omega
  rw [State.endedNow, stamped_fault, FaultRecord.rearm]
  refine (if_neg hnot).trans ?_
  cases (s.fault k).trigger <;> rfl

/-- A notice to no port changes nothing. -/
theorem raiseSet_nobody (s : State) (n : Notice) : s.raiseSet ⟨false, false⟩ n = s := rfl

theorem rearm_state (r : FaultRecord) : r.rearm.state = .armed := rfl

theorem rearmedOrDone_eq (h : v.fault k = (s.stamped k).fault k) : v.rearmedOrDone k =
    (v.updFault k fun _ => s.endedNow k).raiseSet (s.endAnnounced k) .faultEvent := by
  have hrelease : (v.fault k).releasePending = (s.fault k).releasePending := by rw [h, stamped_fault]
  have hrepeats : (v.fault k).repeats = (s.fault k).repeats := by rw [h, stamped_fault]
  unfold State.rearmedOrDone State.endAnnounced
  by_cases hrep : (s.fault k).releasePending = false ∧ 0 < (s.fault k).repeats
  · rw [if_pos (by rw [hrelease, hrepeats]; exact hrep), endedNow_of_repeat hrep.1 hrep.2, if_pos (rearm_state _)]
    exact (updFault_congr (by rw [h])).trans (raiseSet_nobody _ _).symm
  · have hdone : (s.fault k).releasePending = true ∨ (s.fault k).repeats = 0 := by
      by_contra hnot
      exact hrep ⟨Bool.eq_false_iff.2 fun hp => hnot (.inl hp), Nat.pos_of_ne_zero fun hz => hnot (.inr hz)⟩
    rw [if_neg (by rw [hrelease, hrepeats]; exact hrep), endedNow_of_done hdone, if_neg nofun, State.enterDone]
    have hnotify : (v.fault k).notify = (s.fault k).notify := by rw [h, stamped_fault]
    rw [hnotify]
    exact congrArg (State.raiseSet · _ _) (updFault_congr (by rw [h, stamped_fault]))

theorem endedNow_kind : (s.endedNow k).kind = (s.fault k).kind := by
  rw [State.endedNow]
  split <;> rfl

/-- The activation of an electronic record ends (R103). -/
theorem endActivation_of_electronic (he : (s.fault k).kind.electronic = true) (ha : (s.fault k).state ≠ .armed) :
    s.endActivation k = ((((s.stamped k).produce k .stop).updFault k fun _ => s.endedNow k).raiseSet
      (s.endAnnounced k) .faultEvent).showFree (s.fault k).target := by
  have hstill : ((s.stamped k).produce k .stop).fault k = (s.stamped k).fault k :=
    produce_fault_of_not_armed (by rw [stamped_fault]; exact ha)
  rw [endActivation_eq, rearmedOrDone_eq hstill]
  refine if_pos ?_
  rw [raiseSet_fault, updFault_fault, if_pos rfl, endedNow_kind]
  exact he

/-- Records are listened to alike where the listeners are alike (R83). -/
theorem listeners_congr (hrun : u.run = s.run) (hk : ¬((u.fault k).state = .armed ∧ (u.fault k).trigger = .onFault k e) ∧
    ¬((s.fault k).state = .armed ∧ (s.fault k).trigger = .onFault k e))
    (h : ∀ j, j ≠ k → u.fault j = s.fault j) : u.listeners k e = s.listeners k e := by
  have hone : ∀ j ∈ List.finRange 64, ((u.fault j).state == FaultState.armed && (u.fault j).trigger == .onFault k e) =
      ((s.fault j).state == .armed && (s.fault j).trigger == .onFault k e) := by
    intro j _
    by_cases hj : j = k
    · subst hj
      refine (Bool.eq_false_iff.2 ?_).trans (Bool.eq_false_iff.2 ?_).symm <;>
        rw [ne_eq, Bool.and_eq_true, beq_iff_eq, beq_iff_eq]
      · exact hk.1
      · exact hk.2
    · rw [h j hj]
  rw [State.listeners, State.listeners, hrun, List.filter_congr hone]

theorem stamped_listeners (hk : (s.fault k).state ≠ .armed) : (s.stamped k).listeners k e = s.listeners k e :=
  listeners_congr rfl ⟨fun h => hk (by rw [stamped_fault] at h; exact h.1), fun h => hk h.1⟩ fun j hj => (updFault_fault _ j).trans (if_neg hj)

theorem produce_of_no_listener (h : s.listeners k e = []) : s.produce k e = s := by
  rw [State.produce, h, List.foldl_nil]

/-- The activation of an electronic record ends with no listener of its END event. -/
theorem endActivation_of_no_listener (he : (s.fault k).kind.electronic = true) (ha : (s.fault k).state ≠ .armed)
    (hl : s.listeners k .stop = []) :
    s.endActivation k = ((s.updFault k fun _ => s.endedNow k).raiseSet
      (s.endAnnounced k) .faultEvent).showFree (s.fault k).target := by
  rw [endActivation_of_electronic he ha, produce_of_no_listener (by rw [stamped_listeners ha, hl]), State.stamped,
    updFault_updFault]

/-- The chain of the END event of an electronic record (R83, R84, R103). -/
theorem endActivation_chain (he : (s.fault k).kind.electronic = true) (ha : (s.fault k).state ≠ .armed)
    (hs : s.listenersElectronic) :
    s.endActivation k = { s with
      faults := (s.endActivation k).faults, channels := (s.endActivation k).channels
      portM := (s.endActivation k).portM, portB := (s.endActivation k).portB } ∧
    (s.endActivation k).fault k = s.endedNow k ∧ s.chainFires (s.endActivation k) k .stop := by
  have hself : ((s.stamped k).fault k).state ≠ .armed := by
    rw [stamped_fault]
    exact ha
  have hothers {j : Fin 64} (hj : j ≠ k) : (s.stamped k).fault j = s.fault j := (updFault_fault _ j).trans (if_neg hj)
  have helectronic : (s.stamped k).listenersElectronic := by
    intro j i x hj ht
    have hne : j ≠ k := by
      rintro rfl
      exact hself hj
    rw [hothers hne] at hj ht ⊢
    exact hs j i x hj ht
  have hfired := produce_fired (k := k) (e := .stop) helectronic
  have hend := endActivation_of_electronic he ha
  rw [hend]
  generalize (s.stamped k).produce k .stop = w at hfired
  have hfault (j : Fin 64) : (((w.updFault k fun _ => s.endedNow k).raiseSet (s.endAnnounced k) .faultEvent).showFree
      (s.fault k).target).fault j = if j = k then s.endedNow k else w.fault j := by
    rw [showFree_fault, raiseSet_fault, updFault_fault]
  refine ⟨?_, (hfault k).trans (if_pos rfl), chainFires_of_fired hfired hself (fun j hj => ⟨hothers hj, ?_⟩) rfl
    fun j hj => (hfault j).trans (if_neg hj)⟩
  · rw [showFree_eq, hfired.rest]
    rfl
  · rw [State.activeNow, State.activeNow, hothers hj]
    rfl

/-! ## A trigger fires -/

theorem fire_fired (he : (s.fault k).kind.electronic = true) (hs : s.listenersElectronic) : Fired [k] s (s.fire k) :=
  fireFuel_fired 65 (armedSet_card_le s) hs fun _ => he

/-- The chain of the START event of an electronic record that its trigger fires (R83, R84, R94). -/
theorem fire_chain (ha : (s.fault k).state = .armed) (he : (s.fault k).kind.electronic = true)
    (hs : s.listenersElectronic) : s.chainFires (s.fire k) k .start := by
  have h := fire_fired he hs
  have hk : ((s.fire k).fault k).state = .active := h.roots k List.mem_cons_self ha
  generalize s.fire k = t at h hk
  intro j hj
  constructor
  · rintro ⟨hm, hja, i, x, ht, hcase⟩
    have hfired : (t.fault j).state = .active := by
      rcases hcase with ⟨rfl, rfl⟩ | ⟨-, rfl, hia, hit⟩
      · exact h.heard hm i j ha hk hja ht
      · exact h.heard hm i j hia hit hja ht
    rcases h.records j with hkeep | ⟨-, hfire⟩
    · rw [hkeep] at hfired
      exact absurd (hja.symm.trans hfired) (by decide)
    · exact hfire
  · intro hnot
    rcases h.records j with hkeep | ⟨hja, hfire⟩
    · exact hkeep
    · refine absurd ?_ hnot
      rcases h.caused j hja (by rw [hfire]; rfl) with hl | ⟨hm, i, hi, hi', ht⟩
      · exact absurd (List.mem_singleton.1 hl) hj
      · by_cases hik : i = k
        · exact ⟨hm, hja, i, .start, ht, .inl ⟨hik, rfl⟩⟩
        · exact ⟨hm, hja, i, .start, ht, .inr ⟨hik, rfl, hi, hi'⟩⟩

theorem enterActive_listeners (hl : ∀ j, (s.fault j).trigger = .onFault k .start → (s.fault j).state ≠ .armed) :
    (s.enterActive k).listeners k .start = [] := by
  rw [List.eq_nil_iff_forall_not_mem]
  intro j hj
  obtain ⟨-, ha, ht⟩ := mem_listeners.1 hj
  rw [enterActive_fault] at ha ht
  by_cases hjk : j = k
  · rw [if_pos hjk] at ha
    cases ha
  · rw [if_neg hjk] at ha ht
    exact hl j ht ha

/-- An electronic record fires with no listener of its START event (R70, R94). -/
theorem fire_of_no_listener (ha : (s.fault k).state = .armed) (he : (s.fault k).kind.electronic = true)
    (hl : ∀ j, (s.fault j).trigger = .onFault k .start → (s.fault j).state ≠ .armed) :
    s.fire k = ((s.updFault k fun _ => s.activeNow k).raiseSet (s.fault k).notify .faultEvent).showFree
      (s.fault k).target := by
  rw [State.fire, fireFuel_succ, if_pos ha, if_pos he, enterActive_listeners hl, List.foldl_nil,
    enterActive_of_electronic he]

/-! ## Events of electronic records -/

/-- After a change of records and notices alone the pin of a FREE channel follows (R107). -/
theorem showFree_showsAfter (c : Fin 24) (h : u.channels = s.channels) : s.showsAfter (u.showFree c) c := by
  have hchannel (d : Fin 24) : u.channel d = s.channel d := by rw [State.channel, State.channel, h]
  refine ⟨fun d hd => (showFree_channel_ne (Ne.symm hd)).trans (hchannel d), ?_⟩
  rw [showFree_channel, hchannel, effectiveRecord_congr (s := u) (u := u.showFree c) (by simp)]

theorem takeAtTime_fires {x : RigTime} (hm : s.run.mode = .run) (ha : (s.fault k).state = .armed)
    (hf : (s.fault k).fresh = false) (ht : (s.fault k).trigger = .atTime x) (hx : x.toNat ≤ s.rigTime.toNat) :
    s.takeAtTime k = s.fire k := by
  rw [State.takeAtTime]
  simp only [ht]
  exact if_pos ⟨hm, ha, hf, hx⟩

theorem takeOnCapture_fires {i : Fin 16} {d : EdgeSel} {n : Nat} (hm : s.run.mode = .run) (ha : (s.fault k).state = .armed)
    (hf : (s.fault k).fresh = false) (ht : (s.fault k).trigger = .onCapture i d n)
    (hn : (s.fault k).trigProgress = n) : s.takeOnCapture k = s.fire k := by
  rw [State.takeOnCapture]
  exact if_pos ⟨hm, (captureReady_of_trigger ht).2 ⟨ha, hf, hn⟩⟩

theorem takeDurationEnd_ends (ha : (s.fault k).state = .active) (ho : (s.fault k).durationOver = true)
    (he : (s.fault k).kind.electronic = true) : s.takeDurationEnd k = s.endActivation k := by
  rw [State.takeDurationEnd]
  exact (if_pos ⟨ha, ho⟩).trans (if_pos he)

/-- AT_TIME_TRIGGER or ON_CAPTURE_TRIGGER of record `k` is the event of its condition. -/
def State.triggers (s : State) (k : Fin 64) (c : Instr) (e : Event) : Prop :=
  c = .atTimeTrigger k ∧ e = .atTime k ∧ (∃ t, (s.fault k).trigger = .atTime t ∧ t.toNat ≤ s.rigTime.toNat) ∨
    c = .onCaptureTrigger k ∧ e = .onCapture k ∧
      ∃ i d n, (s.fault k).trigger = .onCapture i d n ∧ (s.fault k).trigProgress = n

theorem exec_of_triggers {c : Instr} (h : s.triggers k c x) (hx : x ∈ s.due) (hm : s.run.mode = .run)
    (ha : (s.fault k).state = .armed) (hf : (s.fault k).fresh = false) :
    exec c s = .next ((s.took x).fire k).settle := by
  rcases h with ⟨rfl, rfl, y, ht, hy⟩ | ⟨rfl, rfl, i, d, n, ht, hn⟩
  · have hfire : (s.took (.atTime k)).perform (.atTime k) = (s.took (.atTime k)).fire k :=
      takeAtTime_fires (s := s.took (.atTime k)) hm ha hf ht hy
    show Host.Outcome.next (s.takeEvent (.atTime k)) = _
    rw [State.takeEvent, if_pos hx, hfire]
  · have hfire : (s.took (.onCapture k)).perform (.onCapture k) = (s.took (.onCapture k)).fire k :=
      takeOnCapture_fires (s := s.took (.onCapture k)) hm ha hf ht hn
    show Host.Outcome.next (s.takeEvent (.onCapture k)) = _
    rw [State.takeEvent, if_pos hx, hfire]

theorem exec_durationEnd (hx : .durationEnd k ∈ s.due) (ha : (s.fault k).state = .active)
    (ho : (s.fault k).durationOver = true) (he : (s.fault k).kind.electronic = true) :
    exec (.durationEnd k) s = .next ((s.took (.durationEnd k)).endActivation k).settle := by
  have hend : (s.took (.durationEnd k)).perform (.durationEnd k) = (s.took (.durationEnd k)).endActivation k :=
    takeDurationEnd_ends (s := s.took (.durationEnd k)) ha ho he
  show Host.Outcome.next (s.takeEvent (.durationEnd k)) = _
  rw [State.takeEvent, if_pos hx, hend]

/-- Nothing but the records, the pins and the notices changes, so no pass of the wait list follows. -/
theorem settle_of_rest (hp : s.noPassAfter x) (h : t = { s.took x with
    faults := t.faults, channels := t.channels, portM := t.portM, portB := t.portB }) : t.settle = t :=
  settle_of_no_pass (by rw [h]; exact hp)

end Sys2Proof.Machine
end

section
/-! A record off the wait list that hears no fault event is left as it is by what fires and by the passes of the wait
list. -/

namespace Sys2Proof.Machine

variable {s t u : State} {j k : Fin 64} {r : FaultRecord} {e : FaultEvent} {why : FailReason}

/-- A record that no fault event fires: it is not ARMED, or its trigger is of another kind (R83). -/
def deaf (r : FaultRecord) : Prop := r.state = .armed → ∀ i x, r.trigger ≠ .onFault i x

/-- Record `j` is `r` and stands aside of the wait list. -/
structure Aside (j : Fin 64) (r : FaultRecord) (s : State) : Prop where
  record : s.fault j = r
  waits : j ∉ s.waitList
  joins : j ∉ s.joining

namespace Aside

theorem of_fields (h : Aside j r s) (hf : t.faults = s.faults) (hw : t.waitList = s.waitList) (hj : t.joining = s.joining) :
    Aside j r t := ⟨(fault_of_faults hf j).trans h.record, hw ▸ h.waits, hj ▸ h.joins⟩

theorem updFault (h : Aside j r s) (hk : k ≠ j) (f : FaultRecord → FaultRecord) : Aside j r (s.updFault k f) :=
  ⟨(updFault_fault f j).trans ((if_neg hk.symm).trans h.record), h.waits, h.joins⟩

theorem raiseSet (h : Aside j r s) (l : PortSet) (n : Notice) : Aside j r (s.raiseSet l n) := h.of_fields rfl rfl rfl

theorem showFree (h : Aside j r s) (c : Fin 24) : Aside j r (s.showFree c) := h.of_fields (by simp) (by simp) (by simp)

theorem enterDone (h : Aside j r s) (hk : k ≠ j) : Aside j r (s.enterDone k) := (h.updFault hk _).raiseSet _ _

theorem enterFailed (h : Aside j r s) (hk : k ≠ j) : Aside j r (s.enterFailed k why) := (h.updFault hk _).raiseSet _ _

theorem enterActive (h : Aside j r s) (hk : k ≠ j) : Aside j r (s.enterActive k) := by
  unfold State.enterActive
  dsimp only
  split
  · exact ((h.updFault hk _).raiseSet _ _).showFree _
  · exact (h.updFault hk _).raiseSet _ _

theorem joined (h : Aside j r s) (hk : k ≠ j) : Aside j r (s.joined k) where
  record := (h.updFault hk _).record
  waits := h.waits
  joins hin := (mem_insertIndex.1 hin).elim hk.symm h.joins

theorem not_listener (h : Aside j r s) (hr : deaf r) : ∀ i ∈ s.listeners k e, i ≠ j := by
  rintro i hi rfl
  obtain ⟨-, ha, ht⟩ := mem_listeners.1 hi
  rw [h.record] at ha ht
  exact hr ha _ _ ht

theorem fireFuel (hr : deaf r) (n : Nat) : ∀ {s : State} {k : Fin 64}, Aside j r s → k ≠ j →
    Aside j r (fireFuel n s k) := by
  induction n with
  | zero => exact fun h _ => h
  | succ n ih =>
    intro s k h hk
    have hfold (l : List (Fin 64)) : ∀ u : State, Aside j r u → (∀ i ∈ l, i ≠ j) →
        Aside j r (l.foldl (Machine.fireFuel n) u) := by
      induction l with
      | nil => exact fun _ hu _ => hu
      | cons i l ihl =>
        intro u hu hl
        exact ihl _ (ih hu (hl i List.mem_cons_self)) fun x hx => hl x (List.mem_cons_of_mem _ hx)
    rw [fireFuel_succ]
    split_ifs
    · exact hfold _ _ (h.enterActive hk) ((h.enterActive hk).not_listener hr)
    · exact h.enterFailed hk
    · exact h.joined hk
    · exact h

theorem fireAll (hr : deaf r) (l : List (Fin 64)) (hl : ∀ i ∈ l, i ≠ j) : ∀ {s : State}, Aside j r s →
    Aside j r (l.foldl State.fire s) := by
  induction l with
  | nil => exact fun h => h
  | cons i l ih =>
    intro s h
    exact ih (fun x hx => hl x (List.mem_cons_of_mem _ hx)) (h.fireFuel hr 65 (hl i List.mem_cons_self))

theorem produce (h : Aside j r s) (hr : deaf r) : Aside j r (s.produce k e) := h.fireAll hr _ (h.not_listener hr)

theorem endActivation (h : Aside j r s) (hr : deaf r) (hk : k ≠ j) : Aside j r (s.endActivation k) := by
  have hended : Aside j r (((s.stamped k).produce k .stop).rearmedOrDone k) := by
    have hproduced : Aside j r ((s.stamped k).produce k .stop) := (h.updFault hk _).produce hr
    unfold State.rearmedOrDone
    split
    · exact hproduced.updFault hk _
    · exact hproduced.enterDone hk
  rw [endActivation_eq]
  split
  · exact hended.showFree _
  · exact hended

theorem goOn (h : Aside j r s) (hk : k ≠ j) (b : Bool) (i : Nat) {done : State → Fin 64 → State}
    (hdone : ∀ u : State, Aside j r u → Aside j r (done u k)) : Aside j r (s.goOn k b i done) := by
  have hrun (l : List (List Wish)) : Aside j r (runSteps s i l).1 := by
    rw [runSteps_eq]
    exact h.of_fields rfl rfl rfl
  unfold State.goOn
  dsimp only
  split
  · exact (hrun _).updFault hk _
  · exact hdone _ (hrun _)

theorem stopComplete (h : Aside j r s) (hr : deaf r) (hk : k ≠ j) : Aside j r (s.stopComplete k) :=
  Aside.endActivation (s := (s.unsequenced k).releaseHolders k)
    (Aside.of_fields (s := s.unsequenced k) (h.updFault hk _) (by simp) (by simp) (by simp)) hr hk

theorem beginStop (h : Aside j r s) (hr : deaf r) (hk : k ≠ j) : Aside j r (s.beginStop k) :=
  (h.updFault hk _).goOn hk true 0 fun _ hu => hu.stopComplete hr hk

theorem startComplete (h : Aside j r s) (hr : deaf r) (hk : k ≠ j) : Aside j r (s.startComplete k) := by
  have hactive : Aside j r (((s.unsequenced k).enterActive k).produce k .start) :=
    ((h.updFault hk _).enterActive hk).produce hr
  rw [startComplete_eq]
  split
  · exact hactive.beginStop hr hk
  · exact hactive

theorem beginStart (h : Aside j r s) (hr : deaf r) (hk : k ≠ j) : Aside j r (s.beginStart k) :=
  (h.updFault hk _).goOn hk false 0 fun _ hu => hu.startComplete hr hk

theorem heldBy (h : Aside j r s) : Aside j r (s.heldBy k) :=
  h.of_fields (by simp [State.heldBy]) (by simp [State.heldBy]) (by simp [State.heldBy])

theorem withBus (h : Aside j r s) (hk : k ≠ j) (b : Bus) : Aside j r (s.withBus k b) :=
  (h.updFault hk fun f => { f with bus := some b }).of_fields rfl rfl rfl

theorem take (h : Aside j r s) (hr : deaf r) (hk : k ≠ j) : Aside j r (s.take k) := by
  have hheld : Aside j r (s.heldBy k) := h.heldBy
  rw [take_eq]
  split_ifs
  · exact h.enterFailed hk
  · exact h.enterFailed hk
  · refine Aside.beginStart ?_ hr hk
    unfold State.withFreeBus
    split
    · exact hheld.withBus hk _
    · exact hheld
  · exact hheld.beginStart hr hk

/-- A pass of the wait list does not come to a record that stands aside (R97). -/
theorem examine (h : Aside j r s) (hr : deaf r) : Aside j r s.examine := by
  have hpass (l : List (Fin 64)) : ∀ acc : State × List (Fin 64), Aside j r acc.1 → j ∉ l → j ∉ acc.2 →
      Aside j r (l.foldl examineOne acc).1 ∧ j ∉ (l.foldl examineOne acc).2 := by
    induction l with
    | nil => exact fun _ hu _ hkept => ⟨hu, hkept⟩
    | cons k l ih =>
      intro acc hu hl hkept
      obtain ⟨hk, hl⟩ := List.ne_and_not_mem_of_not_mem_cons hl
      have hone : Aside j r (examineOne acc k).1 ∧ j ∉ (examineOne acc k).2 := by
        unfold examineOne
        dsimp only
        split
        · exact ⟨hu.take hr hk.symm, hkept⟩
        · exact ⟨hu, by simp [hkept, hk]⟩
      exact ih _ hone.1 hl hone.2
  have hwhole : j ∉ s.wholeList := by
    rw [State.wholeList, List.mem_append, not_or]
    exact ⟨h.waits, h.joins⟩
  obtain ⟨hrest, hkept⟩ := hpass s.wholeList ({ s with waitList := [], joining := [], examineDue := false }, [])
    ⟨h.record, List.not_mem_nil, List.not_mem_nil⟩ hwhole List.not_mem_nil
  refine ⟨hrest.record, fun hin => ?_, hrest.joins⟩
  exact (List.mem_append.1 hin).elim hkept hrest.waits

theorem settle (h : Aside j r s) (hr : deaf r) : Aside j r s.settle := by
  have hfuel (n : Nat) : ∀ {u : State}, Aside j r u → Aside j r (settleFuel n u) := by
    induction n with
    | zero => exact fun hu => hu
    | succ n ih =>
      intro u hu
      unfold settleFuel
      split
      · exact ih (hu.examine hr)
      · exact hu
  exact hfuel 65 h

end Aside

/-! ## A trigger that no other fires -/

theorem fire_fault_self (ha : (s.fault k).state = .armed) (he : (s.fault k).kind.electronic = true) :
    (s.fire k).fault k = s.activeNow k := by
  have hself : (s.enterActive k).fault k = s.activeNow k := (enterActive_fault k).trans (if_pos rfl)
  have hfold (l : List (Fin 64)) : ∀ {u : State}, (u.fault k).state ≠ .armed →
      (l.foldl (fireFuel 64) u).fault k = u.fault k := by
    induction l with
    | nil => exact fun _ => rfl
    | cons i l ih =>
      intro u hu
      have hone := fireFuel_fault_of_not_armed 64 (s := u) (k := i) hu
      rw [List.foldl_cons, ih (by rw [hone]; exact hu), hone]
  rw [State.fire, fireFuel_succ, if_pos ha, if_pos he, hfold _ (by rw [hself]; nofun), hself]

theorem fire_sticky (ha : (s.fault k).state = .armed) (he : (s.fault k).kind.electronic = true) {p : Port}
    (hp : names (s.fault k).notify p = true) : ((s.fire k).port p).sticky.getLsbD 2 = true := by
  rw [State.fire, fireFuel_succ, if_pos ha, if_pos he]
  have hunmoved := unmoved_sticky p 2
  have hactive : ((s.enterActive k).port p).sticky.getLsbD 2 = true := by
    rw [enterActive_of_electronic he]
    refine hunmoved.shown ((s.updFault k fun _ => s.activeNow k).raiseSet (s.fault k).notify .faultEvent) _ ?_
    rw [raiseSet_port, if_pos hp]
    exact raise_sticky_self _ .faultEvent
  generalize s.enterActive k = u at hactive
  exact Unmoved.foldl (P := fun u => (u.port p).sticky.getLsbD 2 = true) (fun _ _ hu => hunmoved.fireFuel 64 hu) _ hactive

end Sys2Proof.Machine
end

section
/-! O34: the triggers of electronic records. -/

namespace Sys2Proof.Machine

variable {s t u : State} {j k : Fin 64} {r : FaultRecord} {e : FaultEvent} {x : Event}

/-! ## AT_ANGLE triggers (R80) -/

theorem reaches_iff {a b d : Nat} {cycle : Option Half} {c c' : Half} : reaches a cycle b d c c' = true ↔
    ∃ j, 1 ≤ j ∧ j ≤ d ∧ (b + j) % 11520 = a ∧ (cycle = none ∨ cycle = some (if b + j ≤ 11519 then c else c')) := by
  have hcycle (v : Half) : (match cycle with
      | none => true
      | some n => n == v) = true ↔ cycle = none ∨ cycle = some v := by
    cases cycle <;> simp
  unfold reaches
  rw [List.any_eq_true]
  constructor
  · rintro ⟨i, hi, hreach⟩
    rw [Bool.and_eq_true, beq_iff_eq] at hreach
    exact ⟨i + 1, by omega, by have := List.mem_range.1 hi; omega, hreach.1, (hcycle _).1 hreach.2⟩
  · rintro ⟨i, hone, hi, hangle, hc⟩
    obtain ⟨i, rfl⟩ : ∃ m, i = m + 1 := ⟨i - 1, by omega⟩
    exact ⟨i, List.mem_range.2 (by omega), by rw [Bool.and_eq_true, beq_iff_eq]; exact ⟨hangle, (hcycle _).2 hc⟩⟩

/-- The AT_ANGLE triggers that a tick reaches, in ascending index. -/
def State.reached (s : State) (b d : Nat) (c c' : Half) : List (Fin 64) :=
  (List.finRange 64).filter fun k => (s.fault k).state == .armed &&
    match (s.fault k).trigger with
    | .atAngle cycle a => reaches a cycle b d c c'
    | .atTime _ | .onCapture _ _ _ | .onFault _ _ => false

theorem mem_reached {b d : Nat} {c c' : Half} : k ∈ s.reached b d c c' ↔ (s.fault k).state = .armed ∧
    ∃ cycle a, (s.fault k).trigger = .atAngle cycle a ∧ reaches a cycle b d c c' = true := by
  rw [State.reached, List.mem_filter, Bool.and_eq_true, beq_iff_eq]
  cases (s.fault k).trigger <;> simp

theorem reached_nodup {b d : Nat} {c c' : Half} : (s.reached b d c c').Nodup := (List.nodup_finRange 64).filter _

theorem fireAtAngle_eq {b d : Nat} {c c' : Half} (hm : s.run.mode = .run) :
    s.fireAtAngle b d c c' = (s.reached b d c c').foldl State.fire s := if_pos hm

theorem deaf_activeNow : deaf (s.activeNow k) := fun h => nomatch h

/-- An electronic record fires and stands aside of the wait list. -/
theorem Aside.fire_self (h : Aside k r s) (ha : r.state = .armed) (he : r.kind.electronic = true) :
    Aside k (s.activeNow k) (s.fire k) := by
  have hdeaf : deaf (s.activeNow k) := deaf_activeNow
  have harmed : (s.fault k).state = .armed := by rw [h.record]; exact ha
  have helectronic : (s.fault k).kind.electronic = true := by rw [h.record]; exact he
  have hactive : Aside k (s.activeNow k) (s.enterActive k) := by
    refine ⟨(enterActive_fault k).trans (if_pos rfl), ?_, ?_⟩
    · rw [enterActive_rest]
      exact h.waits
    · rw [enterActive_rest]
      exact h.joins
  have hfold (l : List (Fin 64)) : ∀ u : State, Aside k (s.activeNow k) u → (∀ i ∈ l, i ≠ k) →
      Aside k (s.activeNow k) (l.foldl (Machine.fireFuel 64) u) := by
    induction l with
    | nil => exact fun _ hu _ => hu
    | cons i l ih =>
      intro u hu hl
      exact ih _ (hu.fireFuel hdeaf 64 (hl i List.mem_cons_self)) fun x hx => hl x (List.mem_cons_of_mem _ hx)
  rw [State.fire, fireFuel_succ, if_pos harmed, if_pos helectronic]
  exact hfold _ _ hactive (hactive.not_listener hdeaf)

/-- An AT_ANGLE trigger of an electronic record at a tick that reaches its angle. -/
theorem Aside.reached_fires {b d : Nat} {c c' : Half} (h : Aside k r s) (hm : s.run.mode = .run)
    (he : r.kind.electronic = true) (hk : k ∈ s.reached b d c c') :
    ∃ y, Aside k y (s.fireAtAngle b d c c') ∧ y.state = .active ∧ y.durProgress = 0 ∧ y.target = r.target ∧
      y.startStamp = some ⟨s.rigTime, angleCount s.angle.phase, s.angle.cycle⟩ ∧
      ∀ p, names r.notify p = true → ((s.fireAtAngle b d c c').port p).sticky.getLsbD 2 = true := by
  obtain ⟨harmed, cycle, a, htrigger, -⟩ := mem_reached.1 hk
  rw [h.record] at harmed htrigger
  have hdeaf : deaf r := fun _ i y => by rw [htrigger]; nofun
  obtain ⟨l, l', hl⟩ := List.append_of_mem hk
  have hnodup := reached_nodup (s := s) (b := b) (d := d) (c := c) (c' := c')
  rw [hl, List.nodup_middle, List.nodup_cons, List.mem_append, not_or] at hnodup
  obtain ⟨hbefore, hafter⟩ := hnodup.1
  rw [fireAtAngle_eq hm, hl, List.foldl_append, List.foldl_cons]
  have hu := h.fireAll hdeaf l fun i hi hik => hbefore (by rw [← hik]; exact hi)
  have htime : (l.foldl State.fire s).rigTime = s.rigTime :=
    foldl_keeps (fun u : State => u.rigTime) _ (fun u i => by simp [State.fire]) l s
  have hangle : (l.foldl State.fire s).angle = s.angle :=
    foldl_keeps (fun u : State => u.angle) _ (fun u i => by simp [State.fire]) l s
  generalize l.foldl State.fire s = u at hu htime hangle
  have hfired := hu.fire_self harmed he
  have hsticky {p : Port} (hp : names r.notify p = true) : ((u.fire k).port p).sticky.getLsbD 2 = true :=
    fire_sticky (by rw [hu.record]; exact harmed) (by rw [hu.record]; exact he) (by rw [hu.record]; exact hp)
  refine ⟨u.activeNow k, hfired.fireAll deaf_activeNow l' fun i hi hik => hafter (by rw [← hik]; exact hi), rfl, rfl, ?_, ?_, fun p hp => ?_⟩
  · rw [State.activeNow, hu.record]
  · rw [State.activeNow, htime, hangle]
  · have := hsticky hp
    generalize u.fire k = v at this
    exact Unmoved.foldl (P := fun u => (u.port p).sticky.getLsbD 2 = true)
      (fun _ _ hv => (unmoved_sticky p 2).fire hv) l' this

theorem Aside.not_reached {b d : Nat} {c c' : Half} (h : Aside k r s) (hr : deaf r) (hk : k ∉ s.reached b d c c') :
    Aside k r (s.fireAtAngle b d c c') := by
  by_cases hm : s.run.mode = .run
  · rw [fireAtAngle_eq hm]
    exact h.fireAll hr _ fun i hi hik => hk (by rw [← hik]; exact hi)
  · rw [State.fireAtAngle, if_neg hm]
    exact h

/-! ## A tick of a record that stands aside -/

theorem Aside.tickCounted (h : Aside k r s) : Aside k (tickRecord s.advanceNow s.wraps r) s.tickCounted := by
  refine ⟨?_, ?_, ?_⟩
  · rw [tickCounted_fault, h.record]
  · have hwait : s.tickCounted.waitList = s.waitList := by simp [State.tickCounted, State.tickPlayed, State.clocked]
    rw [hwait]
    exact h.waits
  · have hjoin : s.tickCounted.joining = s.joining := by simp [State.tickCounted, State.tickPlayed, State.clocked]
    rw [hjoin]
    exact h.joins

theorem tickSampled_table (s : State) : s.tickSampled.faults = s.tickFired.faults ∧
    s.tickSampled.waitList = s.tickFired.waitList ∧ s.tickSampled.joining = s.tickFired.joining := by
  refine ⟨?_, ?_, ?_⟩ <;> simp [State.tickSampled, State.tickGridded]

theorem tickSampled_port (s : State) (p : Port) : s.tickSampled.port p = s.tickFired.port p := by
  cases p <;> simp [State.tickSampled, State.tickGridded, State.port]

/-- What the AT_ANGLE triggers have left of a record that stands aside, the rest of the tick leaves. -/
theorem Aside.makeTick (h : Aside k r s.tickFired) (hr : deaf r) : s.makeTick.fault k = r := by
  obtain ⟨hfaults, hwait, hjoin⟩ := tickSampled_table s
  rw [makeTick_eq]
  exact ((h.of_fields hfaults hwait hjoin).settle hr).record

theorem makeTick_sticky {p : Port} (h : (s.tickFired.port p).sticky.getLsbD 2 = true) :
    (s.makeTick.port p).sticky.getLsbD 2 = true := by
  rw [makeTick_eq]
  exact (unmoved_sticky p 2).settle (s := s.tickSampled) (by rw [tickSampled_port]; exact h)

/-! ## O34 -/

/-- The tick at a closed instant, of an ARMED electronic record with an AT_ANGLE trigger (R80). -/
theorem angleTick_fires {l : List PinChange} {cycle : Option Half} {a : Nat} (hr : s.pins.resetLine = false)
    (hdue : s.due = []) (hhalf : s.halfDone = true) (hm : s.run.mode = .run) (ha : (s.fault k).state = .armed)
    (ht : (s.fault k).trigger = .atAngle cycle a) (he : (s.fault k).kind.electronic = true) (hk : k ∉ s.wholeList) :
    ∃ (t : State) (d : Nat), exec (.rigTick l) s = .next t ∧
      d = angleAdvance (angleCount s.angle.phase) (angleCount t.angle.phase) ∧
      (reaches a cycle (angleCount s.angle.phase) d s.angle.cycle t.angle.cycle = true →
        (t.fault k).state = .active ∧ (t.fault k).durProgress = 0 ∧ (t.fault k).target = (s.fault k).target ∧
        (t.fault k).startStamp = some ⟨t.rigTime, angleCount t.angle.phase, t.angle.cycle⟩ ∧
        ∀ p, names (s.fault k).notify p = true → (t.port p).sticky.getLsbD 2 = true) ∧
      (¬reaches a cycle (angleCount s.angle.phase) d s.angle.cycle t.angle.cycle = true →
        t.fault k = { s.fault k with fresh := false }) := by
  obtain ⟨hwait, hjoin⟩ := not_or.1 (mt List.mem_append.2 hk)
  obtain ⟨htime, -, hangle, -⟩ := makeTick_clock (s.changePins l)
  have haside : Aside k (s.fault k) (s.changePins l) := ⟨rfl, hwait, hjoin⟩
  have hcounted := haside.tickCounted
  have hrecord : tickRecord (s.changePins l).advanceNow (s.changePins l).wraps (s.fault k) =
      { s.fault k with fresh := false } := by
    rw [tickRecord, if_neg (by rw [ha]; nofun)]
  rw [hrecord] at hcounted
  have hmode : (s.changePins l).tickCounted.run.mode = .run := by
    have hrun : (s.changePins l).tickCounted.run = s.run := by simp [State.tickCounted, State.tickPlayed, State.changePins]
    rw [hrun]
    exact hm
  have hclock : (s.changePins l).tickCounted.rigTime = (s.changePins l).makeTick.rigTime ∧
      (s.changePins l).tickCounted.angle = (s.changePins l).makeTick.angle := by
    rw [htime, hangle]
    constructor <;> simp [State.tickCounted, State.tickPlayed, State.clocked]
  have hadvance : (s.changePins l).advanceNow = angleAdvance (angleCount s.angle.phase)
      (angleCount (s.changePins l).makeTick.angle.phase) := by
    rw [hangle]
    rfl
  have hreached : k ∈ (s.changePins l).tickCounted.reached (angleCount s.angle.phase) (s.changePins l).advanceNow
      s.angle.cycle (s.changePins l).makeTick.angle.cycle ↔
        reaches a cycle (angleCount s.angle.phase) (s.changePins l).advanceNow s.angle.cycle
          (s.changePins l).makeTick.angle.cycle = true := by
    rw [mem_reached, hcounted.record]
    constructor
    · rintro ⟨-, y, b, hy, hreach⟩
      obtain ⟨rfl, rfl⟩ : cycle = y ∧ a = b := by simpa using ht.symm.trans hy
      exact hreach
    · exact fun hreach => ⟨ha, cycle, a, ht, hreach⟩
  have hfired : (s.changePins l).tickFired = (s.changePins l).tickCounted.fireAtAngle (angleCount s.angle.phase)
      (s.changePins l).advanceNow s.angle.cycle (s.changePins l).makeTick.angle.cycle := by
    rw [← hclock.2]
    rfl
  refine ⟨_, _, congrArg Host.Outcome.next (tick_of_closed l hr hdue hhalf), hadvance, fun hreach => ?_, fun hreach => ?_⟩
  · obtain ⟨y, hy, hstate, hprogress, htarget, hstamp, hsticky⟩ :=
      hcounted.reached_fires hmode he (hreached.2 hreach)
    rw [← hfired] at hy hsticky
    rw [hy.makeTick fun h => absurd (hstate.symm.trans h) (by decide), ← hclock.1, ← hclock.2]
    exact ⟨hstate, hprogress, htarget, hstamp, fun p hp => makeTick_sticky (hsticky p hp)⟩
  · have hdeaf : deaf { s.fault k with fresh := false } := fun _ i y => by rw [ht]; nofun
    have hy := hcounted.not_reached hdeaf (mt hreached.1 hreach)
    rw [← hfired] at hy
    exact hy.makeTick hdeaf

/-- Settles O34. -/
theorem electronicTriggersFire : Obligations.ElectronicTriggersFire := by
  refine ⟨fun s k e c htrigger hdue hpass hm ha hf he hl => ?_, fun s l k cycle a hr hdue hhalf _ hm ha ht he hk => ?_,
    fun s k e c x hx hpass hm he hs hcase => ?_, fun s k h => congrArg Host.Outcome.next (takeEvent_of_not_due h),
    fun s k h => congrArg Host.Outcome.next (takeEvent_of_not_due h)⟩
  · have hfire := fire_of_no_listener (s := s.took e) ha he hl
    have hrecord : (s.took e).updFault k (fun r =>
        { r with
          state := .active
          startStamp := some ⟨s.rigTime, angleCount s.angle.phase, s.angle.cycle⟩
          durProgress := 0
          frozen := if r.kind = FaultKind.freeze then some (s.channel r.target).lastOutput else none
          fresh := true }) = (s.took e).updFault k fun _ => (s.took e).activeNow k := updFault_congr rfl
    have hrest : (s.took e).fire k = { (((s.took e).updFault k fun _ => (s.took e).activeNow k).raiseSet
        (s.fault k).notify .faultEvent) with channels := ((s.took e).fire k).channels } := by
      rw [hfire, showFree_eq]
      rfl
    refine ⟨(s.took e).fire k, ?_, hrest.trans ?_, ?_⟩
    · rw [exec_of_triggers htrigger hdue hm ha hf, settle_of_rest hpass (by rw [hrest]; rfl)]
    · rw [← hrecord]
      rfl
    · rw [hfire]
      exact showFree_showsAfter (s := s) _ rfl
  · obtain ⟨t, d, hexec, hd, hfires, hstays⟩ := angleTick_fires (l := l) hr hdue hhalf hm ha ht he hk
    rw [reaches_iff] at hfires hstays
    refine ⟨t, d, hexec, hd, fun h => ?_, hstays⟩
    obtain ⟨hstate, hprogress, htarget, hstamp, hsticky⟩ := hfires h
    exact ⟨hstate, hprogress, htarget, hstamp, fun p hp => hsticky p (by cases p <;> exact hp)⟩
  · have hchain : ∀ c, s.triggers k c x → (s.fault k).state = .armed → (s.fault k).fresh = false →
        ∃ t : State, exec c s = .next t ∧ s.chainFires t k .start := by
      intro c htrigger ha hf
      have hfired := fire_fired (s := s.took x) he hs
      refine ⟨(s.took x).fire k, ?_, fire_chain (s := s.took x) ha he hs⟩
      rw [exec_of_triggers htrigger hx hm ha hf, settle_of_rest hpass hfired.rest]
    rcases hcase with ⟨rfl, rfl, rfl, ha, hf, ht⟩ | ⟨rfl, rfl, rfl, ha, hf, ht⟩ | ⟨rfl, rfl, rfl, ha, ho⟩
    · exact hchain _ (.inl ⟨rfl, rfl, ht⟩) ha hf
    · exact hchain _ (.inr ⟨rfl, rfl, ht⟩) ha hf
    · obtain ⟨hrest, -, hends⟩ := endActivation_chain (s := s.took (.durationEnd k)) he
        (fun h => absurd (ha.symm.trans h) (by decide)) hs
      refine ⟨(s.took (.durationEnd k)).endActivation k, ?_, hends⟩
      rw [exec_durationEnd hx ha ho he, settle_of_rest hpass hrest]

end Sys2Proof.Machine
end

section
/-! Steps of a sequence as they are commanded (R51, R54), and O36. -/

namespace Sys2Proof

/-- A relay as its movement is commanded (R48). -/
def RelayTiming.commands (t : RelayTiming) (pos : Position) : Relay :=
  { state := pos.moving, failed := false, movement := some ⟨0, t.settle, t.timeout⟩ }

end Sys2Proof

namespace Sys2Proof.Machine

variable {s t u : State} {j k : Fin 64} {c d : Fin 24} {n : RelayName} {pos : Position} {l : List Wish}

/-! ## The step of a sequence -/

/-- A relay that a wish commands: it is at rest, and not there with nothing in doubt (R48, R51). -/
def State.open (s : State) (w : Wish) : Prop := (s.relay w).state.moving = false ∧
  ((s.relay w).state ≠ w.2.2.rest ∨ (s.relay w).failed = true)

theorem moving_moving (pos : Position) : pos.moving.moving = true := by cases pos <;> rfl

theorem get_upd (x : PerRelay Relay) (m n : RelayName) (f : Relay → Relay) :
    (x.upd m f).get n = if m = n then f (x.get n) else x.get n := by
  cases m <;> cases n <;> rfl

theorem upd_congr {x : PerRelay Relay} {f g : Relay → Relay} (h : f (x.get n) = g (x.get n)) : x.upd n f = x.upd n g := by
  cases n <;> simp only [PerRelay.get] at h <;> simp only [PerRelay.upd, h]

theorem wish_relaySet (w : Wish) (c : Fin 24) : (s.wish w).relaySet c = { s.relaySet c with
    relays := ((s.wish w).relaySet c).relays } := by
  rw [State.wish, State.updRelaySet_relaySet]
  split_ifs with h
  · rw [h]
  · rfl

theorem wish_relay (w : Wish) (c : Fin 24) (n : RelayName) : ((s.wish w).relaySet c).relays.get n =
    if w.1 = c ∧ w.2.1 = n then (s.relay w).want s.timing w.2.2 else (s.relaySet c).relays.get n := by
  rw [State.wish, State.updRelaySet_relaySet]
  by_cases hc : w.1 = c
  · subst hc
    by_cases hn : w.2.1 = n
    · subst hn
      simp [get_upd, State.relay]
    · simp [get_upd, hn]
  · simp [hc]

/-- Wishes of a step that name different relays. -/
def apart (v w : Wish) : Prop := ¬(v.1 = w.1 ∧ v.2.1 = w.2.1)

theorem wish_timing (w : Wish) : (s.wish w).timing = s.timing := rfl

theorem runStep_relaySet (l : List Wish) (s : State) (c : Fin 24) : (s.runStep l).relaySet c = { s.relaySet c with
    relays := ((s.runStep l).relaySet c).relays } := by
  induction l generalizing s with
  | nil => rfl
  | cons w l ih =>
    show ((s.wish w).runStep l).relaySet c = { s.relaySet c with relays := (((s.wish w).runStep l).relaySet c).relays }
    rw [ih (s.wish w), wish_relaySet w c]

/-- A relay that no wish of the step names is left as it is. -/
theorem runStep_unnamed {l : List Wish} (h : ∀ w ∈ l, ¬(w.1 = c ∧ w.2.1 = n)) :
    ((s.runStep l).relaySet c).relays.get n = (s.relaySet c).relays.get n := by
  induction l generalizing s with
  | nil => rfl
  | cons w l ih =>
    show (((s.wish w).runStep l).relaySet c).relays.get n = _
    rw [ih fun v hv => h v (List.mem_cons_of_mem _ hv), wish_relay, if_neg (h w List.mem_cons_self)]

/-- What a step wants of a relay that it names once (R51). -/
theorem runStep_named {l : List Wish} (hl : l.Pairwise apart) {w : Wish} (hw : w ∈ l) :
    (s.runStep l).relay w = (s.relay w).want s.timing w.2.2 := by
  induction l generalizing s with
  | nil => cases hw
  | cons v l ih =>
    obtain ⟨hv, hrest⟩ := List.pairwise_cons.1 hl
    show ((s.wish v).runStep l).relay w = _
    rcases List.mem_cons.1 hw with rfl | hin
    · have hnot : ∀ y ∈ l, ¬(y.1 = w.1 ∧ y.2.1 = w.2.1) := fun y hy h => hv y hy ⟨h.1.symm, h.2.symm⟩
      rw [State.relay, runStep_unnamed hnot, wish_relay, if_pos ⟨rfl, rfl⟩]
    · have hstay : (s.wish v).relay w = s.relay w := (wish_relay v w.1 w.2.1).trans (if_neg (hv w hin))
      rw [ih hrest hin, hstay]
      rfl

theorem want_of_open {w : Wish} (h : s.open w) : (s.relay w).want s.timing w.2.2 = s.timing.commands w.2.2 :=
  want_of_not_confirmed h.1 h.2

/-- A step with a relay that it commands is in flight. -/
theorem stepMoving_of_open (hl : l.Pairwise apart) {w : Wish} (hw : w ∈ l) (h : s.open w) :
    (s.runStep l).stepMoving l = true := by
  refine List.any_eq_true.2 ⟨w, hw, ?_⟩
  rw [runStep_named hl hw, want_of_open h]
  exact moving_moving _

theorem runStep_updFault (f : FaultRecord → FaultRecord) (l : List Wish) (s : State) :
    (s.updFault k f).runStep l = (s.runStep l).updFault k f := by
  induction l generalizing s with
  | nil => rfl
  | cons w l ih => exact ih (s.wish w)

theorem goOn_first {b : Bool} {done : State → Fin 64 → State} {rest : List (List Wish)}
    (hsteps : sequenceSteps (s.fault k) b = l :: rest) (h : (s.runStep l).stepMoving l = true) :
    s.goOn k b 0 done = (s.runStep l).updFault k fun r => { r with seq := some ⟨b, 0⟩ } := by
  unfold State.goOn
  dsimp only
  rw [hsteps, List.drop_zero, runSteps_first h]

/-- A stop sequence whose first step commands a movement (R54, R100). -/
theorem beginStop_first {rest : List (List Wish)} (hsteps : stopSteps (s.fault k) = l :: rest) (hl : l.Pairwise apart)
    {w : Wish} (hw : w ∈ l) (h : s.open w) : s.beginStop k =
      (s.runStep l).updFault k fun r => { r with state := .stopping, seq := some ⟨true, 0⟩ } := by
  have hself : (s.updFault k fun r => { r with state := .stopping }).fault k = { s.fault k with state := .stopping } :=
    (updFault_fault _ k).trans (if_pos rfl)
  have hmove : ((s.updFault k fun r => { r with state := .stopping }).runStep l).stepMoving l = true := by
    rw [runStep_updFault]
    exact stepMoving_of_open hl hw h
  rw [State.beginStop, goOn_first (by rw [hself]; exact hsteps) hmove, runStep_updFault, updFault_updFault]

/-! ## The first stop step, by the kind of the record -/

/-- The stop sequence of a record on one channel begins at the relay that its kind closes or opens (R54). -/
theorem stopSteps_single {r : FaultRecord} (h : r.kind = .openWire ∧ n = .path ∧ pos = .closed ∨
    r.kind = .shortGnd ∧ n = .gnd ∧ pos = .opened ∨ r.kind = .shortBat ∧ n = .bat ∧ pos = .opened) :
    ∃ rest, stopSteps r = [(r.target, n, pos)] :: rest := by
  unfold stopSteps
  rcases h with ⟨h, rfl, rfl⟩ | ⟨h, rfl, rfl⟩ | ⟨h, rfl, rfl⟩ <;> exact ⟨_, by rw [h]⟩

theorem runStep_single : s.runStep [(c, n, pos)] = s.updRelaySet c fun x =>
    { x with relays := x.relays.upd n (Relay.want s.timing pos) } := rfl

theorem runStep_single_open (h : s.open (c, n, pos)) : s.runStep [(c, n, pos)] = s.updRelaySet c fun x =>
    { x with relays := x.relays.upd n fun _ => s.timing.commands pos } := by
  rw [runStep_single]
  refine updRelaySet_congr ?_
  have hwant : ((s.relaySet c).relays.get n).want s.timing pos = s.timing.commands pos := want_of_open h
  have hupd : (s.relaySet c).relays.upd n (Relay.want s.timing pos) =
      (s.relaySet c).relays.upd n fun _ => s.timing.commands pos := upd_congr hwant
  rw [hupd]

theorem perRelay_ext {x y : PerRelay Relay} (h : ∀ n, x.get n = y.get n) : x = y := by
  obtain ⟨a, b, c, d, e⟩ := x
  obtain ⟨a', b', c', d', e'⟩ := y
  obtain rfl : a = a' := h .path
  obtain rfl : b = b' := h .gnd
  obtain rfl : c = c' := h .bat
  obtain rfl : d = d' := h .x0
  obtain rfl : e = e' := h .x1
  rfl

/-- A step of a PIN_SHORT record that commands the same relay of both its channels (R54). -/
theorem runStep_pair {p : Fin 24} (hp : p ≠ c) (hc : s.open (c, n, pos)) (ho : s.open (p, n, pos)) (d : Fin 24) :
    (s.runStep [(c, n, pos), (p, n, pos)]).relaySet d = if d = p ∨ d = c then
      { s.relaySet d with relays := (s.relaySet d).relays.upd n fun _ => s.timing.commands pos } else s.relaySet d := by
  have hapart : [(c, n, pos), (p, n, pos)].Pairwise apart := by
    simp [apart, Ne.symm hp]
  have hself (w : Wish) (hw : w ∈ [(c, n, pos), (p, n, pos)]) (h : s.open w) :
      ((s.runStep [(c, n, pos), (p, n, pos)]).relaySet w.1).relays.get w.2.1 = s.timing.commands w.2.2 :=
    (runStep_named hapart hw).trans (want_of_open h)
  rw [runStep_relaySet]
  by_cases hd : d = p ∨ d = c
  · rw [if_pos hd]
    refine congrArg (fun x : PerRelay Relay => { s.relaySet d with relays := x }) (perRelay_ext fun m => ?_)
    rw [get_upd]
    by_cases hm : n = m
    · rw [if_pos hm, ← hm]
      rcases hd with rfl | rfl
      · exact hself _ (by simp) ho
      · exact hself _ (by simp) hc
    · rw [if_neg hm, runStep_unnamed]
      simp [hm]
  · obtain ⟨hdp, hdc⟩ := not_or.1 hd
    rw [if_neg hd]
    have hrelays : ((s.runStep [(c, n, pos), (p, n, pos)]).relaySet d).relays = (s.relaySet d).relays := by
      refine perRelay_ext fun m => runStep_unnamed ?_
      simp [Ne.symm hdp, Ne.symm hdc]
    rw [hrelays]

theorem open_of_closed {b : Bus} (h : (s.relaySet c).relays.get b.relay = { state := .closed }) :
    s.open (c, b.relay, .opened) := by
  have hrelay : s.relay (c, b.relay, .opened) = { state := .closed } := h
  rw [State.open, hrelay]
  exact ⟨rfl, .inl nofun⟩

/-- An ACTIVE record on one channel enters STOPPING (R54, R100). -/
theorem beginStop_single (h : (s.fault k).kind = .openWire ∧ n = .path ∧ pos = .closed ∨
    (s.fault k).kind = .shortGnd ∧ n = .gnd ∧ pos = .opened ∨ (s.fault k).kind = .shortBat ∧ n = .bat ∧ pos = .opened)
    (ho : s.open ((s.fault k).target, n, pos)) : s.beginStop k =
      (s.updRelaySet (s.fault k).target fun x =>
        { x with relays := x.relays.upd n fun _ => s.timing.commands pos }).updFault k fun r =>
          { r with state := .stopping, seq := some ⟨true, 0⟩ } := by
  obtain ⟨rest, hsteps⟩ := stopSteps_single h
  rw [beginStop_first hsteps (List.pairwise_singleton _ _) (List.mem_singleton.2 rfl) ho, runStep_single_open ho]

/-- An ACTIVE PIN_SHORT record enters STOPPING (R54, R100). -/
theorem beginStop_pair {p : Fin 24} {b : Bus} (hk : (s.fault k).kind = .pinShort) (hp : (s.fault k).partner = some p)
    (hb : (s.fault k).bus = some b) (hne : p ≠ (s.fault k).target)
    (hc : ∀ c, c = p ∨ c = (s.fault k).target → (s.relaySet c).relays.get b.relay = { state := .closed }) :
    s.beginStop k = (s.runStep [((s.fault k).target, b.relay, .opened), (p, b.relay, .opened)]).updFault k fun r =>
      { r with state := .stopping, seq := some ⟨true, 0⟩ } := by
  have hsteps : stopSteps (s.fault k) = [((s.fault k).target, b.relay, .opened), (p, b.relay, .opened)] ::
      [[(p, .path, .closed)]] := by
    unfold stopSteps
    rw [hk, hp, hb]
  refine beginStop_first hsteps ?_ List.mem_cons_self (open_of_closed (hc _ (.inr rfl)))
  simp [apart, Ne.symm hne]

theorem runStep_rest (l : List Wish) (s : State) : s.runStep l = { s with relays := (s.runStep l).relays } := by
  induction l generalizing s with
  | nil => rfl
  | cons w l ih =>
    show (s.wish w).runStep l = { s with relays := ((s.wish w).runStep l).relays }
    rw [ih (s.wish w)]
    rfl

/-! ## O36 -/

theorem exec_durationEnd_relay (hx : .durationEnd k ∈ s.due) (ha : (s.fault k).state = .active)
    (ho : (s.fault k).durationOver = true) (he : (s.fault k).kind.electronic = false) :
    exec (.durationEnd k) s = .next ((s.took (.durationEnd k)).beginStop k).settle := by
  have hend : (s.took (.durationEnd k)).perform (.durationEnd k) = (s.took (.durationEnd k)).beginStop k := by
    show (s.took (.durationEnd k)).takeDurationEnd k = _
    rw [State.takeDurationEnd]
    exact (if_pos ⟨ha, ho⟩).trans (if_neg (by show ¬(s.fault k).kind.electronic = true; rw [he]; decide))
  show Host.Outcome.next (s.takeEvent (.durationEnd k)) = _
  rw [State.takeEvent, if_pos hx, hend]

theorem durationOver_iff (r : FaultRecord) : r.durationOver = true ↔ ∃ n, n ≤ r.durProgress ∧
    (r.duration = .time n ∨ r.duration = .angle n ∨ r.duration = .cycles n ∨
      ∃ i e, r.duration = .capture i e n) := by
  unfold FaultRecord.durationOver
  cases r.duration <;> simp [Duration.value]

/-- Settles O36. -/
theorem durationEnds : Obligations.DurationEnds := by
  refine ⟨fun s k hx hpass ha ho he hl => ?_, fun s k c n pos hx hpass ha ho hc hkind hmove hrest => ?_,
    fun s k p b hx hpass ha ho hk hp hb hne hc => ?_, fun d w r => ⟨fun h => ?_, fun h => ?_, durationOver_iff r⟩⟩
  · have hnot : (s.fault k).state ≠ .armed := fun h => absurd (ha.symm.trans h) (by decide)
    have hend := endActivation_of_no_listener (s := s.took (.durationEnd k)) he hnot hl
    have hrest : (s.took (.durationEnd k)).endActivation k = { (((s.took (.durationEnd k)).updFault k fun _ =>
        (s.took (.durationEnd k)).endedNow k).raiseSet ((s.took (.durationEnd k)).endAnnounced k) .faultEvent) with
          channels := ((s.took (.durationEnd k)).endActivation k).channels } := by
      rw [hend, showFree_eq]
    refine ⟨(s.took (.durationEnd k)).endActivation k, ?_, ?_, fun hdone => hrest.trans ?_,
      fun hrelease hrepeats => hrest.trans ?_⟩
    · rw [exec_durationEnd hx ha ho he, settle_of_rest hpass (by rw [hrest]; rfl)]
    · rw [hend]
      exact showFree_showsAfter (s := s) _ rfl
    · rw [State.endAnnounced, endedNow_of_done (s := s.took (.durationEnd k)) hdone, if_neg nofun]
      exact congrArg (fun u : State => { u.raiseSet (s.fault k).notify .faultEvent with
        channels := ((s.took (.durationEnd k)).endActivation k).channels }) (updFault_congr rfl)
    · rw [State.endAnnounced, endedNow_of_repeat (s := s.took (.durationEnd k)) hrelease hrepeats,
        if_pos (rearm_state _), raiseSet_nobody, stamped_fault]
      refine congrArg (fun u : State => { u with
        channels := ((s.took (.durationEnd k)).endActivation k).channels }) (updFault_congr ?_)
      unfold FaultRecord.rearm
      cases ht : ((s.took (.durationEnd k)).fault k).trigger <;> rfl
  · subst hc
    have he : (s.fault k).kind.electronic = false := by
      rcases hkind with ⟨h, -⟩ | ⟨h, -⟩ | ⟨h, -⟩ <;> rw [h] <;> rfl
    have hstop := beginStop_single (s := s.took (.durationEnd k)) hkind ⟨hmove, .inl hrest⟩
    rw [exec_durationEnd_relay hx ha ho he, hstop, settle_of_no_pass (by exact hpass)]
    rfl
  · have he : (s.fault k).kind.electronic = false := by rw [hk]; rfl
    have hstop := beginStop_pair (s := s.took (.durationEnd k)) hk hp hb hne hc
    have hpair := runStep_pair (s := s.took (.durationEnd k)) hne (open_of_closed (hc _ (.inr rfl)))
      (open_of_closed (hc _ (.inl rfl)))
    have hrest := runStep_rest [((s.fault k).target, b.relay, .opened), (p, b.relay, .opened)] (s.took (.durationEnd k))
    have hexec := exec_durationEnd_relay hx ha ho he
    rw [hstop] at hexec
    change exec _ s = .next (State.settle (((s.took (.durationEnd k)).runStep
      [((s.fault k).target, b.relay, .opened), (p, b.relay, .opened)]).updFault k _)) at hexec
    generalize (s.took (.durationEnd k)).runStep
      [((s.fault k).target, b.relay, .opened), (p, b.relay, .opened)] = v at hexec hpair hrest
    refine ⟨v.updFault k fun r => { r with state := .stopping, seq := some ⟨true, 0⟩ }, ?_, ?_, hpair⟩
    · rw [hexec, settle_of_no_pass]
      rw [hrest]
      exact hpass
    · rw [hrest]
      rfl
  · rw [tickRecord, if_neg h]
  · rw [tickRecord, if_pos h]
    cases r.duration <;> rfl

end Sys2Proof.Machine
end

section
/-! O33: RELEASE_FAULT and CLEAR_FAULT. -/

namespace Sys2Proof.Machine

variable {s t u : State} {j k : Fin 64} {e : FaultEvent} {tag x : Byte} {n : RelayName} {pos : Position}

theorem exec_releaseFault {b : Body} (hn : s.takesNow .B = true) (h : handleReleaseFault x s = okay u b) :
    exec (.releaseFault .B tag x) s = .next (u.answerOk .B .releaseFault tag b) :=
  exec_of_okay rfl rfl (by simp) rfl hn h

theorem handleReleaseFault_of_inUse (hk : x.toNat = k.1) (h : (s.fault k).state.inUse = true) :
    handleReleaseFault x s = okay ((s.safeRecord k).settle)
      (.release (((s.safeRecord k).settle).fault k).state (((s.safeRecord k).settle).fault k).releasePending) := by
  unfold handleReleaseFault
  rw [indexIn_eq_some_iff.2 hk]
  exact if_pos h

theorem exec_released (hn : s.takesNow .B = true) (hk : x.toNat = k.1) (h : (s.fault k).state.inUse = true)
    (hs : (s.safeRecord k).settle = u) :
    exec (.releaseFault .B tag x) s =
      .next (u.answerOk .B .releaseFault tag (.release (u.fault k).state (u.fault k).releasePending)) :=
  exec_releaseFault hn (by rw [handleReleaseFault_of_inUse hk h, hs])

/-- A WAITING record that leaves the list is DONE, and no pass comes to it (R75, R95, R97). -/
theorem leaveList_aside (hl : (s.waitList ++ s.joining).Nodup) :
    Aside k { s.fault k with state := .done, frozen := none, seq := none } ((s.leaveList k).enterDone k) := by
  obtain ⟨hwait, hjoin, -⟩ := List.nodup_append.1 hl
  exact ⟨(enterDone_fault k).trans (if_pos rfl), List.Nodup.not_mem_erase hwait, List.Nodup.not_mem_erase hjoin⟩

/-- A record whose release is pending. -/
def State.releasing (s : State) (k : Fin 64) : State := s.updFault k fun r => { r with releasePending := true }

theorem releasing_fault : (s.releasing k).fault k = { s.fault k with releasePending := true } :=
  (updFault_fault _ k).trans (if_pos rfl)

theorem releasing_fault_ne (h : j ≠ k) : (s.releasing k).fault j = s.fault j := (updFault_fault _ j).trans (if_neg h)

theorem releasing_updRelaySet (c : Fin 24) (f : RelaySet → RelaySet) (g : FaultRecord → FaultRecord) :
    ((s.releasing k).updRelaySet c f).updFault k g =
      (s.updRelaySet c f).updFault k fun r => g { r with releasePending := true } :=
  updFault_updFault (s := s.updRelaySet c f) _ _

theorem safeRecord_of_active (h : (s.fault k).state = .active) : s.safeRecord k =
    if (s.fault k).kind.electronic then (s.releasing k).endActivation k else (s.releasing k).beginStop k := by
  have hkind : ((s.releasing k).fault k).kind = (s.fault k).kind := by rw [releasing_fault]
  rw [← hkind]
  unfold State.safeRecord
  simp only [h]
  rfl

/-- A chain is the same of a state that differs at its own record alone. -/
theorem chainFires_congr (hrun : u.run = s.run) (h : ∀ j, j ≠ k → u.fault j = s.fault j ∧ u.activeNow j = s.activeNow j)
    (hc : u.chainFires t k e) : s.chainFires t k e := by
  intro j hj
  obtain ⟨hfires, hstays⟩ := hc j hj
  obtain ⟨heq, hactive⟩ := h j hj
  have hiff : u.firedBy t k e j ↔ s.firedBy t k e j := by
    refine and_congr (by rw [hrun]) (and_congr (by rw [heq]) (exists_congr fun i => exists_congr fun y =>
      and_congr (by rw [heq]) (or_congr_right (and_congr_right fun hi => ?_))))
    rw [(h i hi).1]
  rw [← heq, ← hactive]
  exact ⟨fun hf => hfires (hiff.2 hf), fun hf => hstays (mt hiff.1 hf)⟩

/-- Where nobody listens no other record changes (R83). -/
theorem chainFires_of_no_listener (hl : s.listeners k e = []) (h : ∀ j, j ≠ k → t.fault j = s.fault j) :
    s.chainFires t k e := by
  intro j hj
  refine ⟨fun ⟨hm, ha, i, y, ht, hcase⟩ => ?_, fun _ => h j hj⟩
  rcases hcase with ⟨rfl, rfl⟩ | ⟨hi, -, hia, hit⟩
  · have hin := mem_listeners.2 ⟨hm, ha, ht⟩
    rw [hl] at hin
    cases hin
  · rw [h i hi] at hit
    exact absurd (hia.symm.trans hit) (by decide)

theorem inUse_of_state {y : FaultState} (h : (s.fault k).state = y) (hy : y.inUse = true) :
    (s.fault k).state.inUse = true := by
  rw [h]
  exact hy

/-- RELEASE_FAULT of a WAITING record (R75, R95, R97). -/
theorem exec_releaseFault_waiting (hn : s.takesNow .B = true) (hk : x.toNat = k.1) (hw : (s.fault k).state = .waiting)
    (hl : (s.waitList ++ s.joining).Nodup) : ∃ r t : State,
    r = { (s.updFault k fun f => { f with state := .done, frozen := none, seq := none }).raiseSet
        (s.fault k).notify .faultEvent with
          waitList := s.waitList.erase k, joining := s.joining.erase k, examineDue := true } ∧
      exec (.releaseFault .B tag x) s =
        .next (t.answerOk .B .releaseFault tag (.release .done (s.fault k).releasePending)) ∧
      r.passLeaves t := by
  have hrelease : s.safeRecord k = (s.leaveList k).enterDone k := by
    unfold State.safeRecord
    simp only [hw]
  have hrecord := ((leaveList_aside (k := k) hl).settle (fun h => nomatch h)).record
  have hexec := exec_released (tag := tag) hn hk (inUse_of_state hw rfl) rfl
  rw [hrelease, hrecord] at hexec
  exact ⟨(s.leaveList k).enterDone k, _, rfl, hexec, settle_passLeaves rfl⟩

/-- RELEASE_FAULT of an ACTIVE electronic record (R75, R83, R103). -/
theorem exec_releaseFault_electronic (hn : s.takesNow .B = true) (hk : x.toNat = k.1)
    (hq : s.examineDue = false ∨ s.due ≠ []) (ha : (s.fault k).state = .active)
    (he : (s.fault k).kind.electronic = true) (hl : s.listeners k .stop = [] ∨ s.listenersElectronic) :
    ∃ (y : FaultRecord) (t : State), y = { s.fault k with
        state := .done
        releasePending := true
        endStamp := some ⟨s.rigTime, angleCount s.angle.phase, s.angle.cycle⟩
        activations := (s.fault k).activations + 1
        frozen := none
        seq := none } ∧
      exec (.releaseFault .B tag x) s = .next (t.answerOk .B .releaseFault tag (.release .done true)) ∧
      t = { s with faults := t.faults, channels := t.channels, portM := t.portM, portB := t.portB } ∧
      t.fault k = y ∧ s.chainFires t k .stop ∧
      (s.listeners k .stop = [] →
        t = { (s.updFault k fun _ => y).raiseSet (s.fault k).notify .faultEvent with channels := t.channels } ∧
        s.showsAfter t (s.fault k).target) := by
  have hrelease : s.safeRecord k = (s.releasing k).endActivation k := (safeRecord_of_active ha).trans (if_pos he)
  have hself : ((s.releasing k).fault k).state ≠ .armed := by
    rw [releasing_fault]
    exact fun h => absurd (ha.symm.trans h) (by decide)
  have helectronic : ((s.releasing k).fault k).kind.electronic = true := by
    rw [releasing_fault]
    exact he
  have hdone : (s.releasing k).endedNow k = { s.fault k with
      state := .done
      releasePending := true
      endStamp := some ⟨s.rigTime, angleCount s.angle.phase, s.angle.cycle⟩
      activations := (s.fault k).activations + 1
      frozen := none
      seq := none } := by
    rw [endedNow_of_done (.inl (by rw [releasing_fault])), releasing_fault]
    rfl
  have hlisteners : (s.releasing k).listeners k .stop = s.listeners k .stop :=
    listeners_congr rfl ⟨fun h => hself h.1, fun h => absurd (ha.symm.trans h.1) (by decide)⟩ fun j hj => releasing_fault_ne hj
  have hsingle : s.listeners k .stop = [] → (s.releasing k).endActivation k =
      ((s.updFault k fun _ => (s.releasing k).endedNow k).raiseSet (s.fault k).notify .faultEvent).showFree
        (s.fault k).target := by
    intro hnone
    rw [endActivation_of_no_listener helectronic hself (hlisteners.trans hnone), State.endAnnounced, hdone,
      if_neg nofun, State.releasing, updFault_updFault, ← State.releasing, releasing_fault]
  have hrest : (s.releasing k).endActivation k = { s with
      faults := ((s.releasing k).endActivation k).faults, channels := ((s.releasing k).endActivation k).channels
      portM := ((s.releasing k).endActivation k).portM, portB := ((s.releasing k).endActivation k).portB } ∧
      ((s.releasing k).endActivation k).fault k = (s.releasing k).endedNow k ∧
      s.chainFires ((s.releasing k).endActivation k) k .stop := by
    rcases hl with hnone | hs
    · rw [hsingle hnone]
      refine ⟨?_, ?_, chainFires_of_no_listener hnone fun j hj => ?_⟩
      · rw [showFree_eq]
        rfl
      · rw [showFree_fault, raiseSet_fault, updFault_fault, if_pos rfl]
      · rw [showFree_fault, raiseSet_fault, updFault_fault, if_neg hj]
    · have hboth : (s.releasing k).listenersElectronic := by
        intro j i y hj ht
        have hne : j ≠ k := by
          rintro rfl
          exact hself hj
        rw [releasing_fault_ne hne] at hj ht ⊢
        exact hs j i y hj ht
      obtain ⟨hrest, hfault, hchain⟩ := endActivation_chain helectronic hself hboth
      refine ⟨hrest, hfault, chainFires_congr (u := s.releasing k) rfl (fun j hj => ⟨releasing_fault_ne hj, ?_⟩) hchain⟩
      rw [State.activeNow, State.activeNow, releasing_fault_ne hj]
      rfl
  obtain ⟨hfields, hfault, hchain⟩ := hrest
  have hsettle : (s.safeRecord k).settle = (s.releasing k).endActivation k := by
    rw [hrelease]
    exact settle_of_no_pass (by rw [hfields]; exact hq)
  have hexec := exec_released (tag := tag) hn hk (inUse_of_state ha rfl) hsettle
  rw [hfault, hdone] at hexec
  refine ⟨_, _, rfl, hexec, hfields, hfault.trans hdone, hchain, fun hnone => ⟨?_, ?_⟩⟩
  · rw [← hdone, hsingle hnone, showFree_eq]
  · rw [hsingle hnone]
    exact showFree_showsAfter (s := s) _ rfl

/-- RELEASE_FAULT of an ACTIVE relay record: its stop sequence begins (R75, R100). -/
theorem exec_releaseFault_relay (hn : s.takesNow .B = true) (hk : x.toNat = k.1)
    (hq : s.examineDue = false ∨ s.due ≠ []) (ha : (s.fault k).state = .active)
    (he : (s.fault k).kind.electronic = false) (hs : (s.releasing k).beginStop k =
      { s with relays := u.relays }.updFault k fun r =>
        { r with state := .stopping, releasePending := true, seq := some ⟨true, 0⟩ }) :
    exec (.releaseFault .B tag x) s = .next (({ s with relays := u.relays }.updFault k fun r =>
        { r with state := .stopping, releasePending := true, seq := some ⟨true, 0⟩ }).answerOk
          .B .releaseFault tag (.release .stopping true)) := by
  have hrelease : s.safeRecord k = (s.releasing k).beginStop k :=
    (safeRecord_of_active ha).trans (if_neg (by rw [he]; decide))
  have hsettle : (s.safeRecord k).settle = { s with relays := u.relays }.updFault k fun r =>
      { r with state := .stopping, releasePending := true, seq := some ⟨true, 0⟩ } := by
    rw [hrelease, hs]
    exact settle_of_no_pass hq
  have hexec := exec_released (tag := tag) hn hk (inUse_of_state ha rfl) hsettle
  rw [updFault_fault, if_pos rfl] at hexec
  exact hexec

/-- Settles O33. -/
theorem faultsReleasedAndCleared : Obligations.FaultsReleasedAndCleared := by
  refine ⟨fun s tag x hn hx => ⟨?_, ?_⟩, fun s tag x k hn hk => ⟨fun hrest => ?_,
    fun hw hl => exec_releaseFault_waiting hn hk hw hl, fun hq ha => ?_, fun hq hseq => ?_,
    fun hq ha he hl => exec_releaseFault_electronic hn hk hq ha he hl, fun n pos hq ha hkind hmove hrest => ?_,
    fun p b hq ha hkind hp hb hne hc => ?_, fun hbusy => ?_, fun hfree => ?_, fun hrest => ?_⟩⟩
  · refine exec_of_refuse rfl rfl (by simp) rfl hn ?_
    show handleReleaseFault x s = _
    rw [handleReleaseFault, indexIn_eq_none hx]
  · refine exec_of_refuse rfl rfl (by simp) rfl hn ?_
    show handleClearFault x s = _
    rw [handleClearFault, indexIn_eq_none hx]
  · refine exec_of_refuse rfl rfl (by simp) rfl hn ?_
    show handleReleaseFault x s = _
    rw [handleReleaseFault, indexIn_eq_some_iff.2 hk]
    refine if_neg ?_
    rcases hrest with h | h | h <;> rw [h] <;> decide
  · have hrelease : s.safeRecord k = s.enterDone k := by
      unfold State.safeRecord
      simp only [ha]
    have hexec := exec_released (tag := tag) hn hk (inUse_of_state ha rfl)
      ((congrArg State.settle hrelease).trans (settle_of_no_pass hq))
    rw [enterDone_fault, if_pos rfl] at hexec
    exact hexec
  · have hrelease : s.safeRecord k = s.releasing k := by
      unfold State.safeRecord
      rcases hseq with h | h <;> simp only [h] <;> rfl
    have huse : (s.fault k).state.inUse = true := hseq.elim (inUse_of_state · rfl) (inUse_of_state · rfl)
    have hexec := exec_released (tag := tag) hn hk huse
      ((congrArg State.settle hrelease).trans (settle_of_no_pass hq))
    rw [releasing_fault] at hexec
    exact hexec
  · have he : (s.fault k).kind.electronic = false := by
      rcases hkind with ⟨h, -⟩ | ⟨h, -⟩ | ⟨h, -⟩ <;> rw [h] <;> rfl
    have hstop := beginStop_single (s := s.releasing k) (by rw [releasing_fault]; exact hkind)
      (by rw [releasing_fault]; exact ⟨hmove, .inl hrest⟩)
    rw [releasing_fault] at hstop
    refine exec_releaseFault_relay (u := s.updRelaySet (s.fault k).target fun y =>
      { y with relays := y.relays.upd n fun _ => s.timing.commands pos }) hn hk hq ha he (hstop.trans ?_)
    exact releasing_updRelaySet _ _ _
  · have he : (s.fault k).kind.electronic = false := by rw [hkind]; rfl
    have hstop := beginStop_pair (s := s.releasing k) (p := p) (b := b) (by rw [releasing_fault]; exact hkind)
      (by rw [releasing_fault]; exact hp) (by rw [releasing_fault]; exact hb) (by rw [releasing_fault]; exact hne)
      (by rw [releasing_fault]; exact hc)
    have hpair := runStep_pair (s := s) hne (open_of_closed (hc _ (.inr rfl))) (open_of_closed (hc _ (.inl rfl)))
    have hrest := runStep_rest [((s.fault k).target, b.relay, .opened), (p, b.relay, .opened)] s
    have htarget : ((s.releasing k).fault k).target = (s.fault k).target := by rw [releasing_fault]
    rw [htarget, State.releasing, runStep_updFault, updFault_updFault, ← State.releasing] at hstop
    generalize s.runStep [((s.fault k).target, b.relay, .opened), (p, b.relay, .opened)] = v at hstop hpair hrest
    refine ⟨_, exec_releaseFault_relay (u := v) hn hk hq ha he (hstop.trans ?_), rfl, hpair⟩
    rw [hrest]
  · refine exec_of_refuse rfl rfl (by simp) rfl hn ?_
    show handleClearFault x s = _
    rw [handleClearFault, indexIn_eq_some_iff.2 hk]
    exact if_pos (recordBusy_iff.2 hbusy)
  · refine exec_of_okay rfl rfl (by simp) rfl hn ?_
    show handleClearFault x s = _
    have hnot : s.recordBusy k = false := not_recordBusy (by rw [hfree]; rfl) fun h => absurd (hfree.symm.trans h) (by decide)
    rw [handleClearFault, indexIn_eq_some_iff.2 hk]
    refine (if_neg (by rw [hnot]; decide)).trans ?_
    rw [if_pos hfree]
  · refine exec_of_okay rfl rfl (by simp) rfl hn ?_
    show handleClearFault x s = _
    have hnot : s.recordBusy k = false := by
      rcases hrest with h | ⟨h, hc⟩
      · exact not_recordBusy (by rw [h]; rfl) fun h' => absurd (h.symm.trans h') (by decide)
      · exact not_recordBusy (by rw [h]; rfl) fun _ => hc
    have hfree : (s.fault k).state ≠ .free := by
      rcases hrest with h | ⟨h, -⟩ <;> rw [h] <;> decide
    rw [handleClearFault, indexIn_eq_some_iff.2 hk]
    refine (if_neg (by rw [hnot]; decide)).trans ?_
    rw [if_neg hfree]

end Sys2Proof.Machine
end

section
/-! O35: the triggers of relay records (R84, R93, R95). -/

namespace Sys2Proof.Machine

variable {s t u r : State} {j k x : Fin 64} {c : Fin 24} {e : Event} {v : FaultEvent}

/-! ## A relay record fires -/

/-- A record joins behind the lower indices and before the higher ones (R95). -/
theorem insertIndex_append {l l' : List (Fin 64)} (hl : ∀ i ∈ l, i < k) (hr : ∀ i ∈ l', k < i) :
    insertIndex k (l ++ l') = l ++ k :: l' := by
  induction l with
  | nil =>
    cases l' with
    | nil => rfl
    | cons i l' => exact if_pos (hr i List.mem_cons_self)
  | cons i l ih =>
    have hi : i < k := hl i List.mem_cons_self
    rw [List.cons_append, insertIndex, if_neg (by omega), if_neg (by omega),
      ih fun a ha => hl a (List.mem_cons_of_mem _ ha)]
    rfl

theorem joins_eq (h : u.joins k r) : r = u.joined k := by
  obtain ⟨l, l', hjoin, hl, hr, rfl⟩ := h
  rw [State.joined, hjoin, insertIndex_append hl hr]

/-- A relay record whose trigger fires (R93, R95). -/
theorem fireFuel_relay {n : Nat} (ha : (s.fault k).state = .armed) (he : (s.fault k).kind.electronic = false) :
    fireFuel (n + 1) s k = if s.outOfService (s.fault k) then s.enterFailed k .outOfService else s.joined k := by
  rw [fireFuel_succ, if_pos ha, if_neg (by rw [he]; decide)]

theorem fireFuel_failed {n : Nat} (ha : (s.fault k).state = .armed) (he : (s.fault k).kind.electronic = false)
    (h : ∃ c, (s.fault k).onChannel c ∧ (s.relaySet c).inService = false) :
    fireFuel (n + 1) s k = s.enterFailed k .outOfService := by
  obtain ⟨c, hc, hs⟩ := h
  rw [fireFuel_relay ha he, if_pos (outOfService_eq_true hc hs)]

theorem fireFuel_joined {n : Nat} (ha : (s.fault k).state = .armed) (he : (s.fault k).kind.electronic = false)
    (h : ∀ c, (s.fault k).onChannel c → (s.relaySet c).inService = true) :
    fireFuel (n + 1) s k = s.joined k := by
  rw [fireFuel_relay ha he, if_neg (by rw [outOfService_eq_false h]; decide)]

/-! ## The only AT_ANGLE trigger of a tick -/

theorem reached_single {b d : Nat} {y y' : Half} (h : ∀ j ∈ s.reached b d y y', j = k) :
    s.reached b d y y' = if k ∈ s.reached b d y y' then [k] else [] := by
  have hnodup := reached_nodup (s := s) (b := b) (d := d) (c := y) (c' := y')
  generalize s.reached b d y y' = l at h hnodup
  split
  next hk => exact List.perm_singleton.1 ((List.perm_ext_iff_of_nodup hnodup (List.nodup_singleton k)).2 fun j =>
    ⟨fun hj => List.mem_singleton.2 (h j hj), fun hj => List.mem_singleton.1 hj ▸ hk⟩)
  next hk => exact List.eq_nil_iff_forall_not_mem.2 fun j hj => hk (h j hj ▸ hj)

/-! ## The effective record and a relay record -/

/-- A record that the arbitration on a channel goes through: ACTIVE, electronic and on the channel (R111). -/
def shapesOn (c : Fin 24) (r : FaultRecord) : Prop := r.state = .active ∧ r.kind.electronic = true ∧ r.target = c

theorem not_shapesOn_of_relay {r : FaultRecord} (h : r.kind.electronic = false) : ¬shapesOn c r :=
  fun hs => Bool.false_ne_true (h.symm.trans hs.2.1)

theorem not_shapesOn_of_state {r : FaultRecord} (h : r.state ≠ .active) : ¬shapesOn c r := fun hs => h hs.1

/-- A record that does not shape a channel, before a change and after it, leaves its effective record (R111). -/
theorem effectiveRecord_unshaped (h : ∀ j, u.fault j = s.fault j ∨ ¬shapesOn c (u.fault j) ∧ ¬shapesOn c (s.fault j)) :
    u.effectiveRecord c = s.effectiveRecord c := by
  have hfold (l : List (Fin 64)) : ∀ best : Option (Fin 64), (∀ b, best = some b → u.fault b = s.fault b) →
      l.foldl (betterRecord u c) best = l.foldl (betterRecord s c) best ∧
        ∀ b, l.foldl (betterRecord s c) best = some b → u.fault b = s.fault b := by
    induction l with
    | nil => exact fun best hb => ⟨rfl, hb⟩
    | cons j l ih =>
      intro best hbest
      have hone : betterRecord u c best j = betterRecord s c best j ∧
          ∀ b, betterRecord s c best j = some b → u.fault b = s.fault b := by
        unfold betterRecord
        dsimp only
        rcases h j with heq | ⟨hu, hs⟩
        · rw [heq]
          split_ifs
          · cases best with
            | none => exact ⟨rfl, fun b hb => by cases hb; exact heq⟩
            | some b =>
              have hb := hbest b rfl
              dsimp only
              rw [hb]
              split_ifs
              · exact ⟨rfl, fun b hb => by cases hb; exact heq⟩
              · exact ⟨rfl, fun b' hb' => by cases hb'; exact hb⟩
          · exact ⟨rfl, hbest⟩
        · unfold shapesOn at hu hs
          rw [if_neg hu, if_neg hs]
          exact ⟨rfl, hbest⟩
      rw [List.foldl_cons, List.foldl_cons, hone.1]
      exact ih _ hone.2
  obtain ⟨heq, hbest⟩ := hfold (List.finRange 64) none nofun
  unfold State.effectiveRecord
  rw [State.effective, heq, ← State.effective]
  cases hb : s.effective c with
  | none => rfl
  | some b => exact congrArg some (hbest b hb)

theorem tickCounted_angle (s : State) : s.tickCounted.angle = s.clocked.angle := by
  simp [State.tickCounted, State.tickPlayed]

/-- Where one record alone waits for an angle, it alone can fire at a tick (R80). -/
theorem tickFired_alone {cycle : Option Half} {a : Nat} (hm : s.run.mode = .run) (ha : (s.fault k).state = .armed)
    (ht : (s.fault k).trigger = .atAngle cycle a)
    (hothers : ∀ j y b, j ≠ k → (s.fault j).state = .armed → (s.fault j).trigger ≠ .atAngle y b) :
    s.tickFired = if reaches a cycle (angleCount s.angle.phase) s.advanceNow s.angle.cycle s.clocked.angle.cycle then
      s.tickCounted.fire k else s.tickCounted := by
  have hrun : s.tickCounted.run = s.run := by simp [State.tickCounted, State.tickPlayed]
  have hmem (j : Fin 64) : j ∈ s.tickCounted.reached (angleCount s.angle.phase) s.advanceNow s.angle.cycle
      s.clocked.angle.cycle ↔ (s.fault j).state = .armed ∧ ∃ y b, (s.fault j).trigger = .atAngle y b ∧
        reaches b y (angleCount s.angle.phase) s.advanceNow s.angle.cycle s.clocked.angle.cycle = true := by
    rw [mem_reached, tickCounted_fault]
    rfl
  have hsingle := reached_single (k := k) fun j hj => by
    obtain ⟨hja, y, b, hjt, -⟩ := (hmem j).1 hj
    by_contra hne
    exact hothers j y b hne hja hjt
  have hk : k ∈ s.tickCounted.reached (angleCount s.angle.phase) s.advanceNow s.angle.cycle s.clocked.angle.cycle ↔
      reaches a cycle (angleCount s.angle.phase) s.advanceNow s.angle.cycle s.clocked.angle.cycle = true := by
    rw [hmem]
    constructor
    · rintro ⟨-, y, b, hy, hreach⟩
      obtain ⟨rfl, rfl⟩ : cycle = y ∧ a = b := by simpa using ht.symm.trans hy
      exact hreach
    · exact fun hreach => ⟨ha, cycle, a, ht, hreach⟩
  rw [State.tickFired, tickCounted_angle, fireAtAngle_eq (by rw [hrun]; exact hm), hsingle]
  by_cases hreach : reaches a cycle (angleCount s.angle.phase) s.advanceNow s.angle.cycle s.clocked.angle.cycle = true
  · rw [if_pos (hk.2 hreach), if_pos hreach]
    rfl
  · rw [if_neg (mt hk.1 hreach), if_neg hreach]
    rfl

theorem tickSampled_examineDue (s : State) : s.tickSampled.examineDue = s.tickFired.examineDue := by
  simp [State.tickSampled, State.tickGridded]

theorem tickCounted_examineDue (s : State) : s.tickCounted.examineDue = s.examineDue := by
  simp [State.tickCounted, State.tickPlayed, State.clocked]

theorem tickRecord_armed {d : Nat} {w : Bool} {f : FaultRecord} (h : f.state = .armed) :
    tickRecord d w f = { f with fresh := false } := by
  rw [tickRecord, if_neg (by rw [h]; nofun)]

theorem sample_level (f : LineFilter) (b : Bool) : (f.sample b).level = f.level := by
  unfold LineFilter.sample
  split <;> rfl

/-- What a relay record is granted by, as a tick has counted (R96). -/
theorem tickCounted_matrix (s : State) : s.tickCounted.buses = s.buses ∧ s.tickCounted.timing = s.timing ∧
    s.tickCounted.battery.level = s.battery.level ∧ s.tickCounted.waitList = s.waitList ∧
    s.tickCounted.joining = s.joining := by
  have hbattery : s.tickCounted.battery = s.battery.sample (decide (6400 < s.pins.batteryMv)) := by
    have hbefore : s.tickCounted.battery =
        (s.tickPlayed.addDue (clockEvents s.tickPlayed.rigTime).1).tickRelays.sampleBattery.battery := by
      simp [State.tickCounted]
    rw [hbefore]
    show ((s.tickPlayed.addDue (clockEvents s.tickPlayed.rigTime).1).tickRelays).battery.sample
      (decide (6400 < ((s.tickPlayed.addDue (clockEvents s.tickPlayed.rigTime).1).tickRelays).pins.batteryMv)) = _
    simp [State.tickPlayed, State.clocked]
  refine ⟨?_, ?_, ?_, ?_, ?_⟩
  · simp [State.tickCounted, State.tickPlayed, State.clocked]
  · simp [State.tickCounted, State.tickPlayed, State.clocked]
  · rw [hbattery, sample_level]
  · simp [State.tickCounted, State.tickPlayed, State.clocked]
  · simp [State.tickCounted, State.tickPlayed, State.clocked]

theorem tickSampled_matrix (s : State) : s.tickSampled.buses = s.tickFired.buses ∧
    s.tickSampled.timing = s.tickFired.timing ∧ s.tickSampled.battery = s.tickFired.battery ∧
    s.tickSampled.relays = s.tickFired.relays := by
  refine ⟨?_, ?_, ?_, ?_⟩ <;> simp [State.tickSampled, State.tickGridded]

theorem ticked_of_still {y : Relay} (h : y.movement = none) : y.ticked = y := by
  rw [Relay.ticked, h]
  obtain ⟨_, _, m⟩ := y
  cases h
  rfl

theorem enterFailed_lists (s : State) (k : Fin 64) (why : FailReason) : (s.enterFailed k why).waitList = s.waitList ∧
    (s.enterFailed k why).joining = s.joining ∧ (s.enterFailed k why).examineDue = s.examineDue := ⟨rfl, rfl, rfl⟩

/-- A tick at which a relay record fires out of service (R93). -/
theorem makeTick_failed (hx : s.examineDue = false) (hj : s.joining = []) (ha : (s.fault k).state = .armed)
    (hf : s.tickFired = s.tickCounted.enterFailed k .outOfService) :
    s.makeTick.fault k = { s.fault k with
      state := .failed, failReason := some .outOfService, seq := none, fresh := false } ∧
    s.makeTick.waitList = s.waitList ∧ s.makeTick.joining = [] ∧
    ∀ p, ((s.fault k).notify.has p) = true → (s.makeTick.port p).sticky.getLsbD 2 = true := by
  obtain ⟨hfaults, hwait, hjoin⟩ := tickSampled_table s
  obtain ⟨-, -, -, hwait', hjoin'⟩ := tickCounted_matrix s
  have hself : s.tickCounted.fault k = { s.fault k with fresh := false } :=
    (tickCounted_fault s k).trans (tickRecord_armed ha)
  obtain ⟨hfw, hfj, hfx⟩ := enterFailed_lists s.tickCounted k .outOfService
  have hquiet : s.makeTick = s.tickSampled := by
    rw [makeTick_eq, settle_of_not_examineDue]
    rw [tickSampled_examineDue, hf, hfx, tickCounted_examineDue, hx]
  rw [hquiet]
  refine ⟨?_, ?_, ?_, fun p hp => ?_⟩
  · rw [fault_of_faults hfaults, hf, enterFailed_fault, if_pos rfl, hself]
  · rw [hwait, hf, hfw, hwait']
  · rw [hjoin, hf, hfj, hjoin', hj]
  · have hnames : names (s.tickCounted.fault k).notify p = true := by
      rw [hself]
      cases p <;> exact hp
    rw [tickSampled_port, hf, State.enterFailed, raiseSet_port, if_pos hnames]
    exact raise_sticky_self _ .faultEvent

theorem joined_lists (s : State) (k : Fin 64) : (s.joined k).waitList = s.waitList ∧
    (s.joined k).joining = insertIndex k s.joining ∧ (s.joined k).examineDue = true ∧ (s.joined k).buses = s.buses ∧
    (s.joined k).timing = s.timing ∧ (s.joined k).battery = s.battery ∧ (s.joined k).relays = s.relays :=
  ⟨rfl, rfl, rfl, rfl, rfl, rfl, rfl⟩

/-- A tick at which a relay record fires and joins the wait list (R93, R95, R97). -/
theorem makeTick_joined (hj : s.joining = []) (ha : (s.fault k).state = .armed) (hf : s.tickFired = s.tickCounted.joined k) :
    ∃ r : State, r.passLeaves s.makeTick ∧ r.due = s.makeTick.due ∧ r.waitList = s.waitList ∧ r.joining = [k] ∧
      r.fault k = { s.fault k with state := .waiting, fresh := true } ∧
      (∀ j, j ≠ k → ∃ n, r.fault j = { s.fault j with fresh := false, durProgress := n }) ∧
      r.buses = s.buses ∧ r.timing = s.timing ∧ r.battery.level = s.battery.level ∧
      ∀ c, r.relaySet c = { s.relaySet c with relays := (r.relaySet c).relays } ∧
        ∀ n, ((s.relaySet c).relays.get n).movement = none →
          (r.relaySet c).relays.get n = (s.relaySet c).relays.get n := by
  obtain ⟨hfaults, hwait, hjoin⟩ := tickSampled_table s
  obtain ⟨hbuses, htiming, hbattery, hrelays⟩ := tickSampled_matrix s
  obtain ⟨hbuses', htiming', hbattery', hwait', hjoin'⟩ := tickCounted_matrix s
  obtain ⟨hjw, hjj, hjx, hjb, hjt, hjy, hjr⟩ := joined_lists s.tickCounted k
  have hfault (i : Fin 64) : s.tickSampled.fault i = if i = k then { s.tickCounted.fault k with
      state := .waiting, fresh := true } else s.tickCounted.fault i := by
    rw [fault_of_faults hfaults, hf]
    exact updFault_fault _ i
  have hset (c : Fin 24) : s.tickSampled.relaySet c =
      { s.relaySet c with relays := (s.relaySet c).relays.map Relay.ticked } := by
    rw [← tickCounted_relaySet]
    exact congrArg (·.get c) (hrelays.trans ((congrArg State.relays hf).trans hjr))
  refine ⟨s.tickSampled, ?_, ?_, ?_, ?_, ?_, fun i hi => ⟨?_, ?_⟩, ?_, ?_, ?_, fun c => ⟨?_, fun n hn => ?_⟩⟩
  · rw [makeTick_eq]
    refine settle_passLeaves ?_
    rw [tickSampled_examineDue, hf, hjx]
  · rw [makeTick_eq]
    simp
  · rw [hwait, hf, hjw, hwait']
  · rw [hjoin, hf, hjj, hjoin', hj]
    rfl
  · rw [hfault, if_pos rfl, tickCounted_fault, tickRecord_armed ha]
  · exact (tickRecord s.advanceNow s.wraps (s.fault i)).durProgress
  · rw [hfault, if_neg hi, tickCounted_fault]
    rfl
  · rw [hbuses, hf, hjb, hbuses']
  · rw [htiming, hf, hjt, htiming']
  · rw [hbattery, hf, hjy, hbattery']
  · rw [hset]
  · rw [hset]
    have hget : ((s.relaySet c).relays.map Relay.ticked).get n = ((s.relaySet c).relays.get n).ticked := by
      cases n <;> rfl
    exact hget.trans (ticked_of_still hn)

theorem makeTick_unfired (hx : s.examineDue = false) (ha : (s.fault k).state = .armed)
    (hf : s.tickFired = s.tickCounted) : s.makeTick.fault k = { s.fault k with fresh := false } := by
  have hquiet : s.makeTick = s.tickSampled := by
    rw [makeTick_eq, settle_of_not_examineDue]
    rw [tickSampled_examineDue, hf]
    exact (tickCounted_examineDue s).trans hx
  rw [hquiet, fault_of_faults (tickSampled_table s).1, hf, tickCounted_fault, tickRecord_armed ha]

/-! ## A relay record that hears an electronic one -/

theorem updFault_comm (h : k ≠ x) (f g : FaultRecord → FaultRecord) :
    (s.updFault k f).updFault x g = (s.updFault x g).updFault k f := by
  have hfaults : updV (updV s.faults k f) x g = updV (updV s.faults x g) k f := by
    refine vector_ext_get fun i => ?_
    simp only [updV_get]
    by_cases hx : x = i
    · subst hx
      simp [h]
    · by_cases hk : k = i
      · subst hk
        simp [hx]
      · simp [hx, hk]
  exact congrArg (fun v => { s with faults := v }) hfaults

theorem raiseSet_comm (l l' : PortSet) (n : Notice) : (s.raiseSet l n).raiseSet l' n = (s.raiseSet l' n).raiseSet l n := by
  have hport (b b' : Bool) (q : PortState) : (if b' then (if b then q.raise n else q).raise n else if b then q.raise n else q) =
      if b then (if b' then q.raise n else q).raise n else if b' then q.raise n else q := by
    cases b <;> cases b' <;> rfl
  exact congrArg₂ (fun a b => { s with portM := a, portB := b }) (hport _ _ _) (hport _ _ _)

theorem showFree_swap (hc : u.channels = t.channels) (he : u.effectiveRecord c = t.effectiveRecord c) :
    u.showFree c = { u with channels := (t.showFree c).channels } := by
  have hchannel (d : Fin 24) : u.channel d = t.channel d := by rw [State.channel, State.channel, hc]
  have hchannels : (u.showFree c).channels = (t.showFree c).channels := by
    refine vector_ext_get fun d => ?_
    show (u.showFree c).channel d = (t.showFree c).channel d
    by_cases hd : c = d
    · subst hd
      rw [showFree_channel, showFree_channel, he, hchannel]
    · rw [showFree_channel_ne hd, showFree_channel_ne hd, hchannel]
  rw [showFree_eq, hchannels]

theorem fire_relay (ha : (s.fault k).state = .armed) (he : (s.fault k).kind.electronic = false) :
    s.fire k = if s.outOfService (s.fault k) then s.enterFailed k .outOfService else s.joined k := fireFuel_relay ha he

theorem joined_fault (j : Fin 64) : (s.joined k).fault j =
    if j = k then { s.fault k with state := .waiting, fresh := true } else s.fault j := updFault_fault _ j

theorem enterFailed_showFree {why : FailReason} (he : (s.fault k).kind.electronic = false) :
    (s.enterFailed k why).showFree c = (s.showFree c).enterFailed k why := by
  have heffective : (s.enterFailed k why).effectiveRecord c = s.effectiveRecord c := by
    refine effectiveRecord_unshaped fun j => ?_
    rw [enterFailed_fault]
    by_cases hj : j = k
    · subst hj
      rw [if_pos rfl]
      exact .inr ⟨not_shapesOn_of_relay he, not_shapesOn_of_relay he⟩
    · exact .inl (if_neg hj)
  rw [showFree_swap (u := s.enterFailed k why) (t := s) rfl heffective, State.enterFailed, State.enterFailed,
    showFree_fault]
  conv_rhs => rw [showFree_eq]
  rfl

theorem joined_showFree (he : (s.fault k).kind.electronic = false) :
    (s.joined k).showFree c = (s.showFree c).joined k := by
  have heffective : (s.joined k).effectiveRecord c = s.effectiveRecord c := by
    refine effectiveRecord_unshaped fun j => ?_
    rw [joined_fault]
    by_cases hj : j = k
    · subst hj
      rw [if_pos rfl]
      exact .inr ⟨not_shapesOn_of_relay he, not_shapesOn_of_relay he⟩
    · exact .inl (if_neg hj)
  rw [showFree_swap (u := s.joined k) (t := s) rfl heffective]
  conv_rhs => rw [showFree_eq]
  rfl

/-- The refusal of a relay record and the end of an electronic activation, in either order. -/
theorem enterFailed_swap {why : FailReason} {g : FaultRecord → FaultRecord} {l : PortSet} (h : k ≠ x)
    (he : (s.fault k).kind.electronic = false) :
    (((s.enterFailed k why).updFault x g).raiseSet l .faultEvent).showFree c =
      (((s.updFault x g).raiseSet l .faultEvent).showFree c).enterFailed k why := by
  have hself : (((s.updFault x g).raiseSet l .faultEvent).fault k) = s.fault k := (updFault_fault _ k).trans (if_neg h)
  have hcomm := updFault_comm (s := s) h (fun r => { r with state := .failed, failReason := some why, seq := none }) g
  have hraise : ((s.enterFailed k why).updFault x g).raiseSet l .faultEvent =
      (((s.updFault k fun r => { r with state := .failed, failReason := some why, seq := none }).updFault x g).raiseSet l
        .faultEvent).raiseSet (s.fault k).notify .faultEvent :=
    raiseSet_comm (s := (s.updFault k fun r => { r with state := .failed, failReason := some why, seq := none }).updFault
      x g) (s.fault k).notify l .faultEvent
  have hfailed : ((s.enterFailed k why).updFault x g).raiseSet l .faultEvent =
      ((s.updFault x g).raiseSet l .faultEvent).enterFailed k why := by
    rw [hraise, hcomm, State.enterFailed, hself]
    rfl
  rw [hfailed, enterFailed_showFree (by rw [hself]; exact he)]

/-- The join of a relay record and the end of an electronic activation, in either order. -/
theorem joined_swap {g : FaultRecord → FaultRecord} {l : PortSet} (h : k ≠ x)
    (he : (s.fault k).kind.electronic = false) :
    (((s.joined k).updFault x g).raiseSet l .faultEvent).showFree c =
      (((s.updFault x g).raiseSet l .faultEvent).showFree c).joined k := by
  have hself : (((s.updFault x g).raiseSet l .faultEvent).fault k) = s.fault k := (updFault_fault _ k).trans (if_neg h)
  have hcomm := updFault_comm (s := s) h (fun r => { r with state := .waiting, fresh := true }) g
  have hjoined : ((s.joined k).updFault x g).raiseSet l .faultEvent =
      ((s.updFault x g).raiseSet l .faultEvent).joined k :=
    congrArg (fun u : State => State.raiseSet
      { u with joining := insertIndex k s.joining, examineDue := true } l .faultEvent) hcomm
  rw [hjoined, joined_showFree (by rw [hself]; exact he)]

/-- The one listener of the START event of an electronic record is a relay record (R83, R84). -/
theorem fire_heard (hx : (s.fault x).state = .armed) (hex : (s.fault x).kind.electronic = true)
    (hl : s.listeners x .start = [k]) (hek : (s.fault k).kind.electronic = false) :
    s.fire x = (s.enterActive x).fire k := by
  have hkx : k ≠ x := by
    rintro rfl
    rw [hex] at hek
    cases hek
  obtain ⟨hm, hka, -⟩ := mem_listeners.1 (hl ▸ List.mem_singleton.2 rfl : k ∈ s.listeners x .start)
  have hnot : ¬((s.fault x).state = .armed ∧ (s.fault x).trigger = .onFault x .start) := by
    rintro ⟨ha, ht⟩
    have hin := mem_listeners.2 ⟨hm, ha, ht⟩
    rw [hl] at hin
    exact hkx (List.mem_singleton.1 hin).symm
  have hlisteners : (s.enterActive x).listeners x .start = [k] := by
    rw [← hl]
    refine listeners_congr (by rw [enterActive_rest]) ⟨fun h => ?_, hnot⟩ fun j hj => (enterActive_fault j).trans (if_neg hj)
    rw [enterActive_fault, if_pos rfl] at h
    exact nomatch h.1
  have hself : (s.enterActive x).fault k = s.fault k := (enterActive_fault k).trans (if_neg hkx)
  rw [State.fire, fireFuel_succ, if_pos hx, if_pos hex, hlisteners, List.foldl_cons, List.foldl_nil, fire_relay, fireFuel_relay]
  all_goals rw [hself]; assumption

/-- A relay record fires at the END event of an electronic one as it does once that activation has ended. -/
theorem endActivation_heard (hx : (s.fault x).state ≠ .armed) (hex : (s.fault x).kind.electronic = true)
    (hl : s.listeners x .stop = [k]) (hek : (s.fault k).kind.electronic = false) :
    s.endActivation x = (((s.updFault x fun _ => s.endedNow x).raiseSet (s.endAnnounced x) .faultEvent).showFree
      (s.fault x).target).fire k := by
  have hkx : k ≠ x := by
    rintro rfl
    rw [hex] at hek
    cases hek
  obtain ⟨-, hka, -⟩ := mem_listeners.1 (hl ▸ List.mem_singleton.2 rfl : k ∈ s.listeners x .stop)
  have hstamped : (s.stamped x).fault k = s.fault k := (updFault_fault _ k).trans (if_neg hkx)
  have hproduce : (s.stamped x).produce x .stop = if (s.stamped x).outOfService (s.fault k) then
      (s.stamped x).enterFailed k .outOfService else (s.stamped x).joined k := by
    rw [State.produce, stamped_listeners hx, hl, List.foldl_cons, List.foldl_nil, fire_relay (by rw [hstamped]; exact hka)
      (by rw [hstamped]; exact hek), hstamped]
  have hbefore : (s.updFault x fun _ => s.endedNow x).raiseSet (s.endAnnounced x) .faultEvent =
      ((s.stamped x).updFault x fun _ => s.endedNow x).raiseSet (s.endAnnounced x) .faultEvent := by
    rw [State.stamped, updFault_updFault]
  have hended : ((((s.stamped x).updFault x fun _ => s.endedNow x).raiseSet (s.endAnnounced x) .faultEvent).showFree
      (s.fault x).target).fault k = s.fault k := by
    rw [showFree_fault, raiseSet_fault, updFault_fault, if_neg hkx, hstamped]
  have hout : ((((s.stamped x).updFault x fun _ => s.endedNow x).raiseSet (s.endAnnounced x) .faultEvent).showFree
      (s.fault x).target).outOfService (s.fault k) = (s.stamped x).outOfService (s.fault k) := by
    rw [showFree_eq]
    rfl
  rw [endActivation_of_electronic hex hx, hbefore, hproduce, fire_relay (by rw [hended]; exact hka)
    (by rw [hended]; exact hek), hended, hout]
  split_ifs
  · exact enterFailed_swap hkx (by rw [hstamped]; exact hek)
  · exact joined_swap hkx (by rw [hstamped]; exact hek)

/-! ## O35 -/

/-- A relay record that fires in `u`, out of service or not, and the pass that follows (R93, R97). -/
theorem fired_relay_leaves (ha : (u.fault k).state = .armed) (he : (u.fault k).kind.electronic = false) :
    ((∃ c, (u.fault k).onChannel c ∧ (u.relaySet c).inService = false) → (u.examineDue = false ∨ u.due ≠ []) →
      (u.fire k).settle = (u.updFault k fun r =>
        { r with state := .failed, failReason := some .outOfService, seq := none }).raiseSet
          (u.fault k).notify .faultEvent) ∧
    ((∀ c, (u.fault k).onChannel c → (u.relaySet c).inService = true) → ∀ r : State, u.joins k r →
      r.passLeaves (u.fire k).settle) := by
  refine ⟨fun hout hq => ?_, fun hin r hr => ?_⟩
  · rw [State.fire, fireFuel_failed ha he hout]
    exact settle_of_no_pass hq
  · rw [State.fire, fireFuel_joined ha he hin, joins_eq hr]
    exact settle_passLeaves rfl

/-- Settles O35. -/
theorem relayRecordIsGranted : Obligations.RelayRecordIsGranted := by
  refine ⟨fun s k i e htrigger hdue hm ha hf he => ?_,
    fun s l k cycle a hr hdue hhalf hx hj hm ha ht he hothers => ?_,
    fun s x k i e v hdue hm hex hek hl hcase => ?_⟩
  · obtain ⟨hfailed, hjoins⟩ := fired_relay_leaves (u := s.took e) ha he
    have hexec := exec_of_triggers htrigger hdue hm ha hf
    exact ⟨s.took e, rfl, fun hout hpass => hexec.trans (congrArg Host.Outcome.next (hfailed hout hpass)),
      fun hin r hr => ⟨_, hexec, hjoins hin r hr⟩⟩
  · obtain ⟨-, -, hangle, -⟩ := makeTick_clock (s.changePins l)
    have hfired := tickFired_alone (s := s.changePins l) (k := k) (cycle := cycle) (a := a) hm ha ht hothers
    have hadvance : (s.changePins l).advanceNow = angleAdvance (angleCount s.angle.phase)
        (angleCount (s.changePins l).makeTick.angle.phase) := by
      rw [hangle]
      rfl
    have hself : (s.changePins l).tickCounted.fault k = { s.fault k with fresh := false } :=
      (tickCounted_fault _ k).trans (tickRecord_armed ha)
    have hservice (c : Fin 24) : ((s.changePins l).tickCounted.relaySet c).inService = (s.relaySet c).inService := by
      rw [tickCounted_relaySet]
      rfl
    refine ⟨_, _, congrArg Host.Outcome.next (tick_of_closed l hr hdue hhalf), hadvance, fun hnot => ?_, fun hreach => ?_⟩
    · rw [← reaches_iff, hangle] at hnot
      exact makeTick_unfired (s := s.changePins l) hx ha (hfired.trans (if_neg hnot))
    · rw [← reaches_iff, hangle] at hreach
      have hfire := hfired.trans (if_pos hreach)
      refine ⟨fun hout => ?_, fun hin => ?_⟩
      · refine makeTick_failed (s := s.changePins l) hx hj ha (hfire.trans (fireFuel_failed ?_ ?_ ?_))
        · rw [hself]
          exact ha
        · rw [hself]
          exact he
        · obtain ⟨c, hc, hs⟩ := hout
          exact ⟨c, by rw [hself]; exact hc, (hservice c).trans hs⟩
      · refine makeTick_joined (s := s.changePins l) hj ha (hfire.trans (fireFuel_joined ?_ ?_ fun c hc => ?_))
        · rw [hself]
          exact ha
        · rw [hself]
          exact he
        · rw [hself] at hc
          exact (hservice c).trans (hin c hc)
  · have hkx : k ≠ x := by
      rintro rfl
      rw [hex] at hek
      cases hek
    obtain ⟨-, hka, -⟩ := mem_listeners.1 (hl ▸ List.mem_singleton.2 rfl : k ∈ s.listeners x v)
    have hstart : ∀ i, s.triggers x i e → v = .start → (s.fault x).state = .armed → (s.fault x).fresh = false →
        ∃ (y : FaultRecord) (u : State), y = (if v = .start then s.activeNow x else s.endedNow x) ∧
          u = { ({ s with due := s.due.erase e }.updFault x fun _ => y).raiseSet
            (if y.state = FaultState.armed then ⟨false, false⟩ else (s.fault x).notify) .faultEvent with
              channels := u.channels } ∧
          s.showsAfter u (s.fault x).target ∧ exec i s = .next (u.fire k).settle := by
      rintro i htrigger rfl hxa hxf
      have hactive := enterActive_of_electronic (s := s.took e) (k := x) hex
      refine ⟨_, (s.took e).enterActive x, rfl, ?_, ?_, ?_⟩
      · rw [if_pos rfl, if_neg nofun, hactive, showFree_eq]
        rfl
      · rw [hactive]
        exact showFree_showsAfter (s := s) _ rfl
      · rw [exec_of_triggers htrigger hdue hm hxa hxf, fire_heard (s := s.took e) hxa hex hl hek]
    have hall : ∃ (y : FaultRecord) (u : State), y = (if v = .start then s.activeNow x else s.endedNow x) ∧
        u = { ({ s with due := s.due.erase e }.updFault x fun _ => y).raiseSet
          (if y.state = FaultState.armed then ⟨false, false⟩ else (s.fault x).notify) .faultEvent with
            channels := u.channels } ∧
        s.showsAfter u (s.fault x).target ∧ exec i s = .next (u.fire k).settle := by
      rcases hcase with ⟨rfl, hv, rfl, hxa, hxf, ht⟩ | ⟨rfl, hv, rfl, hxa, hxf, ht⟩ | ⟨rfl, rfl, rfl, hxa, hxo⟩
      · exact hstart _ (.inl ⟨rfl, rfl, ht⟩) hv hxa hxf
      · exact hstart _ (.inr ⟨rfl, rfl, ht⟩) hv hxa hxf
      · have hnot : (s.fault x).state ≠ .armed := fun h => absurd (hxa.symm.trans h) (by decide)
        refine ⟨_, (((s.took (.durationEnd x)).updFault x fun _ => (s.took (.durationEnd x)).endedNow x).raiseSet
          ((s.took (.durationEnd x)).endAnnounced x) .faultEvent).showFree (s.fault x).target, rfl, ?_,
          showFree_showsAfter (s := s) _ rfl, ?_⟩
        · rw [if_neg nofun, showFree_eq]
          rfl
        · rw [exec_durationEnd hdue hxa hxo hex, endActivation_heard (s := s.took (.durationEnd x)) hnot hex hl hek]
          rfl
    obtain ⟨y, u, hy, hu, hshows, hexec⟩ := hall
    have huk : u.fault k = s.fault k := by
      rw [hu]
      exact (updFault_fault _ k).trans (if_neg hkx)
    have hset (c : Fin 24) : u.relaySet c = s.relaySet c := by
      rw [hu]
      rfl
    have hquiet : s.noPassAfter e → u.examineDue = false ∨ u.due ≠ [] := by
      rw [hu]
      exact id
    obtain ⟨hfailed, hjoins⟩ := fired_relay_leaves (u := u) (k := k) (by rw [huk]; exact hka) (by rw [huk]; exact hek)
    simp only [huk, hset] at hfailed hjoins
    exact ⟨y, u, hy, hu, hshows, fun hout hpass => hexec.trans (congrArg Host.Outcome.next (hfailed hout (hquiet hpass))),
      fun hin r hr => ⟨_, hexec, hjoins hin r hr⟩⟩

end Sys2Proof.Machine
end

section
/-! What entry to SAFE does to the Fault Table, record by record (R113). -/

namespace Sys2Proof.Machine

variable {s t u v : State} {j k : Fin 64} {c : Fin 24} {e : FaultEvent}

/-! ## The end of an activation outside RUN -/

theorem listeners_of_not_run (h : s.run.mode ≠ .run) : s.listeners k e = [] := if_neg h

theorem endActivation_of_relay (he : (s.fault k).kind.electronic = false) (ha : (s.fault k).state ≠ .armed)
    (hl : s.listeners k .stop = []) :
    s.endActivation k = (s.updFault k fun _ => s.endedNow k).raiseSet (s.endAnnounced k) .faultEvent := by
  have hended := rearmedOrDone_eq (v := s.stamped k) (s := s) (k := k) rfl
  have hproduce : (s.stamped k).produce k .stop = s.stamped k := produce_of_no_listener (by rw [stamped_listeners ha, hl])
  rw [endActivation_eq, hproduce, hended, raiseSet_fault, updFault_fault, if_pos rfl, endedNow_kind, if_neg (by rw [he]; decide),
    State.stamped, updFault_updFault]

/-- A record enters STOPPING (R100). -/
def State.enterStopping (s : State) (k : Fin 64) : State := s.updFault k fun r => { r with state := .stopping }

theorem enterStopping_fault (j : Fin 64) : (s.enterStopping k).fault j =
    if j = k then { s.fault k with state := .stopping } else s.fault j := updFault_fault _ j

/-- A sequence goes on, in flight or complete. -/
theorem goOn_cases (s : State) (k : Fin 64) (b : Bool) (i : Nat) (done : State → Fin 64 → State) :
    ∃ u : State, u = { s with relays := u.relays } ∧
      ((∃ j, s.goOn k b i done = u.updFault k fun r => { r with seq := some ⟨b, j⟩ }) ∨ s.goOn k b i done = done u k) := by
  refine ⟨(runSteps s i ((sequenceSteps (s.fault k) b).drop i)).1, runSteps_eq _ _ _, ?_⟩
  unfold State.goOn
  dsimp only
  split
  next j _ => exact .inl ⟨j, rfl⟩
  next => exact .inr rfl

/-- A stop sequence is in flight, or complete at once (R54, R100). -/
theorem beginStop_cases (s : State) (k : Fin 64) : ∃ u : State, u = { s with relays := u.relays } ∧
    ((∃ i, s.beginStop k = u.updFault k fun r => { r with state := .stopping, seq := some ⟨true, i⟩ }) ∨
      s.beginStop k = (u.enterStopping k).stopComplete k) := by
  obtain ⟨w, hw, hcases⟩ := goOn_cases (s.enterStopping k) k true 0 State.stopComplete
  have hstop : w = State.enterStopping { s with relays := w.relays } k := hw
  refine ⟨{ s with relays := w.relays }, rfl, ?_⟩
  rcases hcases with ⟨i, hi⟩ | hi
  · refine .inl ⟨i, ?_⟩
    show (s.enterStopping k).goOn k true 0 State.stopComplete = _
    rw [hi, hstop]
    exact updFault_updFault _ _
  · refine .inr ?_
    show (s.enterStopping k).goOn k true 0 State.stopComplete = _
    rw [hi, ← hstop]

/-! ## One record (R113) -/

/-- Record `r` is left as `y` by an entry to SAFE at the instant of `s` (R113). -/
def State.safeForm (s : State) (r y : FaultRecord) : Prop :=
  (r.state = .free ∨ r.state = .done ∨ r.state = .failed → y = r) ∧
  (r.state = .armed ∨ r.state = .waiting → y = { r with state := .done, frozen := none, seq := none }) ∧
  (r.state = .starting ∨ r.state = .stopping → y = { r with releasePending := true }) ∧
  (r.state = .active → r.kind.electronic = true →
    y = { r with
      state := .done, releasePending := true, frozen := none, seq := none
      activations := r.activations + 1
      endStamp := some s.stampNow }) ∧
  (r.state = .active → r.kind.electronic = false → y.releasePending = true ∧ (y.state = .stopping ∨ y.state = .done))

theorem safeForm_state {r y : FaultRecord} (h : s.safeForm r y) : y.state ≠ .active ∧ y.state ≠ .waiting := by
  obtain ⟨hrest, hready, htravel, helectronic, hrelay⟩ := h
  cases hr : r.state with
  | free => rw [hrest (.inl hr), hr]; decide
  | done => rw [hrest (.inr (.inl hr)), hr]; decide
  | failed => rw [hrest (.inr (.inr hr)), hr]; decide
  | armed => rw [hready (.inl hr)]; exact ⟨nofun, nofun⟩
  | waiting => rw [hready (.inr hr)]; exact ⟨nofun, nofun⟩
  | starting => rw [htravel (.inl hr)]; simp [hr]
  | stopping => rw [htravel (.inr hr)]; simp [hr]
  | active =>
    by_cases he : r.kind.electronic = true
    · rw [helectronic hr he]; exact ⟨nofun, nofun⟩
    · rcases (hrelay hr (by simpa using he)).2 with h | h <;> rw [h] <;> decide

theorem safeForm_not_active {r y : FaultRecord} (h : s.safeForm r y) : y.state ≠ .active := (safeForm_state h).1

theorem safeRecord_of_ready (h : (s.fault k).state = .armed) : s.safeRecord k = s.enterDone k := by
  unfold State.safeRecord
  simp only [h]

theorem safeRecord_of_waiting (h : (s.fault k).state = .waiting) : s.safeRecord k = (s.leaveList k).enterDone k := by
  unfold State.safeRecord
  simp only [h]

theorem safeRecord_of_travelling (h : (s.fault k).state = .starting ∨ (s.fault k).state = .stopping) :
    s.safeRecord k = s.releasing k := by
  unfold State.safeRecord
  rcases h with h | h <;> simp only [h] <;> rfl

theorem safeRecord_of_resting (h : (s.fault k).state = .free ∨ (s.fault k).state = .done ∨ (s.fault k).state = .failed) :
    s.safeRecord k = s := by
  unfold State.safeRecord
  rcases h with h | h | h <;> simp only [h]

/-- The activation of an ACTIVE electronic record ends at an entry to SAFE, with nobody to hear it (R113). -/
theorem safeRecord_of_electronic (hm : s.run.mode ≠ .run) (h : (s.fault k).state = .active)
    (he : (s.fault k).kind.electronic = true) : s.safeRecord k = ((s.updFault k fun r =>
      { r with
        state := .done, releasePending := true, frozen := none, seq := none
        activations := r.activations + 1
        endStamp := some s.stampNow }).raiseSet (s.fault k).notify .faultEvent).showFree (s.fault k).target := by
  have hdone := endedNow_of_done (s := s.releasing k) (k := k) (.inl (by rw [releasing_fault]))
  have hend := endActivation_of_no_listener (s := s.releasing k) (k := k) (by rw [releasing_fault]; exact he)
    (by rw [releasing_fault]; exact fun ha => absurd (h.symm.trans ha) (by decide)) (listeners_of_not_run hm)
  rw [safeRecord_of_active h, if_pos he, hend, State.endAnnounced, hdone, if_neg nofun, releasing_fault]
  exact congrArg (fun u : State => (u.raiseSet (s.fault k).notify .faultEvent).showFree (s.fault k).target)
    ((updFault_updFault _ _).trans (updFault_congr rfl))

theorem stopComplete_not_run (hm : s.run.mode ≠ .run) (he : (s.fault k).kind.electronic = false)
    (ha : (s.fault k).state ≠ .armed) : s.stopComplete k =
      (((s.unsequenced k).releaseHolders k).updFault k fun _ => ((s.unsequenced k).releaseHolders k).endedNow k).raiseSet
        (((s.unsequenced k).releaseHolders k).endAnnounced k) .faultEvent := by
  have hself : ((s.unsequenced k).releaseHolders k).fault k = { s.fault k with seq := none } := by
    rw [releaseHolders_fault, unsequenced_fault_self]
  rw [stopComplete_eq]
  exact endActivation_of_relay (by rw [hself]; exact he) (by rw [hself]; exact ha) (listeners_of_not_run hm)

/-- An ACTIVE relay record at an entry to SAFE: its stop sequence is in flight or complete, and nothing but its record and
the Relay Matrix changes, its notices apart (R100, R113). -/
theorem safeRecord_of_relay (hm : s.run.mode ≠ .run) (h : (s.fault k).state = .active)
    (he : (s.fault k).kind.electronic = false) :
    (s.safeRecord k).channels = s.channels ∧ (∀ j, j ≠ k → (s.safeRecord k).fault j = s.fault j) ∧
      ((s.safeRecord k).fault k).releasePending = true ∧ ((s.safeRecord k).fault k).kind.electronic = false ∧
      (((s.safeRecord k).fault k).state = .stopping ∨ ((s.safeRecord k).fault k).state = .done) := by
  obtain ⟨u, hu, hcases⟩ := beginStop_cases (s.releasing k) k
  have hfault (j : Fin 64) : u.fault j = (s.releasing k).fault j := by rw [hu]; rfl
  have hchannels : u.channels = s.channels := by rw [hu]; rfl
  have hmode : u.run.mode ≠ .run := by rw [hu]; exact hm
  rw [safeRecord_of_active h, if_neg (by rw [he]; decide)]
  rcases hcases with ⟨i, hstop⟩ | hstop <;> rw [hstop]
  · refine ⟨hchannels, fun j hj => ?_, ?_, ?_, .inl ?_⟩
    · rw [updFault_fault, if_neg hj, hfault, releasing_fault_ne hj]
    · rw [updFault_fault, if_pos rfl, hfault, releasing_fault]
    · rw [updFault_fault, if_pos rfl, hfault, releasing_fault]
      exact he
    · rw [updFault_fault, if_pos rfl]
  · have hself : (u.enterStopping k).fault k = { s.fault k with releasePending := true, state := .stopping } := by
      rw [enterStopping_fault, if_pos rfl, hfault, releasing_fault]
    rw [stopComplete_not_run (s := u.enterStopping k) hmode (by rw [hself]; exact he) (by rw [hself]; nofun)]
    have hwfault (j : Fin 64) : (((u.enterStopping k).unsequenced k).releaseHolders k).fault j =
        if j = k then { s.fault k with releasePending := true, state := .stopping, seq := none } else s.fault j := by
      rw [releaseHolders_fault]
      by_cases hj : j = k
      · rw [if_pos hj, hj, unsequenced_fault_self, hself]
      · rw [if_neg hj, State.unsequenced, updFault_fault, if_neg hj, enterStopping_fault, if_neg hj, hfault,
          releasing_fault_ne hj]
    have hwchannels : (((u.enterStopping k).unsequenced k).releaseHolders k).channels = s.channels := by
      rw [← hchannels]
      simp [State.enterStopping, State.unsequenced]
    generalize ((u.enterStopping k).unsequenced k).releaseHolders k = w at hwfault hwchannels
    have hwself := (hwfault k).trans (if_pos rfl)
    have hdone := endedNow_of_done (s := w) (k := k) (.inl (by rw [hwself]))
    refine ⟨hwchannels, fun j hj => ?_, ?_, ?_, .inr ?_⟩
    · rw [raiseSet_fault, updFault_fault, if_neg hj, hwfault, if_neg hj]
    · rw [raiseSet_fault, updFault_fault, if_pos rfl, hdone, hwself]
    · rw [raiseSet_fault, updFault_fault, if_pos rfl, hdone, hwself]
      exact he
    · rw [raiseSet_fault, updFault_fault, if_pos rfl, hdone]

/-- An entry to SAFE leaves each record by its state (R113). -/
theorem safeRecord_fault (hm : s.run.mode ≠ .run) (j : Fin 64) :
    (j ≠ k → (s.safeRecord k).fault j = s.fault j) ∧ s.safeForm (s.fault k) ((s.safeRecord k).fault k) := by
  cases hk : (s.fault k).state with
  | free | done | failed =>
    rw [safeRecord_of_resting (by simp [hk])]
    exact ⟨fun _ => rfl, by simp [State.safeForm, hk]⟩
  | armed =>
    rw [safeRecord_of_ready hk]
    refine ⟨fun hj => (enterDone_fault j).trans (if_neg hj), ?_⟩
    rw [enterDone_fault, if_pos rfl]
    simp [State.safeForm, hk]
  | waiting =>
    rw [safeRecord_of_waiting hk]
    refine ⟨fun hj => (enterDone_fault j).trans (if_neg hj), ?_⟩
    rw [enterDone_fault, if_pos rfl]
    simp only [State.safeForm, hk]
    exact ⟨by simp, fun _ => rfl, by simp, by simp, by simp⟩
  | starting | stopping =>
    rw [safeRecord_of_travelling (by simp [hk])]
    refine ⟨fun hj => releasing_fault_ne hj, ?_⟩
    rw [releasing_fault]
    simp [State.safeForm, hk]
  | active =>
    by_cases he : (s.fault k).kind.electronic = true
    · rw [safeRecord_of_electronic hm hk he]
      refine ⟨fun hj => ?_, ?_⟩
      · rw [showFree_fault, raiseSet_fault, updFault_fault, if_neg hj]
      · rw [showFree_fault, raiseSet_fault, updFault_fault, if_pos rfl]
        simp [State.safeForm, hk, he]
    · have he' : (s.fault k).kind.electronic = false := by simpa using he
      obtain ⟨-, hothers, hpending, -, hstate⟩ := safeRecord_of_relay hm hk he'
      refine ⟨fun hj => hothers j hj, ?_⟩
      simp only [State.safeForm, hk, he']
      exact ⟨by simp, by simp, by simp, by simp, fun _ _ => ⟨hpending, hstate⟩⟩

end Sys2Proof.Machine
end

section
/-! The Fault Table, the pins and the Relay Matrix after an entry to SAFE (R34, R100, R113). -/

namespace Sys2Proof.Machine

variable {s t u v : State} {j k : Fin 64} {c d : Fin 24} {n : RelayName} {e : FaultEvent} {l : List Wish}

/-! ## Every record (R113) -/

theorem safeRecord_clock : (s.safeRecord k).run = s.run ∧ (s.safeRecord k).stampNow = s.stampNow := by
  rw [← release_eq_safeRecord]
  exact ⟨by simp [release_eq_safeRecord], by simp [release_eq_safeRecord, State.stampNow, State.angleNow]⟩

theorem safeForm_congr {r y : FaultRecord} (h : u.stampNow = s.stampNow) : u.safeForm r y ↔ s.safeForm r y := by
  rw [State.safeForm, State.safeForm, h]

theorem safeFold_fault (l : List (Fin 64)) (hl : l.Nodup) : ∀ {s : State}, s.run.mode ≠ .run →
    ∀ j, (j ∉ l → (l.foldl State.safeRecord s).fault j = s.fault j) ∧
      (j ∈ l → s.safeForm (s.fault j) ((l.foldl State.safeRecord s).fault j)) := by
  induction l with
  | nil => exact fun _ _ => ⟨fun _ => rfl, fun h => absurd h List.not_mem_nil⟩
  | cons k l ih =>
    intro s hm j
    obtain ⟨hk, hl⟩ := List.nodup_cons.1 hl
    obtain ⟨hrun, hstamp⟩ := safeRecord_clock (s := s) (k := k)
    obtain ⟨hout, hin⟩ := ih hl (s := s.safeRecord k) (by rw [hrun]; exact hm) j
    obtain ⟨hothers, hself⟩ := safeRecord_fault (k := k) hm j
    rw [List.foldl_cons]
    refine ⟨fun hj => ?_, fun hj => ?_⟩
    · obtain ⟨hjk, hjl⟩ := List.ne_and_not_mem_of_not_mem_cons hj
      rw [hout hjl, hothers hjk]
    · rcases List.mem_cons.1 hj with rfl | hjl
      · rw [hout hk]
        exact hself
      · have hjk : j ≠ k := fun h => hk (h ▸ hjl)
        rw [← safeForm_congr hstamp, ← hothers hjk]
        exact hin hjl

theorem safeFaults_fault (hm : s.run.mode ≠ .run) (j : Fin 64) : s.safeForm (s.fault j) (s.safeFaults.fault j) :=
  (safeFold_fault _ (List.nodup_finRange 64) hm j).2 (List.mem_finRange j)

/-! ## The pins of the FREE channels (R34, R107) -/

/-- The pin of every FREE channel shows the level of its generator and its overlay (R107). -/
def State.pinsFollow (s : State) : Prop :=
  ∀ c, s.channel c = shownThrough c (s.effectiveRecord c) (s.channel c)

theorem shownThrough_idem (x : Channel) (r : Option FaultRecord) :
    shownThrough c r (shownThrough c r x) = shownThrough c r x := by
  unfold shownThrough
  by_cases h : kindOf c = .pulse ∧ x.mode = .free
  · simp only [if_pos h]
  · simp only [if_neg h]

theorem pinsFollow_of (h : s.pinsFollow) (hc : u.channels = s.channels)
    (hf : ∀ c, u.effectiveRecord c = s.effectiveRecord c) : u.pinsFollow := by
  intro c
  have hchannel : u.channel c = s.channel c := by rw [State.channel, State.channel, hc]
  rw [hf, hchannel]
  exact h c

theorem effectiveRecord_of_inactive (hothers : ∀ j, j ≠ k → u.fault j = s.fault j) (hs : (s.fault k).state ≠ .active)
    (hu : (u.fault k).state ≠ .active) (c : Fin 24) : u.effectiveRecord c = s.effectiveRecord c := by
  refine effectiveRecord_unshaped fun j => ?_
  by_cases hj : j = k
  · exact .inr ⟨hj ▸ not_shapesOn_of_state hu, hj ▸ not_shapesOn_of_state hs⟩
  · exact .inl (hothers j hj)

theorem safeRecord_pinsFollow (hm : s.run.mode ≠ .run) (h : s.pinsFollow) : (s.safeRecord k).pinsFollow := by
  have hothers (j : Fin 64) := (safeRecord_fault (k := k) hm j).1
  have hstate := safeForm_not_active (safeRecord_fault (k := k) hm k).2
  by_cases hk : (s.fault k).state = .active
  · by_cases he : (s.fault k).kind.electronic = true
    · rw [safeRecord_of_electronic hm hk he] at hothers hstate ⊢
      generalize hw : (s.updFault k fun r =>
        { r with
          state := .done, releasePending := true, frozen := none, seq := none
          activations := r.activations + 1
          endStamp := some s.stampNow }).raiseSet (s.fault k).notify .faultEvent = w at hothers hstate
      simp only [showFree_fault] at hothers hstate
      intro d
      have hshown : (w.showFree (s.fault k).target).effectiveRecord d = w.effectiveRecord d :=
        congrFun (effectiveRecord_congr (by simp)) d
      have hchannel (d : Fin 24) : w.channel d = s.channel d := by rw [← hw]; rfl
      rw [hshown]
      by_cases hd : (s.fault k).target = d
      · subst hd
        rw [showFree_channel, shownThrough_idem]
      · have heff : w.effectiveRecord d = s.effectiveRecord d := effectiveRecord_unshaped fun j => by
          by_cases hj : j = k
          · exact .inr ⟨hj ▸ not_shapesOn_of_state hstate, fun hs => hd (hj ▸ hs.2.2)⟩
          · exact .inl (hothers j hj)
        rw [showFree_channel_ne hd, hchannel, heff]
        exact h d
    · have he' : (s.fault k).kind.electronic = false := by simpa using he
      obtain ⟨hchannels, -, -, hkind, -⟩ := safeRecord_of_relay hm hk he'
      refine pinsFollow_of h hchannels fun c => effectiveRecord_unshaped fun j => ?_
      by_cases hj : j = k
      · subst hj
        exact .inr ⟨not_shapesOn_of_relay hkind, not_shapesOn_of_relay he'⟩
      · exact .inl (hothers j hj)
  · refine pinsFollow_of h ?_ (effectiveRecord_of_inactive (fun j hj => hothers j hj) hk hstate)
    cases hs : (s.fault k).state with
    | active => exact absurd hs hk
    | free | done | failed => rw [safeRecord_of_resting (by simp [hs])]
    | armed => rw [safeRecord_of_ready hs]; rfl
    | waiting => rw [safeRecord_of_waiting hs]; rfl
    | starting | stopping => rw [safeRecord_of_travelling (by simp [hs])]; rfl

theorem safeFaults_pinsFollow (hm : s.run.mode ≠ .run) (h : s.pinsFollow) : s.safeFaults.pinsFollow := by
  unfold State.safeFaults
  generalize List.finRange 64 = l
  induction l generalizing s with
  | nil => exact h
  | cons k l ih => exact ih (by rw [safeRecord_clock.1]; exact hm) (safeRecord_pinsFollow hm h)


theorem haltGenerators_pinsFollow (s : State) : s.haltGenerators.pinsFollow := by
  intro c
  rw [congrFun (effectiveRecord_congr (u := s.haltGenerators) (s := s) (by simp)) c, haltGenerators_channel]
  by_cases hc : kindOf c = .pulse
  · rw [if_pos hc, shownThrough_idem]
  · rw [if_neg hc]
    exact (if_neg fun h => hc h.1).symm

/-- Channel `c`, halted as `x`, is `y` but for its pin, which a WHEEL channel keeps (R34). -/
def haltedFrom (c : Fin 24) (x y : Channel) : Prop :=
  (kindOf c ≠ .pulse → y = x) ∧
  (kindOf c = .pulse → y = { haltGenerator x with pin := y.pin, pinHeld := y.pinHeld }) ∧
  (kindOf c = .pulse → x.mode = .wheel → y.pin = x.pin ∧ y.pinHeld = x.pinHeld)

theorem haltedFrom_shown {x y : Channel} {r : Option FaultRecord} (h : haltedFrom c x y) :
    haltedFrom c x (shownThrough c r y) := by
  obtain ⟨hother, hpulse, hwheel⟩ := h
  unfold shownThrough
  by_cases hc : kindOf c = .pulse ∧ y.mode = .free
  · rw [if_pos hc]
    refine ⟨fun h => absurd hc.1 h, fun h => ?_, fun h hm => ?_⟩
    · have heq := hpulse h
      generalize (pulsePin r y.inverted (y.gen.any fun g => g.active)) = p
      rw [heq]
    · rw [hpulse h] at hc
      exact absurd (hm.symm.trans hc.2) (by decide)
  · rw [if_neg hc]
    exact ⟨hother, hpulse, hwheel⟩

theorem haltGenerators_halted (s : State) (c : Fin 24) : haltedFrom c (s.channel c) (s.haltGenerators.channel c) := by
  rw [haltGenerators_channel]
  by_cases hc : kindOf c = .pulse
  · rw [if_pos hc]
    exact haltedFrom_shown ⟨fun h => absurd hc h, fun _ => rfl, fun _ _ => ⟨rfl, rfl⟩⟩
  · rw [if_neg hc]
    exact ⟨fun _ => rfl, fun h => absurd h hc, fun h => absurd h hc⟩

/-- No operation on records and relays changes more of a halted channel than a pin that follows. -/
theorem unmoved_halted (c : Fin 24) (x : Channel) : Unmoved fun u => haltedFrom c x (u.channel c) where
  tables _ _ _ _ _ _ _ h := h
  shown u d h := by
    by_cases hd : d = c
    · subst hd
      rw [showFree_channel]
      exact haltedFrom_shown h
    · rw [showFree_channel_ne hd]
      exact h
  raiseSet _ _ h := h
  due _ _ h := h

/-- The captures of a port stay as they are. -/
theorem unmoved_captures (p : Port) (l : List CaptureRecord) : Unmoved fun u => (u.port p).captures = l where
  tables _ _ _ _ _ _ _ h := by cases p <;> exact h
  shown u d h := by cases p <;> simpa [State.port] using h
  raiseSet u l h := by
    rw [raiseSet_port]
    split <;> exact h
  due _ _ h := by cases p <;> exact h

/-- A FREE channel that is halted and that no record is effective on shows the inactive level (R34, R107). -/
theorem inactive_of_follows (h : s.pinsFollow) (hnone : ∀ k, (s.fault k).state ≠ .active) {x : Channel}
    (hx : haltedFrom c x (s.channel c)) (hc : kindOf c = .pulse) (hm : x.mode = .free) :
    (s.channel c).pin = (if x.inverted then 1 else 0) ∧ (s.channel c).pinHeld = false := by
  obtain ⟨-, hpulse, -⟩ := hx
  have heff : s.effectiveRecord c = none := effectiveRecord_none fun k _ => hnone k
  have hshown := h c
  rw [heff, shownThrough, if_pos ⟨hc, by rw [hpulse hc]; exact hm⟩] at hshown
  have hpins := congrArg (fun y : Channel => (y.pin, y.pinHeld)) hshown
  have hinverted : (s.channel c).inverted = x.inverted := by rw [hpulse hc]; rfl
  have hgen : (s.channel c).gen = none := by rw [hpulse hc]; rfl
  simp only [hgen, hinverted, Option.any_none, Prod.mk.injEq] at hpins
  rw [hpins.1, hpins.2]
  cases x.inverted <;> exact ⟨rfl, rfl⟩

/-! ## The pass of an empty wait list (R97) -/

theorem settle_of_empty (hw : s.waitList = []) (hj : s.joining = []) : s.settle = { s with examineDue := s.settle.examineDue } := by
  by_cases hp : s.examineDue = true ∧ s.due = []
  · have hone : s.settle = settleFuel 64 s.examine := if_pos hp
    have hexamine : s.examine = { s with examineDue := false } := by
      have hwhole : s.wholeList = [] := by rw [State.wholeList, hw, hj]; rfl
      rw [State.examine, hwhole]
      simp [hw, hj]
    have hstop : settleFuel 64 s.examine = s.examine := if_neg (by rw [hexamine]; exact fun h => Bool.false_ne_true h.1)
    rw [hone, hstop, hexamine]
  · have hnone : s.settle = s := if_neg hp
    rw [hnone]

end Sys2Proof.Machine
end

section
/-! O50: ENTER_SAFE. -/

namespace Sys2Proof.Machine

variable {s t u v : State} {j k : Fin 64} {c d : Fin 24} {n : RelayName} {pos : Position} {e : FaultEvent} {l : List Wish}

/-! ## The first stop step of an ACTIVE record (R54, R56) -/

theorem planned_of_active (hs : s.matrixLaw) (hseq : (s.fault k).seq = none) (ha : (s.fault k).state = .active)
    (he : (s.fault k).kind.electronic = false) (hc : c ∈ needs (s.fault k)) : (s.relaySet c).holder = some k ∧
      ∀ n, (s.relaySet c).relays.get n = atRest (plannedPosition (startSteps (s.fault k)).flatten c n) := by
  obtain ⟨-, -, -, -, -, -, hholds, -, hcourse, hnormal, -⟩ := hs
  have htravels : travels (s.fault k) := ⟨he, .inr (.inl ha)⟩
  have hholder := (hholds k htravels).1 c hc
  have hstill : (s.relaySet c).normalising = none := by
    by_contra hn
    have := hnormal c k hholder (Option.isSome_iff_ne_none.2 hn)
    exact absurd (ha.symm.trans this) (by decide)
  refine ⟨hholder, fun n => ?_⟩
  have := (hcourse c k hholder hstill htravels).2 n
  simp only [stepNow, stepsBehind, hseq, List.any_nil] at this
  exact this

theorem rest_injective {p q : Position} (h : p.rest = q.rest) : p = q := by
  cases p <;> cases q <;> simp_all [Position.rest]

theorem open_of_rest {p : Position} (h : (s.relaySet c).relays.get n = atRest p) (hp : p ≠ pos) : s.open (c, n, pos) := by
  have hrelay : s.relay (c, n, pos) = atRest p := h
  rw [State.open, hrelay]
  exact ⟨by cases p <;> rfl, .inl fun hrest => hp (rest_injective hrest)⟩

/-- The first stop step of an ACTIVE relay record commands every relay that it names, on channels the record holds. -/
theorem stopSteps_open (hs : s.matrixLaw) (hseq : (s.fault k).seq = none) (ha : (s.fault k).state = .active)
    (he : (s.fault k).kind.electronic = false) : ∃ w l rest, stopSteps (s.fault k) = (w :: l) :: rest ∧
      (w :: l).Pairwise apart ∧ ∀ y ∈ w :: l, s.open y ∧ (s.relaySet y.1).holder = some k := by
  have hplanned {c : Fin 24} (hc : c ∈ needs (s.fault k)) := planned_of_active hs hseq ha he hc
  obtain ⟨-, -, hpartner, -, -, -, hholds, -⟩ := hs
  have htarget : (s.fault k).target ∈ needs (s.fault k) := mem_needs.2 (.inl rfl)
  obtain ⟨hholder, hrest⟩ := hplanned htarget
  cases hk : (s.fault k).kind with
  | openWire =>
    refine ⟨_, [], [], by rw [stopSteps, hk], List.pairwise_singleton _ _, fun y hy => ?_⟩
    obtain rfl := List.mem_singleton.1 hy
    refine ⟨open_of_rest (hrest .path) ?_, hholder⟩
    simp [plannedPosition, startSteps, hk]
  | shortGnd =>
    refine ⟨_, [], _, by rw [stopSteps, hk], List.pairwise_singleton _ _, fun y hy => ?_⟩
    obtain rfl := List.mem_singleton.1 hy
    refine ⟨open_of_rest (hrest .gnd) ?_, hholder⟩
    simp [plannedPosition, startSteps, hk]
  | shortBat =>
    refine ⟨_, [], _, by rw [stopSteps, hk], List.pairwise_singleton _ _, fun y hy => ?_⟩
    obtain rfl := List.mem_singleton.1 hy
    refine ⟨open_of_rest (hrest .bat) ?_, hholder⟩
    simp [plannedPosition, startSteps, hk]
  | pinShort =>
    obtain ⟨hsome, hne⟩ := hpartner k
    obtain ⟨p, hp⟩ := Option.isSome_iff_exists.1 (hsome.1 hk)
    obtain ⟨b, hb, -⟩ := (hholds k ⟨he, .inr (.inl ha)⟩).2 hk
    have hpt : p ≠ (s.fault k).target := fun h => hne (by rw [hp, h])
    obtain ⟨hholder', hrest'⟩ := hplanned (mem_needs.2 (.inr hp))
    refine ⟨_, _, _, by rw [stopSteps, hk, hp, hb], by simp [apart, Ne.symm hpt], fun y hy => ?_⟩
    rcases List.mem_cons.1 hy with rfl | hy
    · refine ⟨open_of_rest (hrest b.relay) ?_, hholder⟩
      cases b <;> simp [plannedPosition, startSteps, hk, hp, hb, hpt, Bus.relay]
    · obtain rfl := List.mem_singleton.1 hy
      refine ⟨open_of_rest (hrest' b.relay) ?_, hholder'⟩
      cases b <;> simp [plannedPosition, startSteps, hk, hp, hb, Ne.symm hpt, Bus.relay]
  | stuckAt | freeze | offset | gain | noise | missTooth | extraTooth => rw [hk] at he; cases he

/-- Every ACTIVE relay record can begin its stop sequence with a movement of each relay of the first step. -/
def State.readyToStop (s : State) : Prop := ∀ k, (s.fault k).state = .active → (s.fault k).kind.electronic = false →
  ∃ w l rest, stopSteps (s.fault k) = (w :: l) :: rest ∧ (w :: l).Pairwise apart ∧
    ∀ y ∈ w :: l, s.open y ∧ (s.relaySet y.1).holder = some k

/-- A record whose entry to DONE an entry to SAFE announces (R70, R113). -/
def announces (r : FaultRecord) : Bool :=
  r.state == .armed || r.state == .waiting || (r.state == .active && r.kind.electronic)

/-- The first stop step of a record that an entry to SAFE takes to STOPPING; empty for any other record. -/
def haltStep (r : FaultRecord) : List Wish := if r.state = .active then (stopSteps r).headD [] else []

theorem haltStep_of_electronic {r : FaultRecord} (h : r.kind.electronic = true) : haltStep r = [] := by
  have hsteps : stopSteps r = [] := by
    unfold stopSteps
    cases hk : r.kind with
    | stuckAt | freeze | offset | gain | noise | missTooth | extraTooth => rfl
    | openWire | shortGnd | shortBat | pinShort => rw [hk] at h; cases h
  unfold haltStep
  rw [hsteps]
  split <;> rfl

/-- An entry to SAFE has come to the records `l` of `s`, which left `u` (R70, R100, R113). -/
structure Halted (s : State) (l : List (Fin 64)) (u : State) : Prop where
  rest : u = { s with
    faults := u.faults, channels := u.channels, relays := u.relays, waitList := u.waitList, joining := u.joining
    examineDue := u.examineDue, portM := u.portM, portB := u.portB }
  sets : ∀ c, u.relaySet c = { s.relaySet c with relays := (u.relaySet c).relays }
  named : ∀ k ∈ l, ∀ w ∈ haltStep (s.fault k), u.relay w = s.timing.commands w.2.2
  unnamed : ∀ c n, (∀ k ∈ l, ∀ w ∈ haltStep (s.fault k), ¬(w.1 = c ∧ w.2.1 = n)) →
    (u.relaySet c).relays.get n = (s.relaySet c).relays.get n
  untouched : ∀ k, k ∉ l → u.fault k = s.fault k
  stopped : ∀ k ∈ l, (s.fault k).state = .active → (s.fault k).kind.electronic = false →
    u.fault k = { s.fault k with state := .stopping, releasePending := true, seq := some ⟨true, 0⟩ }
  ports : ∀ p, u.port p = { s.port p with sticky := (u.port p).sticky }
  flags : ∀ p b, (u.port p).sticky.getLsbD b = true ↔ (s.port p).sticky.getLsbD b = true ∨
    b = 2 ∧ ∃ k ∈ l, announces (s.fault k) = true ∧ names (s.fault k).notify p = true

theorem Halted.nil (s : State) : Halted s [] s where
  rest := rfl
  sets _ := rfl
  named _ h := absurd h List.not_mem_nil
  unnamed _ _ _ := rfl
  untouched _ _ := rfl
  stopped _ h := absurd h List.not_mem_nil
  ports _ := rfl
  flags p b := by simp

theorem raised_flag {q : PortState} (b : Nat) : (q.raise .faultEvent).sticky.getLsbD b = true ↔
    q.sticky.getLsbD b = true ∨ b = 2 := by
  by_cases hb : b = 2
  · subst hb
    exact ⟨fun _ => .inr rfl, fun _ => raise_sticky_self q .faultEvent⟩
  · rw [raise_sticky_ne (n := .faultEvent) hb]
    simp [hb]

/-- A record that an entry to SAFE leaves without a movement. -/
theorem Halted.step_still {a : List (Fin 64)} (h : Halted s a u) (hk : k ∉ a)
    (hrest : t = { u with
      faults := t.faults, channels := t.channels, waitList := t.waitList, joining := t.joining
      examineDue := t.examineDue, portM := t.portM, portB := t.portB })
    (hfault : ∀ j, j ≠ k → t.fault j = u.fault j) (hstep : haltStep (s.fault k) = [])
    (hrelay : (s.fault k).state = .active → (s.fault k).kind.electronic = true)
    (hport : ∀ p, t.port p = if announces (s.fault k) && names (s.fault k).notify p then (u.port p).raise .faultEvent
      else u.port p) : Halted s (a ++ [k]) t := by
  have hset (c : Fin 24) : t.relaySet c = u.relaySet c := by rw [hrest]; rfl
  have hname : t.relay = u.relay := by
    funext w
    rw [State.relay, State.relay, hset]
  refine ⟨?_, fun c => ?_, fun j hj w hw => ?_, fun c n hn => ?_, fun j hj => ?_, fun j hj ha he => ?_, fun p => ?_, fun p b => ?_⟩
  · rw [hrest, h.rest]
  · rw [hset]
    exact h.sets c
  · rw [hname]
    rcases List.mem_append.1 hj with hj | hj
    · exact h.named j hj w hw
    · rw [List.mem_singleton.1 hj, hstep] at hw
      cases hw
  · rw [hset]
    exact h.unnamed c n fun j hj => hn j (List.mem_append.2 (.inl hj))
  · rw [List.mem_append, List.mem_singleton, not_or] at hj
    rw [hfault j hj.2, h.untouched j hj.1]
  · rcases List.mem_append.1 hj with hj | hj
    · rw [hfault j fun hjk => hk (hjk ▸ hj)]
      exact h.stopped j hj ha he
    · rw [List.mem_singleton.1 hj] at ha he
      rw [hrelay ha] at he
      cases he
  · rw [hport, h.ports p]
    split <;> rfl
  · rw [hport]
    have hflags := h.flags p b
    by_cases hann : (announces (s.fault k) && names (s.fault k).notify p) = true
    · rw [if_pos hann, raised_flag, hflags]
      obtain ⟨h1, h2⟩ := Bool.and_eq_true_iff.1 hann
      constructor
      · rintro ((hb | ⟨hb, j, hj, hja⟩) | hb)
        · exact .inl hb
        · exact .inr ⟨hb, j, List.mem_append.2 (.inl hj), hja⟩
        · exact .inr ⟨hb, k, by simp, h1, h2⟩
      · rintro (hb | ⟨hb, -⟩)
        · exact .inl (.inl hb)
        · exact .inr hb
    · rw [if_neg hann, hflags]
      refine or_congr_right (and_congr_right fun _ => exists_congr fun j => ?_)
      rw [List.mem_append, List.mem_singleton, or_and_right]
      refine ⟨.inl, fun hj => ?_⟩
      rcases hj with hj | ⟨rfl, hj⟩
      · exact hj
      · exact absurd (Bool.and_eq_true_iff.2 hj) hann

/-- The channels of a halt step are held by its record. -/
theorem haltStep_holder (hready : s.readyToStop) {w : Wish} (hw : w ∈ haltStep (s.fault k)) :
    (s.relaySet w.1).holder = some k := by
  by_cases ha : (s.fault k).state = .active
  · by_cases he : (s.fault k).kind.electronic = true
    · rw [haltStep_of_electronic he] at hw
      cases hw
    · obtain ⟨y, l, rest, hsteps, -, hopen⟩ := hready k ha (by simpa using he)
      rw [haltStep, if_pos ha, hsteps] at hw
      exact (hopen w hw).2
  · rw [haltStep, if_neg ha] at hw
    cases hw

/-- An ACTIVE relay record enters STOPPING with the movements of its first stop step. -/
theorem Halted.step_moves {a : List (Fin 64)} (hready : s.readyToStop) (h : Halted s a u) (hk : k ∉ a)
    (ha : (s.fault k).state = .active) (he : (s.fault k).kind.electronic = false) :
    Halted s (a ++ [k]) (u.safeRecord k) := by
  obtain ⟨w, l, rest, hsteps, hapart, hopen⟩ := hready k ha he
  have hself := h.untouched k hk
  have htiming : u.timing = s.timing := by rw [h.rest]
  have hhalt : haltStep (s.fault k) = w :: l := by rw [haltStep, if_pos ha, hsteps]; rfl
  have hother {j : Fin 64} {x y : Wish} (hj : j ∈ a) (hx : x ∈ haltStep (s.fault j)) (hy : y ∈ w :: l) : x.1 ≠ y.1 := by
    intro hxy
    have hholder := haltStep_holder hready hx
    rw [hxy, (hopen y hy).2] at hholder
    exact hk (Option.some.inj hholder ▸ hj)
  have hstill (y : Wish) (hy : y ∈ w :: l) : u.relay y = s.relay y :=
    h.unnamed y.1 y.2.1 fun j hj x hx hxy => hother hj hx hy hxy.1
  have hopen' (y : Wish) (hy : y ∈ w :: l) : u.open y := by
    rw [State.open, hstill y hy]
    exact (hopen y hy).1
  have hstop : u.safeRecord k = (u.runStep (w :: l)).updFault k fun r =>
      { r with state := .stopping, releasePending := true, seq := some ⟨true, 0⟩ } := by
    have hfirst := beginStop_first (s := u.releasing k) (k := k) (by rw [releasing_fault, hself]; exact hsteps) hapart
      List.mem_cons_self (hopen' w List.mem_cons_self)
    rw [safeRecord_of_active (by rw [hself]; exact ha), if_neg (by rw [hself, he]; decide), hfirst, State.releasing,
      runStep_updFault, updFault_updFault]
  have hset (c : Fin 24) : (u.safeRecord k).relaySet c = (u.runStep (w :: l)).relaySet c := by rw [hstop]; rfl
  have hport (p : Port) : (u.safeRecord k).port p = u.port p := by
    rw [hstop, runStep_rest]
    cases p <;> rfl
  have hfault (j : Fin 64) : (u.safeRecord k).fault j = if j = k then
      { u.fault k with state := .stopping, releasePending := true, seq := some ⟨true, 0⟩ } else u.fault j := by
    rw [hstop, updFault_fault, runStep_rest]
    rfl
  have hquiet : announces (s.fault k) = false := by simp [announces, ha, he]
  refine ⟨?_, fun c => ?_, fun j hj y hy => ?_, fun c n hn => ?_, fun j hj => ?_, fun j hj hja hje => ?_, fun p => ?_, fun p b => ?_⟩
  · rw [hstop, runStep_rest, h.rest]
    rfl
  · rw [hset, runStep_relaySet, h.sets]
  · show ((u.safeRecord k).relaySet y.1).relays.get y.2.1 = _
    rw [hset]
    rcases List.mem_append.1 hj with hj | hj
    · rw [runStep_unnamed fun x hx hxy => hother hj hy hx hxy.1.symm]
      exact h.named j hj y hy
    · rw [List.mem_singleton.1 hj, hhalt] at hy
      exact (runStep_named hapart hy).trans ((want_of_open (hopen' y hy)).trans (by rw [htiming]))
  · rw [hset, runStep_unnamed fun x hx => hn k (by simp) x (hhalt ▸ hx)]
    exact h.unnamed c n fun j hj => hn j (List.mem_append.2 (.inl hj))
  · rw [List.mem_append, List.mem_singleton, not_or] at hj
    rw [hfault, if_neg hj.2, h.untouched j hj.1]
  · rcases List.mem_append.1 hj with hj | hj
    · rw [hfault, if_neg fun hjk : j = k => hk (hjk ▸ hj)]
      exact h.stopped j hj hja hje
    · rw [List.mem_singleton.1 hj, hfault, if_pos rfl, hself]
  · rw [hport]
    exact h.ports p
  · rw [hport, h.flags p b]
    refine or_congr_right (and_congr_right fun _ => exists_congr fun j => ?_)
    rw [List.mem_append, List.mem_singleton, or_and_right]
    refine ⟨.inl, fun hj => ?_⟩
    rcases hj with hj | ⟨rfl, hj, -⟩
    · exact hj
    · rw [hquiet] at hj
      cases hj

/-- An entry to SAFE comes to one record. -/
theorem Halted.step {a : List (Fin 64)} (hm : s.run.mode ≠ .run) (hready : s.readyToStop) (h : Halted s a u) (hk : k ∉ a) :
    Halted s (a ++ [k]) (u.safeRecord k) := by
  have hself := h.untouched k hk
  have hmode : u.run.mode ≠ .run := by rw [h.rest]; exact hm
  have hfault (j : Fin 64) (hj : j ≠ k) := (safeRecord_fault (s := u) (k := k) hmode j).1 hj
  have hraise {v : State} (p : Port) (l : PortSet) (hv : v.port p = u.port p) : (v.raiseSet l .faultEvent).port p =
      if names l p then (u.port p).raise .faultEvent else u.port p := by
    rw [raiseSet_port, hv]
  have hstate : ∀ y, (s.fault k).state = y → (u.fault k).state = y := fun y hy => by rw [hself]; exact hy
  cases hs : (s.fault k).state with
  | free | done | failed =>
    have hsame : u.safeRecord k = u := safeRecord_of_resting (by simp [hstate _ hs])
    refine h.step_still hk (by rw [hsame]) hfault (by simp [haltStep, hs]) (by simp [hs]) fun p => ?_
    rw [hsame, if_neg (by simp [announces, hs])]
  | armed =>
    have hdone : u.safeRecord k = u.enterDone k := safeRecord_of_ready (hstate _ hs)
    refine h.step_still hk (by rw [hdone]; rfl) hfault (by simp [haltStep, hs]) (by simp [hs]) fun p => ?_
    rw [hdone, State.enterDone, hraise p _ (by cases p <;> rfl), hself]
    simp [announces, hs]
  | waiting =>
    have hdone : u.safeRecord k = (u.leaveList k).enterDone k := safeRecord_of_waiting (hstate _ hs)
    refine h.step_still hk (by rw [hdone]; rfl) hfault (by simp [haltStep, hs]) (by simp [hs]) fun p => ?_
    have hnotify : ((u.leaveList k).fault k) = s.fault k := hself
    rw [hdone, State.enterDone, hraise p _ (by cases p <;> rfl), hnotify]
    simp [announces, hs]
  | starting | stopping =>
    have hpending : u.safeRecord k = u.releasing k := safeRecord_of_travelling (by simp [hstate _ hs])
    refine h.step_still hk (by rw [hpending]; rfl) hfault (by simp [haltStep, hs]) (by simp [hs]) fun p => ?_
    rw [hpending, if_neg (by simp [announces, hs])]
    cases p <;> rfl
  | active =>
    by_cases he : (s.fault k).kind.electronic = true
    · have hend := safeRecord_of_electronic hmode (hstate _ hs) (by rw [hself]; exact he)
      refine h.step_still hk ?_ hfault (haltStep_of_electronic he) (fun _ => he) fun p => ?_
      · rw [hend, showFree_eq]
        rfl
      · have hshown (v : State) (c : Fin 24) : (v.showFree c).port p = v.port p := by
          rw [showFree_eq]
          cases p <;> rfl
        rw [hend, hshown, hraise p _ (by cases p <;> rfl), hself]
        simp [announces, hs, he]
    · exact h.step_moves hready hk hs (by simpa using he)

theorem safeFaults_halted (hm : s.run.mode ≠ .run) (hready : s.readyToStop) : Halted s (List.finRange 64) s.safeFaults := by
  have hfold (l : List (Fin 64)) : ∀ {a : List (Fin 64)} {u : State}, (a ++ l).Nodup → Halted s a u →
      Halted s (a ++ l) (l.foldl State.safeRecord u) := by
    induction l with
    | nil => exact fun {a u} _ h => by rw [List.append_nil]; exact h
    | cons k l ih =>
      intro a u hnodup h
      have hk : k ∉ a := fun hin => by
        rw [List.nodup_append] at hnodup
        exact hnodup.2.2 k hin k List.mem_cons_self rfl
      have hnext := ih (a := a ++ [k]) (by rw [List.append_assoc]; exact hnodup) (h.step hm hready hk)
      rw [List.append_assoc] at hnext
      exact hnext
  exact hfold _ (a := []) (List.nodup_finRange 64) (Halted.nil s)

/-! ## O50 -/

theorem haltGenerators_rest (s : State) : s.haltGenerators = { s with channels := s.haltGenerators.channels } := by
  apply State.ext <;> simp

/-- The state of an entry to SAFE before it comes to the records, with no trigger counted and not fired (R20, R34, R174). -/
theorem safeEntry_rest {why : SafeCause} (h : ∀ k, Event.onCapture k ∉ s.due) :
    (s.safeEntry why).haltGenerators = { s with
      run := { s.run with
        mode := .safe, cause := some ⟨why, s.rigTime⟩, monitor := { s.run.monitor with timer := none } }
      angle := { s.angle with target := 0 }
      channels := (s.safeEntry why).haltGenerators.channels
      portM := s.portM.raise .safeEntered, portB := s.portB.raise .safeEntered
      due := s.due.filter fun e => !e.lapses } := by
  have hcounted : s.fireCounted = s := if_neg (by rw [no_capture_counted h]; decide)
  rw [haltGenerators_rest]
  generalize (s.safeEntry why).haltGenerators.channels = l
  rw [State.safeEntry, hcounted]
  rfl

theorem readyToStop_of_law (hr : s.recordLaw) (hs : s.matrixLaw) : s.readyToStop := by
  intro k ha he
  obtain ⟨-, -, -, -, hseq⟩ := hr
  refine stopSteps_open hs ?_ ha he
  by_contra hnone
  rcases hseq k (Option.isSome_iff_ne_none.2 hnone) with h | h <;> exact absurd (ha.symm.trans h) (by decide)

theorem exec_enterSafe (hn : s.takesNow .B = true) {tag : Byte} (hm : s.run.mode = .run) :
    exec (.enterSafe .B tag) s =
      .next (((s.enterSafe .request).settle).answerOk .B .enterSafe tag (.modeOnly .safe)) := by
  refine exec_of_okay rfl rfl (by simp) rfl hn ?_
  show handleEnterSafe s = _
  have hrun := (settled_enterSafe (s := s) (why := .request) hm).1
  rw [handleEnterSafe, hm]
  dsimp only
  rw [hrun]

/-- What an entry to SAFE leaves of each channel (R34). -/
theorem enterSafe_halted {why : SafeCause} (hm : s.run.mode = .run) (h : ∀ k, Event.onCapture k ∉ s.due) (c : Fin 24) :
    haltedFrom c (s.channel c) ((s.enterSafe why).settle.channel c) := by
  have hcounted : s.fireCounted = s := if_neg (by rw [no_capture_counted h]; decide)
  have hentry : (s.safeEntry why).channel c = s.channel c := by
    rw [State.safeEntry, hcounted]
    rfl
  have hhalted := haltGenerators_halted (s.safeEntry why) c
  rw [hentry] at hhalted
  rw [enterSafe_eq why hm]
  generalize (s.safeEntry why).haltGenerators = v at hhalted
  have hsafe := (unmoved_halted c (s.channel c)).safeFaults hhalted
  generalize v.safeFaults = w at hsafe
  exact (unmoved_halted c (s.channel c)).settle (s := w.pauseEngines) hsafe

theorem enterSafe_portCaptures {why : SafeCause} (hm : s.run.mode = .run) (h : ∀ k, Event.onCapture k ∉ s.due) (p : Port) :
    ((s.enterSafe why).settle.port p).captures = (s.port p).captures := by
  have hentry : ((s.safeEntry why).haltGenerators.port p).captures = (s.port p).captures := by
    rw [safeEntry_rest h]
    cases p <;> rfl
  rw [enterSafe_eq why hm]
  generalize (s.safeEntry why).haltGenerators = v at hentry
  have hsafe := (unmoved_captures p (s.port p).captures).safeFaults hentry
  generalize v.safeFaults = w at hsafe
  exact (unmoved_captures p (s.port p).captures).settle (s := w.pauseEngines) (by cases p <;> exact hsafe)

theorem pauseEngines_engine (n : Fin 4) : s.pauseEngines.engine n =
    if (s.engine n).state = .running then { s.engine n with state := .paused } else s.engine n := by
  exact mapV_get ..

theorem pauseEngines_fault (s : State) (k : Fin 64) : s.pauseEngines.fault k = s.fault k := rfl

theorem enterSafe_engine {why : SafeCause} (hm : s.run.mode = .run) (n : Fin 4) : (s.enterSafe why).settle.engine n =
    if (s.engine n).state = .running then { s.engine n with state := .paused } else s.engine n := by
  have hsettle : (s.enterSafe why).settle.engines = (s.enterSafe why).engines := by simp
  have hbefore : (s.safeEntry why).haltGenerators.safeFaults.engines = s.engines := by simp [State.safeEntry]
  have hengine : (s.safeEntry why).haltGenerators.safeFaults.engine n = s.engine n := congrArg (·.get n) hbefore
  have hself : (s.enterSafe why).settle.engine n = (s.enterSafe why).engine n := congrArg (·.get n) hsettle
  rw [hself, enterSafe_eq why hm, pauseEngines_engine, hengine]

/-- After an entry to SAFE nobody waits, so the pass that follows leaves everything (R95, R97, R113). -/
theorem enterSafe_settled {why : SafeCause} (hm : s.run.mode = .run) (hr : s.recordLaw) :
    (s.enterSafe why).waitList = [] ∧ (s.enterSafe why).joining = [] ∧
      (s.enterSafe why).settle = { s.enterSafe why with examineDue := (s.enterSafe why).settle.examineDue } := by
  have hbooked := (recordLaw_iff.1 hr).enterSafe why
  have hempty : (s.enterSafe why).wholeList = [] := by
    refine List.eq_nil_iff_forall_not_mem.2 fun k hk => ?_
    have hwaiting := (hbooked.listed k).1 (by rw [List.nil_append]; exact hk)
    have hmode : (s.safeEntry why).haltGenerators.run.mode ≠ .run := by simp [State.safeEntry]
    have hform := safeFaults_fault hmode k
    rw [enterSafe_eq why hm, pauseEngines_fault] at hwaiting
    exact (safeForm_state hform).2 hwaiting
  obtain ⟨hw, hj⟩ := List.append_eq_nil_iff.1 hempty
  exact ⟨hw, hj, settle_of_empty hw hj⟩

/-- A record after an entry to SAFE and the pass that follows (R113). -/
theorem enterSafe_fault {why : SafeCause} (hm : s.run.mode = .run) (h : ∀ k, Event.onCapture k ∉ s.due) (hr : s.recordLaw)
    (k : Fin 64) : s.safeForm (s.fault k) ((s.enterSafe why).settle.fault k) := by
  obtain ⟨-, -, hsettle⟩ := enterSafe_settled (why := why) hm hr
  have hmode : (s.safeEntry why).haltGenerators.run.mode ≠ .run := by simp [State.safeEntry]
  have hform := safeFaults_fault hmode k
  have hstamp : (s.safeEntry why).haltGenerators.stampNow = s.stampNow := by
    rw [safeEntry_rest h]
    rfl
  have hbefore : (s.safeEntry why).haltGenerators.fault k = s.fault k := by
    rw [safeEntry_rest h]
    rfl
  rw [safeForm_congr hstamp, hbefore] at hform
  have hself : (s.enterSafe why).settle.fault k = (s.enterSafe why).fault k :=
    fault_of_faults (congrArg State.faults hsettle) k
  rw [hself, enterSafe_eq why hm, pauseEngines_fault]
  exact hform

/-- The pins of the FREE channels after an entry to SAFE and the pass that follows (R34, R107). -/
theorem enterSafe_pinsFollow {why : SafeCause} (hm : s.run.mode = .run) (hr : s.recordLaw) :
    (s.enterSafe why).settle.pinsFollow := by
  obtain ⟨-, -, hsettle⟩ := enterSafe_settled (why := why) hm hr
  have hmode : (s.safeEntry why).haltGenerators.run.mode ≠ .run := by simp [State.safeEntry]
  have hpins := safeFaults_pinsFollow hmode (haltGenerators_pinsFollow (s.safeEntry why))
  have hchannels : (s.enterSafe why).settle.channels = (s.safeEntry why).haltGenerators.safeFaults.channels :=
    (congrArg State.channels hsettle).trans (by rw [enterSafe_eq why hm]; simp)
  have hfaults : (s.enterSafe why).settle.faults = (s.safeEntry why).haltGenerators.safeFaults.faults :=
    (congrArg State.faults hsettle).trans (by rw [enterSafe_eq why hm]; simp)
  exact pinsFollow_of hpins hchannels fun c => congrFun (effectiveRecord_congr hfaults) c

/-- The Relay Matrix after an entry to SAFE and the pass that follows (R100, R113). -/
theorem enterSafe_matrix {why : SafeCause} (h : ∀ k, Event.onCapture k ∉ s.due) (hr : s.recordLaw)
    (hs : s.matrixLaw) : Halted (s.safeEntry why).haltGenerators (List.finRange 64)
      (s.safeEntry why).haltGenerators.safeFaults := by
  have hmode : (s.safeEntry why).haltGenerators.run.mode ≠ .run := by simp [State.safeEntry]
  have hready : (s.safeEntry why).haltGenerators.readyToStop := by
    rw [safeEntry_rest h]
    exact readyToStop_of_law (s := s) hr hs
  exact safeFaults_halted hmode hready

theorem safeEntered_flag {q : PortState} (b : Nat) : (q.raise .safeEntered).sticky.getLsbD b = true ↔
    q.sticky.getLsbD b = true ∨ b = 7 := by
  by_cases hb : b = 7
  · subst hb
    exact ⟨fun _ => .inr rfl, fun _ => raise_sticky_self q .safeEntered⟩
  · rw [raise_sticky_ne (n := .safeEntered) hb]
    simp [hb]

theorem announces_iff {r : FaultRecord} : announces r = true ↔
    r.state = .armed ∨ r.state = .waiting ∨ (r.state = .active ∧ r.kind.electronic = true) := by
  simp [announces, or_assoc]

theorem mem_haltStep {r : FaultRecord} {w : Wish} : w ∈ haltStep r ↔ r.state = .active ∧ w ∈ (stopSteps r).headD [] := by
  unfold haltStep
  split
  next h => exact ⟨fun hw => ⟨h, hw⟩, fun hw => hw.2⟩
  next h => exact ⟨fun hw => absurd hw List.not_mem_nil, fun hw => absurd hw.1 h⟩

/-- The Relay Matrix and the ports after an entry to SAFE, as R100 and R113 have them. -/
theorem halted_leaves {why : SafeCause} {w : State} (hv : v = { s with
      run := { s.run with
        mode := .safe, cause := some ⟨why, s.rigTime⟩, monitor := { s.run.monitor with timer := none } }
      angle := { s.angle with target := 0 }
      channels := v.channels
      portM := s.portM.raise .safeEntered, portB := s.portB.raise .safeEntered
      due := s.due.filter fun e => !e.lapses })
    (hw : Halted v (List.finRange 64) w) (ht : t = { w.pauseEngines with examineDue := t.examineDue })
    (hlists : t.waitList = [] ∧ t.joining = []) :
    t = { s with run := t.run, angle := t.angle, channels := t.channels, engines := t.engines,
                 faults := t.faults, relays := t.relays, waitList := [], joining := [],
                 examineDue := t.examineDue, portM := t.portM, portB := t.portB, due := t.due } ∧
    (∀ k, (s.fault k).state = .active → (s.fault k).kind.electronic = false →
      t.fault k = { s.fault k with state := .stopping, releasePending := true, seq := some ⟨true, 0⟩ }) ∧
    (∀ c, t.relaySet c = { s.relaySet c with relays := (t.relaySet c).relays } ∧
      ∀ n, (∀ k pos, (s.fault k).state = .active → (c, n, pos) ∈ (stopSteps (s.fault k)).headD [] →
          (t.relaySet c).relays.get n =
            { state := pos.moving, failed := false,
              movement := some ⟨0, s.timing.settle, s.timing.timeout⟩ }) ∧
        ((∀ k pos, (s.fault k).state = .active → (c, n, pos) ∉ (stopSteps (s.fault k)).headD []) →
          (t.relaySet c).relays.get n = (s.relaySet c).relays.get n)) ∧
    ∀ p, t.port p = { s.port p with sticky := (t.port p).sticky } ∧
      ∀ b, (t.port p).sticky.getLsbD b = true ↔ (s.port p).sticky.getLsbD b = true ∨ b = 7 ∨
        b = 2 ∧ ∃ k, (s.fault k).notify.has p = true ∧
          ((s.fault k).state = .armed ∨ (s.fault k).state = .waiting ∨
            ((s.fault k).state = .active ∧ (s.fault k).kind.electronic = true)) := by
  have hfault (k : Fin 64) : v.fault k = s.fault k := by rw [hv]; rfl
  have hset (c : Fin 24) : v.relaySet c = s.relaySet c := by rw [hv]; rfl
  have htiming : v.timing = s.timing := by rw [hv]
  have hport (p : Port) : v.port p = (s.port p).raise .safeEntered := by rw [hv]; cases p <;> rfl
  have htfault (k : Fin 64) : t.fault k = w.fault k := by rw [ht]; rfl
  have htset (c : Fin 24) : t.relaySet c = w.relaySet c := by rw [ht]; rfl
  have htport (p : Port) : t.port p = w.port p := by rw [ht]; cases p <;> rfl
  have hall (k : Fin 64) : k ∈ List.finRange 64 := List.mem_finRange k
  refine ⟨?_, fun k ha he => ?_, fun c => ⟨?_, fun n => ⟨fun k pos ha hin => ?_, fun hnone => ?_⟩⟩, fun p => ⟨?_, fun b => ?_⟩⟩
  · have hfields : t = { s with
        run := t.run, angle := t.angle, channels := t.channels, engines := t.engines
        faults := t.faults, relays := t.relays, waitList := t.waitList, joining := t.joining
        examineDue := t.examineDue, portM := t.portM, portB := t.portB, due := t.due } := by
      rw [ht, hw.rest, hv]
      rfl
    rw [hlists.1, hlists.2] at hfields
    exact hfields
  · rw [htfault, hw.stopped k (hall k) (by rw [hfault]; exact ha) (by rw [hfault]; exact he), hfault]
  · rw [htset, ← hset]
    exact hw.sets c
  · have hnamed := hw.named k (hall k) (c, n, pos) (by rw [hfault]; exact mem_haltStep.2 ⟨ha, hin⟩)
    rw [htset, ← htiming]
    exact hnamed
  · rw [htset, ← hset]
    refine hw.unnamed c n fun k _ y hy => ?_
    rintro ⟨rfl, rfl⟩
    rw [hfault] at hy
    obtain ⟨ha, hin⟩ := mem_haltStep.1 hy
    exact hnone k y.2.2 ha hin
  · rw [htport, hw.ports p, hport]
    rfl
  · rw [htport, hw.flags p b, hport, safeEntered_flag, or_assoc]
    refine or_congr_right (or_congr_right (and_congr_right fun _ => exists_congr fun k => ?_))
    have hnames : names (s.fault k).notify p = (s.fault k).notify.has p := by cases p <;> rfl
    rw [hfault, announces_iff, hnames]
    exact ⟨fun ⟨_, ha, hn⟩ => ⟨hn, ha⟩, fun ⟨hn, ha⟩ => ⟨hall k, ha, hn⟩⟩

/-- Settles O50. -/
theorem enterSafeStopsTheRun : Obligations.EnterSafeStopsTheRun := by
  intro s tag hn hcounted
  refine ⟨fun hm => exec_of_refuse rfl rfl (by simp) rfl hn ?_, fun hm => exec_of_okay rfl rfl (by simp) rfl hn ?_, fun hm => ?_⟩
  · show handleEnterSafe s = _
    rw [handleEnterSafe, hm]
  · show handleEnterSafe s = _
    rw [handleEnterSafe, hm]
  obtain ⟨hrun, hsticky, hangle, hmemory, hinputs⟩ := settled_enterSafe (s := s) (why := .request) hm
  have hchannel := enterSafe_halted (s := s) (why := .request) hm hcounted
  refine ⟨_, exec_enterSafe hn hm, hrun, hsticky .M, hsticky .B, hangle, ?_, hmemory, hinputs, ?_, ?_, ?_,
    enterSafe_portCaptures hm hcounted .M, enterSafe_portCaptures hm hcounted .B, enterSafe_engine hm,
    fun c => ⟨(hchannel c).1, (hchannel c).2.1⟩, fun hr => ?_⟩
  · simp
  · simp
  · simp
  · simp
  have hfault := enterSafe_fault (why := .request) hm hcounted hr
  have hpins := enterSafe_pinsFollow (why := .request) hm hr
  obtain ⟨hwait, hjoin, hsettle⟩ := enterSafe_settled (why := .request) hm hr
  have hlast := enterSafe_eq (s := s) .request hm
  have hentry := safeEntry_rest (s := s) (why := .request) hcounted
  have hnone (k : Fin 64) : ((s.enterSafe .request).settle.fault k).state ≠ .active := safeForm_not_active (hfault k)
  have hlists : (s.enterSafe .request).settle.waitList = [] ∧ (s.enterSafe .request).settle.joining = [] :=
    ⟨(congrArg State.waitList hsettle).trans hwait, (congrArg State.joining hsettle).trans hjoin⟩
  have hdue : (s.enterSafe .request).settle.due = s.due.filter fun e => !e.lapses := by
    refine (congrArg State.due hsettle).trans ?_
    have hsafe (v : State) : v.safeFaults.pauseEngines.due = v.due := by simp
    rw [hlast, hsafe, hentry]
  refine ⟨by rw [hlists.1, hlists.2]; rfl, hdue, fun c hc => ⟨fun hf => inactive_of_follows hpins hnone (hchannel c) hc hf,
    (hchannel c).2.2 hc⟩, hfault, fun hs => ?_⟩
  have hmatrix := enterSafe_matrix (why := .request) hcounted hr hs
  have hrest : (s.enterSafe .request).settle = { (s.safeEntry .request).haltGenerators.safeFaults.pauseEngines with
      examineDue := (s.enterSafe .request).settle.examineDue } := hsettle.trans (by rw [hlast])
  generalize (s.enterSafe .request).settle = t at hrest hlists
  generalize (s.safeEntry .request).haltGenerators = v at hentry hmatrix hrest
  generalize v.safeFaults = w at hmatrix hrest
  exact halted_leaves hentry hmatrix hrest hlists

end Sys2Proof.Machine
end

section
/-! The end of a movement, and normalisations (R48, R49, R53, R57, R58, R60). -/

namespace Sys2Proof.Machine

variable {s t u v w : State} {j k : Fin 64} {c d : Fin 24} {n r : RelayName} {pos : Position} {e : Event} {cmd : Instr}
  {failed : Bool} {x : RelaySet}

/-! ## The end of a movement (R48, R49) -/

theorem completes_iff {y : Relay} {made : Bool} {m settle timeout : Nat} (h : y.movement = some ⟨m, settle, timeout⟩)
    (hm : y.state.moving = true) :
    y.completes made = true ↔ 1000 * settle ≤ m ∧ (made = true ↔ y.state = .movingClosed) := by
  have hposition : (y.state.position == .closed) = true ↔ y.state = .movingClosed := by
    cases hs : y.state with
    | opened => rw [hs] at hm; cases hm
    | closed => rw [hs] at hm; cases hm
    | movingOpen => decide
    | movingClosed => decide
  rw [Relay.completes, h]
  dsimp only
  rw [hm, Bool.true_and, Bool.and_eq_true, decide_eq_true_iff, beq_iff_eq, ← hposition]
  cases made <;> cases (y.state.position == Position.closed) <;> simp

theorem fails_iff {y : Relay} {made : Bool} {m settle timeout : Nat} (h : y.movement = some ⟨m, settle, timeout⟩)
    (hm : y.state.moving = true) :
    y.fails made = true ↔ 1000 * timeout ≤ m ∧ y.completes made = false := by
  rw [Relay.fails, h]
  dsimp only
  rw [hm, Bool.true_and, Bool.and_eq_true, decide_eq_true_iff, Bool.not_eq_true']

/-- Relay `r` of channel `c` at the end of its movement (R48, R49). -/
def State.landed (s : State) (c : Fin 24) (r : RelayName) (failed : Bool) : State :=
  s.updRelaySet c fun x => { x with relays := x.relays.upd r fun y => y.settle failed }

theorem landed_relaySet (d : Fin 24) : (s.landed c r failed).relaySet d = if c = d then
    { s.relaySet c with relays := (s.relaySet c).relays.upd r fun y => y.settle failed } else s.relaySet d :=
  State.updRelaySet_relaySet ..

theorem landed_self : (s.landed c r failed).relaySet c =
    { s.relaySet c with relays := (s.relaySet c).relays.upd r fun y => y.settle failed } :=
  (landed_relaySet c).trans (if_pos rfl)

theorem landed_get (n : RelayName) : ((s.landed c r failed).relaySet c).relays.get n =
    if r = n then ((s.relaySet c).relays.get n).settle failed else (s.relaySet c).relays.get n := by
  rw [landed_self, get_upd]

theorem landed_ne (h : c ≠ d) : (s.landed c r failed).relaySet d = s.relaySet d := (landed_relaySet d).trans (if_neg h)

theorem settle_moving (y : Relay) (b : Bool) : (y.settle b).state.moving = false := by
  rw [Relay.settle]
  cases y.state <;> rfl

/-- Event `e`, taken by command `cmd`, ends the movement of relay `r` of channel `c`, failed or not. -/
def State.lands (s : State) (c : Fin 24) (r : RelayName) (failed : Bool) (cmd : Instr) (e : Event) : Prop :=
  failed = false ∧ cmd = .movementComplete c r ∧ e = .moveComplete c r ∧
      ((s.relaySet c).relays.get r).completes ((s.pins.sense.get c).get r) = true ∨
    failed = true ∧ cmd = .movementFail c r ∧ e = .moveFail c r ∧
      ((s.relaySet c).relays.get r).fails ((s.pins.sense.get c).get r) = true

theorem exec_of_lands (h : s.lands c r failed cmd e) (hdue : e ∈ s.due) :
    exec cmd s = .next ((((s.took e).landed c r failed).movementEnded c).settle) := by
  rcases h with ⟨rfl, rfl, rfl, hy⟩ | ⟨rfl, rfl, rfl, hy⟩
  · have htake : (s.took (.moveComplete c r)).perform (.moveComplete c r) =
        ((s.took (.moveComplete c r)).landed c r false).movementEnded c := if_pos hy
    show Host.Outcome.next (s.takeEvent (.moveComplete c r)) = _
    rw [State.takeEvent, if_pos hdue, htake]
  · have htake : (s.took (.moveFail c r)).perform (.moveFail c r) =
        ((s.took (.moveFail c r)).landed c r true).movementEnded c := if_pos hy
    show Host.Outcome.next (s.takeEvent (.moveFail c r)) = _
    rw [State.takeEvent, if_pos hdue, htake]

theorem movementEnded_norm {m : NormStep} (h : (s.relaySet c).normalising = some m) :
    s.movementEnded c = s.normAdvance c m := by
  rw [State.movementEnded, h]

theorem movementEnded_seq {q : Sequence} (h : (s.relaySet c).normalising = none) (hk : (s.relaySet c).holder = some k)
    (hq : (s.fault k).seq = some q) : s.movementEnded c = s.seqAdvance k q := by
  rw [State.movementEnded, h]
  dsimp only
  rw [hk]
  dsimp only
  rw [hq]

/-! ## Normalisations (R57, R58) -/

/-- The breaking step of a normalisation waits for its other movements (R57). -/
theorem normAdvance_breaking_waits (h : (s.relaySet c).breaks = true) : s.normAdvance c .breaking = s := by
  have hmoving := stepMoving_breaking s c
  exact if_pos (hmoving.trans h)

/-- A breaking step with a failed relay (R58). -/
theorem normAdvance_breaking_fails (h : (s.relaySet c).breaks = false)
    (hf : ∃ n, n ≠ .path ∧ ((s.relaySet c).relays.get n).failed = true) : s.normAdvance c .breaking = s.normFails c := by
  obtain ⟨n, hn, hfail⟩ := hf
  have hmoving := (stepMoving_breaking s c).trans h
  have hfailed : s.stepFailed [(c, .gnd, .opened), (c, .bat, .opened), (c, .x0, .opened), (c, .x1, .opened)] = true := by
    refine List.any_eq_true.2 ⟨(c, n, .opened), ?_, hfail⟩
    cases n with
    | path => exact absurd rfl hn
    | gnd | bat | x0 | x1 => simp
  exact (if_neg (by rw [Bool.eq_false_iff] at hmoving; exact hmoving)).trans (if_pos hfailed)

/-- A breaking step that has succeeded is followed by the joining one (R57). -/
theorem normAdvance_breaking_next (h : (s.relaySet c).breaks = false)
    (hf : ∀ n, n ≠ .path → ((s.relaySet c).relays.get n).failed = false) : s.normAdvance c .breaking = s.normFrom c 1 := by
  have hmoving := (stepMoving_breaking s c).trans h
  have hfailed : s.stepFailed [(c, .gnd, .opened), (c, .bat, .opened), (c, .x0, .opened), (c, .x1, .opened)] = false := by
    refine List.any_eq_false.2 fun w hw => ?_
    have hgood (n : RelayName) (hn : n ≠ .path) : ¬(s.relay (c, n, .opened)).failed = true := by
      show ¬((s.relaySet c).relays.get n).failed = true
      rw [hf n hn]
      decide
    simp only [List.mem_cons, List.not_mem_nil, or_false] at hw
    rcases hw with rfl | rfl | rfl | rfl <;> exact hgood _ (by decide)
  exact (if_neg (by rw [Bool.eq_false_iff] at hmoving; exact hmoving)).trans
    (if_neg (by rw [Bool.eq_false_iff] at hfailed; exact hfailed))

theorem normFrom_two (s : State) (c : Fin 24) : s.normFrom c 2 = s.normSucceeds c := rfl

/-- The joining step at the end of PATH's movement (R57, R58). -/
theorem normAdvance_joining (h : (s.relaySet c).relays.path.state.moving = false) : s.normAdvance c .joining =
    if (s.relaySet c).relays.path.failed then s.normFails c else s.normSucceeds c := by
  have hmoving : s.stepMoving [(c, .path, .closed)] = false := (stepMoving_joining s c).trans h
  have hfailed : s.stepFailed [(c, .path, .closed)] = (s.relaySet c).relays.path.failed := by
    simp only [State.stepFailed, List.any_cons, List.any_nil, Bool.or_false]
    rfl
  rw [← normFrom_two, ← hfailed]
  exact if_neg (by rw [Bool.eq_false_iff] at hmoving; exact hmoving)

/-- No holder is released while a channel that the record holds normalises (R53). -/
theorem normEnded_of_held (hk : (s.relaySet c).holder = some k) (hd : (s.relaySet d).holder = some k)
    (hn : (s.relaySet d).normalising ≠ none) : s.normEnded c = s := by
  rw [State.normEnded, hk]
  refine if_pos (List.any_eq_true.2 ⟨d, List.mem_finRange d, ?_⟩)
  rw [hd, beq_self_eq_true, Bool.true_and]
  exact Option.isSome_iff_ne_none.2 hn

/-- The pass of the wait list after a normalisation's end (R53, R57, R97). -/
theorem normEnded_leaves (w : State) (c : Fin 24) : w.normLeaves (w.normEnded c).settle c := by
  refine ⟨fun hheld hq => ?_, fun k hk hnone => ⟨w.releaseHolders k, ?_, ?_⟩⟩
  · have hstay : w.normEnded c = w := by
      cases hk : (w.relaySet c).holder with
      | none => exact normEnded_of_free hk
      | some k =>
        obtain ⟨d, hd, hn⟩ := hheld k hk
        exact normEnded_of_held hk hd hn
    rw [hstay]
    exact settle_of_no_pass hq
  · refine ⟨rfl, fun d => ?_, fun b => ?_⟩
    · have hset : (w.releaseHolders k).relaySet d =
          if (w.relaySet d).holder = some k then { w.relaySet d with holder := none } else w.relaySet d := mapV_get ..
      by_cases h : (w.relaySet d).holder = some k
      · rw [hset, if_pos h, if_pos h]
      · rw [hset, if_neg h, if_neg h]
    · cases b <;> rfl
  · have hrelease : w.normEnded c = w.releaseHolders k := by
      rw [State.normEnded, hk]
      refine if_neg (Bool.eq_false_iff.1 (List.any_eq_false.2 fun d _ => ?_))
      rw [Bool.and_eq_true, beq_iff_eq]
      rintro ⟨hd, hn⟩
      rw [hnone d hd] at hn
      cases hn
    rw [hrelease]
    exact settle_passLeaves rfl

end Sys2Proof.Machine
end

section
/-! Movements of a channel that normalises (R57, R58, R60). -/

namespace Sys2Proof.Machine

variable {s t u v w : State} {j k : Fin 64} {c d : Fin 24} {n r : RelayName} {pos : Position} {e : Event} {cmd : Instr}
  {failed : Bool} {x : RelaySet}

/-- The relay that has landed moves no more, and the others are as they were. -/
theorem landed_breaks (h : ∀ r', r' ≠ .path → r' ≠ r → ((s.relaySet c).relays.get r').state.moving = false) :
    ((s.landed c r failed).relaySet c).breaks = false := by
  refine Bool.eq_false_iff.2 fun hb => ?_
  obtain ⟨n, hn, hm⟩ := breaks_iff.1 hb
  rw [landed_get] at hm
  by_cases hrn : r = n
  · rw [if_pos hrn, settle_moving] at hm
    cases hm
  · rw [if_neg hrn, h n hn (Ne.symm hrn)] at hm
    cases hm

theorem landed_path (h : r ≠ .path) : ((s.landed c r failed).relaySet c).relays.path = (s.relaySet c).relays.path :=
  (landed_get .path).trans (if_neg h)

theorem landed_normalising : ((s.landed c r failed).relaySet c).normalising = (s.relaySet c).normalising := by
  rw [landed_self]

/-- No relay but PATH is in doubt once one has landed. -/
theorem landed_sound (hf : ∀ r', r' ≠ .path → ((s.relaySet c).relays.get r').failed = false) (n : RelayName)
    (hn : n ≠ .path) : (((s.landed c r false).relaySet c).relays.get n).failed = false := by
  rw [landed_get]
  split
  · rfl
  · exact hf n hn

/-- A normalisation's end, the relay set at its joining step with nothing left to move. -/
theorem normFrom_one_rested (h : (s.relaySet c).relays.path = { state := .closed }) : s.normFrom c 1 =
    (s.updRelaySet c fun x => { x with normalising := none, inService := true }).normEnded c := by
  have hjoined : (s.relaySet c).joined s.timing = s.relaySet c := by
    have hwant : (s.relaySet c).relays.path.want s.timing .closed = (s.relaySet c).relays.path := by rw [h]; rfl
    unfold RelaySet.joined
    rw [hwant]
  have hrest : ((s.relaySet c).joined s.timing).relays.path.state.moving = false := by rw [hjoined, h]; rfl
  have hset : (s.relaySet c).rejoined s.timing = { s.relaySet c with normalising := none, inService := true } := by
    rw [RelaySet.rejoined, hrest, if_neg (by decide), hjoined]
  rw [normFrom_one, hrest, if_neg (by decide)]
  exact congrArg (State.normEnded · c) (updRelaySet_congr hset)

/-- PATH is commanded closed as the joining step begins (R57). -/
theorem normFrom_one_commands (h : s.open (c, .path, .closed)) : s.normFrom c 1 =
    s.updRelaySet c fun x => { x with
      normalising := some .joining
      relays := { x.relays with path := s.timing.commands .closed } } := by
  have hjoined : (s.relaySet c).joined s.timing = { s.relaySet c with
      relays := { (s.relaySet c).relays with path := s.timing.commands .closed } } := by
    have hwant : (s.relaySet c).relays.path.want s.timing .closed = s.timing.commands .closed := want_of_open h
    unfold RelaySet.joined
    rw [hwant]
  have hmove : ((s.relaySet c).joined s.timing).relays.path.state.moving = true := by rw [hjoined]; rfl
  have hset : (s.relaySet c).rejoined s.timing = { s.relaySet c with
      normalising := some .joining
      relays := { (s.relaySet c).relays with path := s.timing.commands .closed } } := by
    rw [RelaySet.rejoined, hmove, if_pos rfl, hjoined]
  rw [normFrom_one, hmove, if_pos rfl]
  exact updRelaySet_congr hset

/-- The state in which a normalisation of channel `c` ends, before the release: failed or in service (R57, R58, R60). -/
def State.normLeft (s : State) (c : Fin 24) (bad : Bool) : State :=
  if bad then
    ((s.updRelaySet c fun x => { x with normalising := none, inService := false }).updChannel c fun ch =>
      { ch with limitTicks := none }).raiseBoth .relayFault
  else s.updRelaySet c fun x => { x with normalising := none, inService := true }

/-- A movement that ends the normalisation of its channel, well or not (R57, R58). -/
theorem movementEnded_ends {bad : Bool}
    (h : (s.relaySet c).normalising = some .breaking ∧ r ≠ .path ∧
        (∀ r', r' ≠ .path → r' ≠ r → ((s.relaySet c).relays.get r').state.moving = false) ∧
        (bad = true ∧ (failed = true ∨ ∃ r', r' ≠ .path ∧ r' ≠ r ∧ ((s.relaySet c).relays.get r').failed = true) ∨
          bad = false ∧ failed = false ∧ (∀ r', r' ≠ .path → ((s.relaySet c).relays.get r').failed = false) ∧
            (s.relaySet c).relays.path = { state := .closed }) ∨
      (s.relaySet c).normalising = some .joining ∧ r = .path ∧ bad = failed) :
    (s.landed c r failed).movementEnded c = ((s.landed c r failed).normLeft c bad).normEnded c := by
  rcases h with ⟨hnorm, hr, hstill, ⟨rfl, hbad⟩ | ⟨rfl, rfl, hsound, hpath⟩⟩ | ⟨hnorm, rfl, rfl⟩
  · rw [movementEnded_norm (landed_normalising.trans hnorm)]
    refine normAdvance_breaking_fails (landed_breaks hstill) ?_
    rcases hbad with rfl | ⟨n, hn, hne, hf⟩
    · exact ⟨r, hr, by rw [landed_get, if_pos rfl]; rfl⟩
    · exact ⟨n, hn, by rw [landed_get, if_neg (Ne.symm hne)]; exact hf⟩
  · rw [movementEnded_norm (landed_normalising.trans hnorm),
      normAdvance_breaking_next (landed_breaks hstill) (landed_sound hsound),
      normFrom_one_rested ((landed_path hr).trans hpath)]
    rfl
  · have hlanded : ((s.landed c .path bad).relaySet c).relays.path = (s.relaySet c).relays.path.settle bad :=
      (landed_get .path).trans (if_pos rfl)
    rw [movementEnded_norm (landed_normalising.trans hnorm),
      normAdvance_joining (by rw [hlanded]; exact settle_moving _ _), hlanded]
    cases bad <;> rfl

/-- A movement of a normalisation that waits for others (R57). -/
theorem movementEnded_waits (hnorm : (s.relaySet c).normalising = some .breaking)
    (h : ∃ r', r' ≠ .path ∧ r' ≠ r ∧ ((s.relaySet c).relays.get r').state.moving = true) :
    (s.landed c r failed).movementEnded c = s.landed c r failed := by
  obtain ⟨n, hn, hne, hm⟩ := h
  rw [movementEnded_norm (landed_normalising.trans hnorm)]
  exact normAdvance_breaking_waits (breaks_iff.2 ⟨n, hn, by rw [landed_get, if_neg (Ne.symm hne)]; exact hm⟩)

/-- The last movement of a breaking step is followed by PATH's (R57). -/
theorem movementEnded_joins (hnorm : (s.relaySet c).normalising = some .breaking) (hr : r ≠ .path)
    (hstill : ∀ r', r' ≠ .path → r' ≠ r → ((s.relaySet c).relays.get r').state.moving = false)
    (hsound : ∀ r', r' ≠ .path → ((s.relaySet c).relays.get r').failed = false)
    (hpath : s.open (c, .path, .closed)) : (s.landed c r false).movementEnded c =
      (s.landed c r false).updRelaySet c fun x => { x with
        normalising := some .joining
        relays := { x.relays with path := s.timing.commands .closed } } := by
  have hopen : (s.landed c r false).open (c, .path, .closed) := by
    have hrelay : (s.landed c r false).relay (c, .path, .closed) = s.relay (c, .path, .closed) := landed_path hr
    rw [State.open, hrelay]
    exact hpath
  rw [movementEnded_norm (landed_normalising.trans hnorm),
    normAdvance_breaking_next (landed_breaks hstill) (landed_sound hsound), normFrom_one_commands hopen]
  rfl

/-- What a normalisation does as movement `e` of its channel ends (R57, R58, R60). -/
theorem lands_normalising (h : s.lands c r failed cmd e) (hdue : e ∈ s.due) :
    (∀ bad : Bool,
      ((s.relaySet c).normalising = some .breaking ∧ r ≠ .path ∧
          (∀ r', r' ≠ .path → r' ≠ r → ((s.relaySet c).relays.get r').state.moving = false) ∧
          (bad = true ∧ (failed = true ∨ ∃ r', r' ≠ .path ∧ r' ≠ r ∧ ((s.relaySet c).relays.get r').failed = true) ∨
            bad = false ∧ failed = false ∧ (∀ r', r' ≠ .path → ((s.relaySet c).relays.get r').failed = false) ∧
              (s.relaySet c).relays.path = { state := .closed }) ∨
        (s.relaySet c).normalising = some .joining ∧ r = .path ∧ bad = failed) →
      ∃ t : State, exec cmd s = .next t ∧ (((s.took e).landed c r failed).normLeft c bad).normLeaves t c) ∧
    ((s.relaySet c).normalising = some .breaking → r ≠ .path → s.noPassAfter e →
      ((∃ r', r' ≠ .path ∧ r' ≠ r ∧ ((s.relaySet c).relays.get r').state.moving = true) →
        exec cmd s = .next ((s.took e).landed c r failed)) ∧
      (failed = false → (∀ r', r' ≠ .path → r' ≠ r → ((s.relaySet c).relays.get r').state.moving = false) →
        (∀ r', r' ≠ .path → ((s.relaySet c).relays.get r').failed = false) →
        (s.relaySet c).relays.path.state.moving = false →
        (s.relaySet c).relays.path.state = .opened ∨ (s.relaySet c).relays.path.failed = true →
          exec cmd s = .next (((s.took e).landed c r failed).updRelaySet c fun x => { x with
            normalising := some .joining
            relays := { x.relays with path := s.timing.commands .closed } }))) := by
  have hexec := exec_of_lands h hdue
  refine ⟨fun bad hend => ⟨_, hexec, ?_⟩, fun hnorm hr hpass => ⟨fun hmoves => ?_, fun hgood hstill hsound hrest hpath => ?_⟩⟩
  · rw [movementEnded_ends (s := s.took e) hend]
    exact normEnded_leaves _ c
  · rw [hexec, movementEnded_waits (s := s.took e) hnorm hmoves, settle_of_no_pass (by exact hpass)]
  · subst hgood
    have hopen : s.open (c, .path, .closed) := by
      refine ⟨hrest, hpath.imp_left fun ho => ?_⟩
      show (s.relaySet c).relays.path.state ≠ .closed
      rw [ho]
      decide
    rw [hexec, movementEnded_joins (s := s.took e) hnorm hr hstill hsound hopen, settle_of_no_pass (by exact hpass)]
    rfl

end Sys2Proof.Machine
end

section
/-! Movements of a record's sequence: the step that waits and the step that follows (R51, R54). -/

namespace Sys2Proof.Machine

variable {s t u v w : State} {j k : Fin 64} {c d p : Fin 24} {n r : RelayName} {pos : Position} {e : Event} {cmd : Instr}
  {failed b : Bool} {x : RelaySet} {q : Sequence} {l : List Wish} {i : Nat} {done : State → Fin 64 → State}

/-- A movement, of relay `n` of channel `c`, that the sequence `q` of record `k` has commanded ends with event `e`. -/
structure SequenceLands (s : State) (c : Fin 24) (n : RelayName) (failed : Bool) (cmd : Instr) (e : Event) (k : Fin 64)
    (q : Sequence) : Prop where
  ends : s.lands c n failed cmd e
  due : e ∈ s.due
  calm : (s.relaySet c).normalising = none
  held : (s.relaySet c).holder = some k
  seq : (s.fault k).seq = some q

theorem SequenceLands.exec (h : SequenceLands s c n failed cmd e k q) :
    exec cmd s = .next (((s.took e).landed c n failed).seqAdvance k q).settle := by
  have hheld : (((s.took e).landed c n failed).relaySet c).holder = some k := by
    rw [landed_self]
    exact h.held
  have hcalm : (((s.took e).landed c n failed).relaySet c).normalising = none :=
    (landed_normalising (s := s.took e)).trans h.calm
  rw [exec_of_lands h.ends h.due, movementEnded_seq (s := (s.took e).landed c n failed) hcalm hheld h.seq]

/-! ## The steps of a sequence (R54) -/

theorem seqAdvance_waits (hl : (sequenceSteps (s.fault k) q.stop).getD q.step [] = l) (hm : s.stepMoving l = true) :
    s.seqAdvance k q = s := by
  rw [State.seqAdvance, hl]
  exact if_pos hm

theorem seqAdvance_fails (hl : (sequenceSteps (s.fault k) q.stop).getD q.step [] = l) (hm : s.stepMoving l = false)
    (hf : s.stepFailed l = true) : s.seqAdvance k q = s.sequenceFailed k := by
  rw [State.seqAdvance, hl]
  exact (if_neg (by rw [hm]; decide)).trans (if_pos hf)

theorem seqAdvance_next (hl : (sequenceSteps (s.fault k) q.stop).getD q.step [] = l) (hm : s.stepMoving l = false)
    (hf : s.stepFailed l = false) : s.seqAdvance k q =
      s.goOn k q.stop (q.step + 1) (if q.stop then State.stopComplete else State.startComplete) := by
  rw [State.seqAdvance, hl]
  exact (if_neg (by rw [hm]; decide)).trans (if_neg (by rw [hf]; decide))

theorem goOn_next {rest : List (List Wish)} (hsteps : (sequenceSteps (s.fault k) b).drop i = l :: rest)
    (h : (s.runStep l).stepMoving l = true) :
    s.goOn k b i done = (s.runStep l).updFault k fun r => { r with seq := some ⟨b, i⟩ } := by
  unfold State.goOn
  dsimp only
  rw [hsteps, runSteps_first h]

theorem goOn_over (hsteps : (sequenceSteps (s.fault k) b).drop i = []) : s.goOn k b i done = done s k := by
  unfold State.goOn
  dsimp only
  rw [hsteps]
  rfl

/-- No relay of the step moves or is in doubt. -/
def State.stepDone (s : State) (l : List Wish) : Prop :=
  ∀ w ∈ l, (s.relay w).state.moving = false ∧ (s.relay w).failed = false

theorem State.stepDone.stepMoving (h : s.stepDone l) : s.stepMoving l = false :=
  List.any_eq_false.2 fun w hw => by rw [(h w hw).1]; decide

theorem State.stepDone.stepFailed (h : s.stepDone l) : s.stepFailed l = false :=
  List.any_eq_false.2 fun w hw => by rw [(h w hw).2]; decide

/-- The second step of a sequence begins as its first one has succeeded, and commands the relay of one of its wishes. -/
theorem seqAdvance_second {l' : List Wish} (hsteps : sequenceSteps (s.fault k) b = [l, l']) (hdone : s.stepDone l)
    (hl : l'.Pairwise apart) {w : Wish} (hw : w ∈ l') (ho : s.open w) : s.seqAdvance k ⟨b, 0⟩ =
      (s.runStep l').updFault k fun r => { r with seq := some ⟨b, 1⟩ } := by
  have hfirst : (sequenceSteps (s.fault k) b).getD 0 [] = l := by rw [hsteps]; rfl
  rw [seqAdvance_next (q := ⟨b, 0⟩) hfirst hdone.stepMoving hdone.stepFailed]
  exact goOn_next (rest := []) (by rw [hsteps]; rfl) (stepMoving_of_open hl hw ho)

/-- The last step of a sequence ends. -/
theorem seqAdvance_last (hl : (sequenceSteps (s.fault k) q.stop).getD q.step [] = l)
    (hover : (sequenceSteps (s.fault k) q.stop).drop (q.step + 1) = []) (hdone : s.stepDone l) :
    s.seqAdvance k q = (if q.stop then State.stopComplete else State.startComplete) s k := by
  rw [seqAdvance_next hl hdone.stepMoving hdone.stepFailed, goOn_over hover]

/-! ## The relay that lands -/

theorem settle_movingOpen {y : Relay} (h : y.state = .movingOpen) (b : Bool) :
    y.settle b = { state := .opened, failed := b } := by
  rw [Relay.settle, h]
  rfl

theorem settle_movingClosed {y : Relay} (h : y.state = .movingClosed) (b : Bool) :
    y.settle b = { state := .closed, failed := b } := by
  rw [Relay.settle, h]
  rfl

theorem landed_relay (pos : Position) : (s.landed c n failed).relay (c, n, pos) = ((s.relaySet c).relays.get n).settle failed :=
  (landed_get n).trans (if_pos rfl)

theorem landed_relay_of_name_ne (h : r ≠ n) (pos : Position) :
    (s.landed c n failed).relay (c, r, pos) = (s.relaySet c).relays.get r :=
  (landed_get r).trans (if_neg (Ne.symm h))

theorem landed_relay_of_channel_ne (h : d ≠ c) (r : RelayName) (pos : Position) :
    (s.landed c n failed).relay (d, r, pos) = (s.relaySet d).relays.get r :=
  congrArg (fun x : RelaySet => x.relays.get r) (landed_ne (Ne.symm h))

/-- The relay that lands as it was commanded is done with. -/
theorem landed_done : (s.landed c n false).stepDone [(c, n, pos)] := by
  intro w hw
  obtain rfl := List.mem_singleton.1 hw
  rw [landed_relay]
  exact ⟨settle_moving _ _, rfl⟩

/-- One relay of a step for two channels lands, and the other is at rest. -/
theorem landed_done_pair (hne : d ≠ c) (h : ((s.relaySet d).relays.get n).state.moving = false)
    (hf : ((s.relaySet d).relays.get n).failed = false) (hl : ∀ w ∈ l, w = (c, n, pos) ∨ w = (d, n, pos)) :
    (s.landed c n false).stepDone l := by
  intro w hw
  rcases hl w hw with rfl | rfl
  · rw [landed_relay]
    exact ⟨settle_moving _ _, rfl⟩
  · rw [landed_relay_of_channel_ne hne]
    exact ⟨h, hf⟩

theorem open_of_opened (h : (s.relay (c, n, .closed)).state = .opened) : s.open (c, n, .closed) := by
  rw [State.open, h]
  exact ⟨rfl, .inl nofun⟩

/-! ## Two channels at once -/

theorem updRelaySet_comm (h : c ≠ d) (f g : RelaySet → RelaySet) :
    (s.updRelaySet c f).updRelaySet d g = (s.updRelaySet d g).updRelaySet c f := by
  have hrelays : updV (updV s.relays c f) d g = updV (updV s.relays d g) c f := by
    refine vector_ext_get fun i => ?_
    simp only [updV_get]
    by_cases hd : d = i
    · subst hd
      simp [h]
    · by_cases hc : c = i
      · subst hc
        simp [hd]
      · simp [hc, hd]
  exact congrArg (fun v => { s with relays := v }) hrelays

/-- A step of a PIN_SHORT record that commands the same relay of both its channels (R54). -/
theorem runStep_pair_open (hne : c ≠ p) (hc : s.open (c, n, pos)) (hp : s.open (p, n, pos)) :
    s.runStep [(c, n, pos), (p, n, pos)] = (s.updRelaySet p fun x =>
        { x with relays := x.relays.upd n fun _ => s.timing.commands pos }).updRelaySet c fun x =>
      { x with relays := x.relays.upd n fun _ => s.timing.commands pos } := by
  rw [updRelaySet_comm (Ne.symm hne)]
  have hfirst : s.runStep [(c, n, pos)] = _ := runStep_single_open hc
  have hsplit : s.runStep [(c, n, pos), (p, n, pos)] = (s.runStep [(c, n, pos)]).runStep [(p, n, pos)] := rfl
  have hother : (s.runStep [(c, n, pos)]).relay (p, n, pos) = s.relay (p, n, pos) :=
    runStep_unnamed (by simp [hne])
  have hopen : (s.runStep [(c, n, pos)]).open (p, n, pos) := by
    rw [State.open, hother]
    exact hp
  rw [hsplit, runStep_single_open hopen, hfirst]
  rfl

/-! ## The second step begins -/

/-- The second step of a record on one channel (R54). -/
theorem SequenceLands.second (h : SequenceLands s c n false cmd e k ⟨b, 0⟩) (hpass : s.noPassAfter e) {pos' : Position}
    (hsteps : sequenceSteps (s.fault k) b = [[(c, n, pos)], [(c, r, pos')]])
    (ho : ((s.took e).landed c n false).open (c, r, pos')) :
    Machine.exec cmd s = .next ((((s.took e).landed c n false).updRelaySet c fun x =>
      { x with relays := x.relays.upd r fun _ => s.timing.commands pos' }).updFault k fun f =>
        { f with seq := some ⟨b, 1⟩ }) := by
  rw [h.exec, seqAdvance_second (s := (s.took e).landed c n false) hsteps landed_done (List.pairwise_singleton _ _)
    (List.mem_singleton.2 rfl) ho, runStep_single_open ho]
  exact congrArg Host.Outcome.next (settle_of_no_pass hpass)

/-- The step of a sequence waits for another movement of it. -/
theorem SequenceLands.waits (h : SequenceLands s c n failed cmd e k q) (hpass : s.noPassAfter e)
    (hl : (sequenceSteps (s.fault k) q.stop).getD q.step [] = l)
    (hm : ((s.took e).landed c n failed).stepMoving l = true) :
    Machine.exec cmd s = .next ((s.took e).landed c n failed) := by
  rw [h.exec, seqAdvance_waits (s := (s.took e).landed c n failed) hl hm]
  exact congrArg Host.Outcome.next (settle_of_no_pass hpass)

end Sys2Proof.Machine
end

section
/-! The second step of a sequence, by the kind of its record (R54). -/

namespace Sys2Proof.Machine

variable {s t u v w : State} {j k : Fin 64} {c d p : Fin 24} {n r : RelayName} {pos : Position} {e : Event} {cmd : Instr}
  {failed b : Bool} {x : RelaySet} {q : Sequence} {l : List Wish} {i : Nat}

theorem lands_complete (h : ((s.relaySet c).relays.get n).completes ((s.pins.sense.get c).get n) = true) :
    s.lands c n false (.movementComplete c n) (.moveComplete c n) := .inl ⟨rfl, rfl, rfl, h⟩

theorem landed_eq {y : Relay} (h : ((s.relaySet c).relays.get n).settle failed = y) :
    s.landed c n failed = s.updRelaySet c fun x => { x with relays := x.relays.upd n fun _ => y } :=
  updRelaySet_congr (congrArg (fun z : PerRelay Relay => { s.relaySet c with relays := z }) (upd_congr h))

/-- A short to GND or BAT is joined once PATH is open (R54). -/
theorem startsSecond (h : SequenceLands s c .path false cmd e k ⟨false, 0⟩) (hpass : s.noPassAfter e)
    (hc : (s.fault k).target = c) (hkind : (s.fault k).kind = .shortGnd ∧ n = .gnd ∨ (s.fault k).kind = .shortBat ∧ n = .bat)
    (hn : ((s.relaySet c).relays.get n).state = .opened) (hp : (s.relaySet c).relays.path.state = .movingOpen) :
    exec cmd s = .next (((s.took e).updRelaySet c fun x => { x with
      relays := ({ x.relays with path := { state := .opened } } : PerRelay Relay).upd n fun _ =>
        s.timing.commands .closed }).updFault k fun f => { f with seq := some ⟨false, 1⟩ }) := by
  have hne : n ≠ .path := by rcases hkind with ⟨-, rfl⟩ | ⟨-, rfl⟩ <;> decide
  have hsteps : sequenceSteps (s.fault k) false = [[(c, .path, .opened)], [(c, n, .closed)]] := by
    show startSteps (s.fault k) = _
    rcases hkind with ⟨hk, rfl⟩ | ⟨hk, rfl⟩ <;> simp only [startSteps, hk, hc]
  have hopen : ((s.took e).landed c .path false).open (c, n, .closed) :=
    open_of_opened (by rw [landed_relay_of_name_ne hne]; exact hn)
  rw [h.second hpass hsteps hopen]
  rw [landed_eq (s := s.took e) (n := .path) (settle_movingOpen hp false), updRelaySet_updRelaySet]
  rfl

/-- PATH is closed once a short to GND or BAT is open (R54). -/
theorem stopsSecond (h : SequenceLands s c n false cmd e k ⟨true, 0⟩) (hpass : s.noPassAfter e)
    (hc : (s.fault k).target = c) (hkind : (s.fault k).kind = .shortGnd ∧ n = .gnd ∨ (s.fault k).kind = .shortBat ∧ n = .bat)
    (hn : ((s.relaySet c).relays.get n).state = .movingOpen) (hp : (s.relaySet c).relays.path.state = .opened) :
    exec cmd s = .next (((s.took e).updRelaySet c fun x => { x with
      relays := { x.relays.upd n fun _ => { state := .opened } with
        path := s.timing.commands .closed } }).updFault k fun f => { f with seq := some ⟨true, 1⟩ }) := by
  have hne : .path ≠ n := by rcases hkind with ⟨-, rfl⟩ | ⟨-, rfl⟩ <;> decide
  have hsteps : sequenceSteps (s.fault k) true = [[(c, n, .opened)], [(c, .path, .closed)]] := by
    show stopSteps (s.fault k) = _
    rcases hkind with ⟨hk, rfl⟩ | ⟨hk, rfl⟩ <;> simp only [stopSteps, hk, hc]
  have hopen : ((s.took e).landed c n false).open (c, .path, .closed) :=
    open_of_opened (by rw [landed_relay_of_name_ne hne]; exact hp)
  rw [h.second hpass hsteps hopen]
  rw [landed_eq (s := s.took e) (settle_movingOpen hn false), updRelaySet_updRelaySet]
  rfl

/-! ## PIN_SHORT (R54) -/

theorem startSteps_pinShort {f : FaultRecord} {b : Bus} (hk : f.kind = .pinShort) (hp : f.partner = some p)
    (hb : f.bus = some b) : startSteps f =
      [[(p, .path, .opened)], [(f.target, b.relay, .closed), (p, b.relay, .closed)]] := by
  simp only [startSteps, hk, hp, hb]

theorem stopSteps_pinShort {f : FaultRecord} {b : Bus} (hk : f.kind = .pinShort) (hp : f.partner = some p)
    (hb : f.bus = some b) : stopSteps f =
      [[(f.target, b.relay, .opened), (p, b.relay, .opened)], [(p, .path, .closed)]] := by
  simp only [stopSteps, hk, hp, hb]

/-- Both channels of a PIN_SHORT record join their bus once the partner's PATH is open (R54). -/
theorem startsPair {b : Bus} (h : SequenceLands s p .path false cmd e k ⟨false, 0⟩) (hpass : s.noPassAfter e)
    (hne : c ≠ p) (hk : (s.fault k).kind = .pinShort) (hc : (s.fault k).target = c) (hp : (s.fault k).partner = some p)
    (hb : (s.fault k).bus = some b) (hpath : (s.relaySet p).relays.path.state = .movingOpen)
    (hcb : (s.relaySet c).relays.get b.relay = { state := .opened })
    (hpb : (s.relaySet p).relays.get b.relay = { state := .opened }) :
    exec cmd s = .next ((((s.took e).updRelaySet p fun x => { x with
      relays := ({ x.relays with path := { state := .opened } } : PerRelay Relay).upd b.relay fun _ =>
        s.timing.commands .closed }).updRelaySet c fun x => { x with
          relays := x.relays.upd b.relay fun _ => s.timing.commands .closed }).updFault k fun f =>
            { f with seq := some ⟨false, 1⟩ }) := by
  have hbus : b.relay ≠ .path := by cases b <;> decide
  have hsteps : sequenceSteps (s.fault k) false =
      [[(p, .path, .opened)], [(c, b.relay, .closed), (p, b.relay, .closed)]] := by
    rw [← hc]
    exact startSteps_pinShort hk hp hb
  have hopenC : ((s.took e).landed p .path false).open (c, b.relay, .closed) :=
    open_of_opened (by rw [landed_relay_of_channel_ne hne]; exact congrArg Relay.state hcb)
  have hopenP : ((s.took e).landed p .path false).open (p, b.relay, .closed) :=
    open_of_opened (by rw [landed_relay_of_name_ne hbus]; exact congrArg Relay.state hpb)
  rw [h.exec, seqAdvance_second (s := (s.took e).landed p .path false) hsteps landed_done (by simp [apart, hne])
    List.mem_cons_self hopenC, runStep_pair_open hne hopenC hopenP]
  refine (congrArg Host.Outcome.next (settle_of_no_pass hpass)).trans ?_
  rw [landed_eq (s := s.took e) (n := .path) (settle_movingOpen hpath false), updRelaySet_updRelaySet]
  rfl

/-- One relay of a PIN_SHORT step waits for the other (R54). -/
theorem pairWaits {b : Bus} (h : SequenceLands s c b.relay false cmd e k q) (hpass : s.noPassAfter e)
    (hq : q = ⟨false, 1⟩ ∨ q = ⟨true, 0⟩) (hne : c ≠ p) (hk : (s.fault k).kind = .pinShort)
    (hp : (s.fault k).partner = some p) (hb : (s.fault k).bus = some b)
    (hm : ((s.relaySet p).relays.get b.relay).state.moving = true) :
    exec cmd s = .next ((s.took e).landed c b.relay false) := by
  have hother (pos : Position) : (((s.took e).landed c b.relay false).relay (p, b.relay, pos)).state.moving = true := by
    rw [landed_relay_of_channel_ne (Ne.symm hne)]
    exact hm
  rcases hq with rfl | rfl
  · refine h.waits hpass (l := [((s.fault k).target, b.relay, .closed), (p, b.relay, .closed)]) ?_ ?_
    · show (startSteps (s.fault k)).getD 1 [] = _
      rw [startSteps_pinShort hk hp hb]
      rfl
    · exact List.any_eq_true.2 ⟨_, List.mem_cons_of_mem _ List.mem_cons_self, hother .closed⟩
  · refine h.waits hpass (l := [((s.fault k).target, b.relay, .opened), (p, b.relay, .opened)]) ?_ ?_
    · show (stopSteps (s.fault k)).getD 0 [] = _
      rw [stopSteps_pinShort hk hp hb]
      rfl
    · exact List.any_eq_true.2 ⟨_, List.mem_cons_of_mem _ List.mem_cons_self, hother .opened⟩

/-- The partner's PATH is closed once both channels of a PIN_SHORT record are off their bus (R54). -/
theorem stopsPair {d' : Fin 24} {b : Bus} (h : SequenceLands s d b.relay false cmd e k ⟨true, 0⟩) (hpass : s.noPassAfter e)
    (hne : c ≠ p) (hd : d = c ∧ d' = p ∨ d = p ∧ d' = c) (hk : (s.fault k).kind = .pinShort) (hc : (s.fault k).target = c)
    (hp : (s.fault k).partner = some p) (hb : (s.fault k).bus = some b)
    (hm : ((s.relaySet d).relays.get b.relay).state = .movingOpen)
    (hother : (s.relaySet d').relays.get b.relay = { state := .opened })
    (hpath : (s.relaySet p).relays.path.state = .opened) :
    exec cmd s = .next ((((s.took e).updRelaySet d fun x => { x with
      relays := x.relays.upd b.relay fun _ => { state := .opened } }).updRelaySet p fun x => { x with
        relays := { x.relays with path := s.timing.commands .closed } }).updFault k fun f =>
          { f with seq := some ⟨true, 1⟩ }) := by
  have hdd : d' ≠ d := by rcases hd with ⟨rfl, rfl⟩ | ⟨rfl, rfl⟩; exacts [Ne.symm hne, hne]
  have hbus : .path ≠ b.relay := by cases b <;> decide
  have hsteps : sequenceSteps (s.fault k) true =
      [[(c, b.relay, .opened), (p, b.relay, .opened)], [(p, .path, .closed)]] := by
    rw [← hc]
    exact stopSteps_pinShort hk hp hb
  have hdone : ((s.took e).landed d b.relay false).stepDone [(c, b.relay, .opened), (p, b.relay, .opened)] := by
    refine landed_done_pair (s := s.took e) (pos := .opened) hdd (congrArg (fun y : Relay => y.state.moving) hother)
      (congrArg Relay.failed hother) fun w hw => ?_
    rcases hd with ⟨rfl, rfl⟩ | ⟨rfl, rfl⟩ <;> simpa [or_comm] using hw
  have hopen : ((s.took e).landed d b.relay false).open (p, .path, .closed) := by
    refine open_of_opened ?_
    by_cases hpd : p = d
    · subst hpd
      rw [landed_relay_of_name_ne hbus]
      exact hpath
    · rw [landed_relay_of_channel_ne hpd]
      exact hpath
  rw [h.exec, seqAdvance_second (s := (s.took e).landed d b.relay false) hsteps hdone (List.pairwise_singleton _ _)
    (List.mem_singleton.2 rfl) hopen, runStep_single_open hopen]
  refine (congrArg Host.Outcome.next (settle_of_no_pass hpass)).trans ?_
  rw [landed_eq (s := s.took e) (settle_movingOpen hm false)]
  rfl

end Sys2Proof.Machine
end

section
/-! The failure of a sequence (R55, R102). -/

namespace Sys2Proof.Machine

variable {s t u v w : State} {j k : Fin 64} {c d p : Fin 24} {n r : RelayName} {pos : Position} {e : Event} {cmd : Instr}
  {failed b : Bool} {x : RelaySet} {q : Sequence} {l : List Wish} {i : Nat}

/-! ## The relays of a step -/

/-- The relays of the step that a sequence is in (R54). -/
theorem inStep_iff {f : FaultRecord} : inStep f q d n ↔ ∃ pos, (d, n, pos) ∈ (sequenceSteps f q.stop).getD q.step [] := by
  obtain ⟨b, i⟩ := q
  unfold inStep sequenceSteps startSteps stopSteps
  cases hk : f.kind with
  | openWire => cases b <;> rcases i with _ | i <;> simp
  | shortGnd | shortBat => cases b <;> rcases i with _ | _ | i <;> simp
  | pinShort =>
    cases f.partner with
    | none => cases b <;> simp
    | some p =>
      cases f.bus with
      | none => cases b <;> simp
      | some x =>
        cases b <;> rcases i with _ | _ | i <;> simp <;> grind
  | stuckAt | freeze | offset | gain | noise | missTooth | extraTooth => cases b <;> simp

theorem stepMoving_iff : s.stepMoving ((sequenceSteps (s.fault k) q.stop).getD q.step []) = true ↔
    ∃ d m, inStep (s.fault k) q d m ∧ ((s.relaySet d).relays.get m).state.moving = true := by
  unfold State.stepMoving
  rw [List.any_eq_true]
  constructor
  · rintro ⟨⟨d, m, pos⟩, hw, hm⟩
    exact ⟨d, m, inStep_iff.2 ⟨pos, hw⟩, hm⟩
  · rintro ⟨d, m, hin, hm⟩
    obtain ⟨pos, hw⟩ := inStep_iff.1 hin
    exact ⟨(d, m, pos), hw, hm⟩

theorem stepFailed_iff : s.stepFailed ((sequenceSteps (s.fault k) q.stop).getD q.step []) = true ↔
    ∃ d m, inStep (s.fault k) q d m ∧ ((s.relaySet d).relays.get m).failed = true := by
  unfold State.stepFailed
  rw [List.any_eq_true]
  constructor
  · rintro ⟨⟨d, m, pos⟩, hw, hm⟩
    exact ⟨d, m, inStep_iff.2 ⟨pos, hw⟩, hm⟩
  · rintro ⟨d, m, hin, hm⟩
    obtain ⟨pos, hw⟩ := inStep_iff.1 hin
    exact ⟨(d, m, pos), hw, hm⟩

/-! ## The normalisations that follow -/

/-- A relay at rest in doubt is commanded as the normalisation of its channel begins, so the normalisation goes on. -/
theorem normalised_of_failed {t : RelayTiming} (hm : (x.relays.get n).state.moving = false)
    (hf : (x.relays.get n).failed = true) : (x.normalised t).normalising ≠ none := by
  have hwant (pos : Position) : ((x.relays.get n).want t pos).state.moving = true := by
    rw [want_of_not_confirmed hm (.inr hf)]
    exact moving_moving pos
  by_cases hb : (x.broken t).breaks = true
  · rw [RelaySet.normalised, if_pos hb]
    exact Option.some_ne_none _
  · cases n with
    | path =>
      have hpath : ((x.broken t).joined t).relays.path.state.moving = true := hwant .closed
      rw [RelaySet.normalised, if_neg hb, rejoined_normalising, if_pos hpath]
      exact Option.some_ne_none _
    | gnd => exact absurd ((breaks_iff (x := x.broken t)).2 ⟨.gnd, by decide, hwant .opened⟩) hb
    | bat => exact absurd ((breaks_iff (x := x.broken t)).2 ⟨.bat, by decide, hwant .opened⟩) hb
    | x0 => exact absurd ((breaks_iff (x := x.broken t)).2 ⟨.x0, by decide, hwant .opened⟩) hb
    | x1 => exact absurd ((breaks_iff (x := x.broken t)).2 ⟨.x1, by decide, hwant .opened⟩) hb

/-- The normalisation of a held channel begins at its own relay set while another one of the record's goes on. -/
theorem normFrom_of_held (hk : (s.relaySet c).holder = some k) (hd : (s.relaySet d).holder = some k)
    (hn : (s.relaySet d).normalising ≠ none)
    (hc : c = d → ((s.relaySet c).normalised s.timing).normalising ≠ none) :
    s.normFrom c 0 = s.updRelaySet c (RelaySet.normalised s.timing) := by
  rw [normFrom_zero]
  split
  next hnone =>
    have hne : c ≠ d := fun h => hc h hnone
    refine normEnded_of_held (k := k) (d := d) ?_ ?_ ?_
    · rw [State.updRelaySet_relaySet_self, normalised_holder, hk]
    · rw [State.updRelaySet_relaySet, if_neg hne, hd]
    · rw [State.updRelaySet_relaySet, if_neg hne]
      exact hn
  next => rfl

/-- The normalisations of a record's channels, one of them in doubt, begin one after the other. -/
theorem beginAll_of_held (l : List (Fin 24)) (hheld : ∀ c ∈ l, (t.relaySet c).holder = some k) (ht : s.relaysOnly t)
    (hl : l.Nodup) (hd : (t.relaySet d).holder = some k) (hn : (t.relaySet d).normalising ≠ none)
    (hbad : d ∈ l → ((t.relaySet d).normalised s.timing).normalising ≠ none) :
    s.relaysOnly (l.foldl (fun u c => u.normFrom c 0) t) ∧
      ∀ d, (l.foldl (fun u c => u.normFrom c 0) t).relaySet d =
        if d ∈ l then (t.relaySet d).normalised s.timing else t.relaySet d := by
  induction l generalizing t with
  | nil => exact ⟨ht, fun d => (if_neg (List.not_mem_nil)).symm⟩
  | cons c l ih =>
    obtain ⟨hc, hl⟩ := List.nodup_cons.1 hl
    have hstep : t.normFrom c 0 = t.updRelaySet c (RelaySet.normalised s.timing) := by
      rw [normFrom_of_held (hheld c List.mem_cons_self) hd hn, relaysOnly_timing ht]
      rintro rfl
      rw [relaysOnly_timing ht]
      exact hbad List.mem_cons_self
    have hset (m : Fin 24) : (t.updRelaySet c (RelaySet.normalised s.timing)).relaySet m =
        if c = m then (t.relaySet c).normalised s.timing else t.relaySet m := State.updRelaySet_relaySet ..
    rw [List.foldl_cons, hstep]
    obtain ⟨honly, hrest⟩ := ih (t := t.updRelaySet c (RelaySet.normalised s.timing)) (fun m hm => by
        rw [hset, if_neg (by rintro rfl; exact hc hm)]
        exact hheld m (List.mem_cons_of_mem _ hm)) (relaysOnly_updRelaySet _ ht) hl
      (by
        rw [hset]
        split
        next h => rw [normalised_holder, h, hd]
        next => exact hd)
      (by
        rw [hset]
        split
        next h => subst h; exact hbad List.mem_cons_self
        next => exact hn)
      (fun hm => by
        rw [hset, if_neg (by rintro rfl; exact hc hm)]
        exact hbad (List.mem_cons_of_mem _ hm))
    refine ⟨honly, fun m => ?_⟩
    rw [hrest m, hset]
    by_cases hm : c = m
    · subst hm
      rw [if_neg hc, if_pos rfl, if_pos List.mem_cons_self]
    · simp [hm, Ne.symm hm]

/-- A sequence of record `k` has failed: the record is FAILED, and every channel it holds normalises (R55, R102). -/
theorem sequenceFailed_spec (hd : (s.relaySet d).holder = some k) (hm : ((s.relaySet d).relays.get n).state.moving = false)
    (hf : ((s.relaySet d).relays.get n).failed = true) :
    (s.enterFailed k .relayTimeout).relaysOnly (s.sequenceFailed k) ∧ ∀ d, (s.sequenceFailed k).relaySet d =
      if (s.relaySet d).holder = some k then (s.relaySet d).normalised s.timing else s.relaySet d := by
  have hset (c : Fin 24) : (s.enterFailed k .relayTimeout).relaySet c = s.relaySet c :=
    congrArg (fun v => v.get c) (show (s.enterFailed k .relayTimeout).relays = s.relays by simp)
  have htiming : (s.enterFailed k .relayTimeout).timing = s.timing := by simp
  obtain ⟨l, hdef⟩ : ∃ l, l = (List.finRange 24).filter fun c =>
      ((s.enterFailed k .relayTimeout).relaySet c).holder == some k := ⟨_, rfl⟩
  have hmem (c : Fin 24) : c ∈ l ↔ (s.relaySet c).holder = some k := by
    rw [hdef, List.mem_filter, hset, beq_iff_eq, and_iff_right (List.mem_finRange c)]
  have hnodup : l.Nodup := hdef ▸ (List.nodup_finRange 24).filter _
  have hseq : s.sequenceFailed k = (s.enterFailed k .relayTimeout).beginNorms l := by rw [hdef]; rfl
  obtain ⟨honly, hmarked⟩ := markNormalising_marks l (relaysOnly_refl (s.enterFailed k .relayTimeout))
  have hmark (c : Fin 24) (hc : c ∈ l) : ((s.enterFailed k .relayTimeout).markNormalising l).relaySet c =
      { s.relaySet c with normalising := some .breaking } := by rw [hmarked, if_pos hc, hset]
  have hdl : d ∈ l := (hmem d).2 hd
  obtain ⟨hrest, hall⟩ := beginAll_of_held (s := s.enterFailed k .relayTimeout) (k := k) (d := d) l
    (fun c hc => by rw [hmark c hc]; exact (hmem c).1 hc) honly hnodup (by rw [hmark d hdl]; exact hd)
    (by rw [hmark d hdl]; exact Option.some_ne_none _)
    (fun _ => by rw [hmark d hdl, normalised_of_marked]; exact normalised_of_failed hm hf)
  rw [hseq]
  refine ⟨hrest, fun c => (hall c).trans ?_⟩
  by_cases hc : c ∈ l
  · rw [if_pos hc, hmark c hc, if_pos ((hmem c).1 hc), htiming, normalised_of_marked]
  · rw [if_neg hc, hmarked, if_neg hc, hset, if_neg fun h => hc ((hmem c).2 h)]

/-! ## A movement that ends a step in doubt -/

/-- The failed sequence leaves the part with no pass of the wait list to come. -/
theorem settle_sequenceFailed (honly : (s.enterFailed k .relayTimeout).relaysOnly (s.sequenceFailed k))
    (hpass : s.examineDue = false ∨ s.due ≠ []) : (s.sequenceFailed k).settle = s.sequenceFailed k := by
  refine settle_of_no_pass ?_
  rw [honly]
  exact hpass.imp (fun h => (show (s.enterFailed k .relayTimeout).examineDue = s.examineDue by simp).trans h)
    fun h => (show (s.enterFailed k .relayTimeout).due = s.due by simp).symm ▸ h

/-- A step of a sequence that waits for another of its movements, or that has come to its end with a failed one (R51, R55). -/
theorem SequenceLands.waits_or_fails (h : SequenceLands s c n failed cmd e k q) (hpass : s.noPassAfter e)
    (hu : u = (s.took e).landed c n failed) :
    ((∃ d m, inStep (s.fault k) q d m ∧ ((u.relaySet d).relays.get m).state.moving = true) → Machine.exec cmd s = .next u) ∧
    ((∀ d m, inStep (s.fault k) q d m →
        (s.relaySet d).holder = some k ∧ ((u.relaySet d).relays.get m).state.moving = false) →
      (∃ d m, inStep (s.fault k) q d m ∧ ((u.relaySet d).relays.get m).failed = true) →
        Machine.exec cmd s = .next (u.sequenceFailed k) ∧
        (u.enterFailed k .relayTimeout).relaysOnly (u.sequenceFailed k) ∧
        ∀ d, (u.sequenceFailed k).relaySet d =
          if (s.relaySet d).holder = some k then (u.relaySet d).normalised s.timing else u.relaySet d) := by
  have hexec := h.exec
  rw [← hu] at hexec
  have hfault : u.fault k = s.fault k := by rw [hu]; rfl
  have hnone : u.examineDue = false ∨ u.due ≠ [] := by rw [hu]; exact hpass
  have htiming : u.timing = s.timing := by rw [hu]; rfl
  have hholder (d : Fin 24) : (u.relaySet d).holder = (s.relaySet d).holder := by
    rw [hu, landed_relaySet]
    split
    next h => rw [h]; rfl
    next => rfl
  constructor
  · intro hm
    rw [hexec, seqAdvance_waits rfl (stepMoving_iff.2 (by rw [hfault]; exact hm)), settle_of_no_pass hnone]
  · rintro hall ⟨d, m, hin, hf⟩
    have hmoving : u.stepMoving ((sequenceSteps (u.fault k) q.stop).getD q.step []) = false := by
      refine Bool.eq_false_iff.2 fun hm => ?_
      obtain ⟨d', m', hin', hm'⟩ := stepMoving_iff.1 hm
      rw [hfault] at hin'
      rw [(hall d' m' hin').2] at hm'
      cases hm'
    obtain ⟨honly, hset⟩ := sequenceFailed_spec (s := u) (k := k) (by rw [hholder]; exact (hall d m hin).1)
      (hall d m hin).2 hf
    refine ⟨?_, honly, fun d => ?_⟩
    · rw [hexec, seqAdvance_fails rfl hmoving (stepFailed_iff.2 ⟨d, m, by rw [hfault]; exact hin, hf⟩),
        settle_sequenceFailed honly hnone]
    · rw [hset, hholder, htiming]

/-- A normal set but for PATH, at rest open in doubt, is normalised by PATH alone (R57). -/
theorem normalised_of_path {t : RelayTiming} (h : x.relays = ⟨{ state := .opened, failed := true }, { state := .opened },
    { state := .opened }, { state := .opened }, { state := .opened }⟩) : x.normalised t = { x with
      normalising := some .joining
      relays := { x.relays with path := t.commands .closed } } := by
  cases x
  dsimp only at h
  subst h
  rfl

end Sys2Proof.Machine
end

section
/-! The end of a stop sequence (R53, R54, R83, R89, R101, R103). -/

namespace Sys2Proof.Machine

variable {s t u v w : State} {j k : Fin 64} {c d p : Fin 24} {n r : RelayName} {pos : Position} {e : Event} {cmd : Instr}
  {failed b : Bool} {x : RelaySet} {q : Sequence} {l : List Wish} {i : Nat}

/-! ## The end of a relay record's activation -/

/-- The activation of a relay record ends (R103). -/
theorem endActivation_relay (he : (s.fault k).kind.electronic = false) (ha : (s.fault k).state ≠ .armed) :
    s.endActivation k = (((s.stamped k).produce k .stop).updFault k fun _ => s.endedNow k).raiseSet
      (s.endAnnounced k) .faultEvent := by
  have hstill : ((s.stamped k).produce k .stop).fault k = (s.stamped k).fault k :=
    produce_fault_of_not_armed (by rw [stamped_fault]; exact ha)
  rw [endActivation_eq, rearmedOrDone_eq hstill, raiseSet_fault, updFault_fault, if_pos rfl, endedNow_kind,
    if_neg (by rw [he]; decide)]

/-- The chain of the END event of a relay record (R83, R84, R103). -/
theorem endActivation_relay_chain (he : (s.fault k).kind.electronic = false) (ha : (s.fault k).state ≠ .armed)
    (hs : s.listeners k .stop = [] ∨ s.listenersElectronic) :
    s.endActivation k = { s with
      faults := (s.endActivation k).faults, channels := (s.endActivation k).channels
      portM := (s.endActivation k).portM, portB := (s.endActivation k).portB } ∧
    (s.endActivation k).fault k = s.endedNow k ∧ s.chainFires (s.endActivation k) k .stop := by
  have hself : ((s.stamped k).fault k).state ≠ .armed := by
    rw [stamped_fault]
    exact ha
  have hothers {j : Fin 64} (hj : j ≠ k) : (s.stamped k).fault j = s.fault j := (updFault_fault _ j).trans (if_neg hj)
  have hfired : Fired ((s.stamped k).listeners k .stop) (s.stamped k) ((s.stamped k).produce k .stop) := by
    rcases hs with hnone | hs
    · rw [produce_of_no_listener (by rw [stamped_listeners ha, hnone]), stamped_listeners ha, hnone]
      exact Fired.nil _
    · refine produce_fired fun j i x hj ht => ?_
      have hne : j ≠ k := by
        rintro rfl
        exact hself hj
      rw [hothers hne] at hj ht ⊢
      exact hs j i x hj ht
  rw [endActivation_relay he ha]
  generalize (s.stamped k).produce k .stop = w at hfired
  have hfault (j : Fin 64) : ((w.updFault k fun _ => s.endedNow k).raiseSet (s.endAnnounced k) .faultEvent).fault j =
      if j = k then s.endedNow k else w.fault j := by
    rw [raiseSet_fault, updFault_fault]
  refine ⟨?_, (hfault k).trans (if_pos rfl), chainFires_of_fired hfired hself (fun j hj => ⟨hothers hj, ?_⟩) rfl
    fun j hj => (hfault j).trans (if_neg hj)⟩
  · rw [hfired.rest]
    rfl
  · rw [State.activeNow, State.activeNow, hothers hj]
    rfl

/-- The notice of an activation's end goes out where the record is DONE. -/
theorem endAnnounced_eq : s.endAnnounced k =
    if (s.endedNow k).state = .done then (s.fault k).notify else ⟨false, false⟩ := by
  unfold State.endAnnounced
  by_cases h : (s.fault k).releasePending = true ∨ (s.fault k).repeats = 0
  · rw [endedNow_of_done h, if_neg nofun, if_pos rfl]
  · obtain ⟨hp, hr⟩ := not_or.1 h
    rw [endedNow_of_repeat (Bool.eq_false_iff.2 hp) (Nat.pos_of_ne_zero hr), if_pos (rearm_state _),
      if_neg (by rw [rearm_state]; nofun)]

/-! ## The holders let go -/

theorem activeNow_congr (hf : u.fault j = s.fault j) (hr : u.rigTime = s.rigTime) (ha : u.angle = s.angle)
    (hc : u.channels = s.channels) : u.activeNow j = s.activeNow j := by
  have hchannel (c : Fin 24) : u.channel c = s.channel c := congrArg (fun y => y.get c) hc
  rw [State.activeNow, State.activeNow, hf, hr, ha, hchannel]

/-- The sequence that ends with its activation does not count. -/
theorem endedNow_congr {q' : Option Sequence} (hf : u.fault k = { s.fault k with seq := q' }) (hr : u.rigTime = s.rigTime)
    (ha : u.angle = s.angle) : u.endedNow k = s.endedNow k := by
  rw [State.endedNow, State.endedNow, hf, hr, ha]

/-- Record `k` with its sequence over, and what it holds released. -/
def State.stopped (s : State) (k : Fin 64) : State := (s.unsequenced k).releaseHolders k

theorem chainFires_of_faults {x : FaultEvent} (h : v.faults = t.faults) (hc : s.chainFires t k x) : s.chainFires v k x := by
  have hfault (j : Fin 64) : v.fault j = t.fault j := congrArg (fun y => y.get j) h
  intro j hj
  rw [State.firedBy, hfault]
  simp only [hfault]
  exact hc j hj

theorem stopped_kept (s : State) (k : Fin 64) : (s.stopped k).rigTime = s.rigTime ∧ (s.stopped k).angle = s.angle ∧
    (s.stopped k).channels = s.channels ∧ (s.stopped k).run = s.run := by
  simp only [State.stopped, State.releaseHolders, State.unsequenced, State.updFault, and_self]

theorem stopped_fault : (s.stopped k).fault k = { s.fault k with seq := none } := by
  rw [State.stopped, releaseHolders_fault, unsequenced_fault_self]

theorem stopped_fault_ne (h : j ≠ k) : (s.stopped k).fault j = s.fault j := by
  rw [State.stopped, releaseHolders_fault]
  exact (updFault_fault _ j).trans (if_neg h)

theorem stopped_activeNow (h : j ≠ k) : (s.stopped k).activeNow j = s.activeNow j := by
  obtain ⟨hr, ha, hc, -⟩ := stopped_kept s k
  exact activeNow_congr (stopped_fault_ne h) hr ha hc

theorem stopped_endedNow : (s.stopped k).endedNow k = s.endedNow k := by
  obtain ⟨hr, ha, -⟩ := stopped_kept s k
  exact endedNow_congr stopped_fault hr ha

theorem stopped_relaySet (d : Fin 24) : (s.stopped k).relaySet d =
    if (s.relaySet d).holder = some k then { s.relaySet d with holder := none } else s.relaySet d := mapV_get ..

theorem stopped_listeners (h : (s.fault k).state ≠ .armed) {x : FaultEvent} :
    (s.stopped k).listeners k x = s.listeners k x := by
  obtain ⟨-, -, -, hrun⟩ := stopped_kept s k
  exact listeners_congr hrun ⟨fun hk => h (by rw [stopped_fault] at hk; exact hk.1), fun hk => h hk.1⟩ fun _ hj => stopped_fault_ne hj

/-- A state that differs from the stopped one in records, pins and notices alone has let go of the holders. -/
theorem letsGo_of_stopped (h : t = { s.stopped k with
      faults := t.faults, channels := t.channels, portM := t.portM, portB := t.portB })
    (hv : v = { s with faults := t.faults, channels := t.channels, portM := t.portM, portB := t.portB }) :
    v.letsGo k t := by
  have hbuses : t.buses = (s.stopped k).buses := (congrArg State.buses h :)
  have hrelays : t.relays = (s.stopped k).relays := (congrArg State.relays h :)
  have hsame : v.relays = s.relays ∧ v.buses = s.buses := by rw [hv]; exact ⟨rfl, rfl⟩
  have hset (d : Fin 24) : t.relaySet d = (s.stopped k).relaySet d := congrArg (fun y => y.get d) hrelays
  have hbefore (d : Fin 24) : v.relaySet d = s.relaySet d := congrArg (fun y => y.get d) hsame.1
  refine ⟨?_, fun d => ?_, fun b => ?_⟩
  · rw [hrelays, hbuses, hv]
    exact h
  · rw [hset, hbefore, stopped_relaySet]
    by_cases hd : (s.relaySet d).holder = some k
    · rw [if_pos hd, if_pos hd]
    · rw [if_neg hd, if_neg hd]
  · rw [hbuses, hsame.2]
    cases b <;> rfl

/-- Where nobody listens the end of a stop sequence is the record's own. -/
theorem stopped_ends (he : (s.fault k).kind.electronic = false) (ha : (s.fault k).state ≠ .armed)
    (hl : s.listeners k .stop = []) : (s.stopped k).endActivation k =
      ((s.stopped k).updFault k fun _ => s.endedNow k).raiseSet
        (if (s.endedNow k).state = .done then (s.fault k).notify else ⟨false, false⟩) .faultEvent := by
  have hkind : ((s.stopped k).fault k).kind.electronic = false := by rw [stopped_fault]; exact he
  have harmed : ((s.stopped k).fault k).state ≠ .armed := by rw [stopped_fault]; exact ha
  have hnotify : ((s.stopped k).fault k).notify = (s.fault k).notify := by rw [stopped_fault]
  rw [endActivation_of_relay hkind harmed (by rw [stopped_listeners ha, hl]), endAnnounced_eq, stopped_endedNow, hnotify]

/-- The record as it ends, and its notice, are the same with what it held let go and without. -/
theorem ended_over {g : FaultRecord} {m : PortSet} : { u with
      faults := (((u.stopped k).updFault k fun _ => g).raiseSet m .faultEvent).faults
      channels := (((u.stopped k).updFault k fun _ => g).raiseSet m .faultEvent).channels
      portM := (((u.stopped k).updFault k fun _ => g).raiseSet m .faultEvent).portM
      portB := (((u.stopped k).updFault k fun _ => g).raiseSet m .faultEvent).portB } =
    (u.updFault k fun _ => g).raiseSet m .faultEvent := by
  obtain ⟨relays, buses, hstopped⟩ : ∃ relays buses, u.stopped k =
    { u.unsequenced k with relays := relays, buses := buses, examineDue := true } := ⟨_, _, rfl⟩
  have htwice : (u.unsequenced k).updFault k (fun _ => g) = u.updFault k fun _ => g := updFault_updFault _ _
  have hfaults : updV (u.unsequenced k).faults k (fun _ => g) = updV u.faults k fun _ => g := congrArg State.faults htwice
  rw [hstopped]
  unfold State.updFault
  dsimp only
  rw [hfaults]
  rfl

/-! ## The last movement of a stop -/

/-- The last step of a stop sequence is PATH's (R54). -/
theorem stopSteps_last {f : FaultRecord} (h : f.target = c ∧ (f.kind = .openWire ∧ i = 0 ∨
      (f.kind = .shortGnd ∨ f.kind = .shortBat) ∧ i = 1) ∨
    f.kind = .pinShort ∧ f.partner = some c ∧ f.bus ≠ none ∧ i = 1) :
    (stopSteps f).getD i [] = [(c, .path, .closed)] ∧ (stopSteps f).drop (i + 1) = [] := by
  rcases h with ⟨rfl, ⟨hk, rfl⟩ | ⟨hk | hk, rfl⟩⟩ | ⟨hk, hp, hb, rfl⟩
  · simp [stopSteps, hk]
  · simp [stopSteps, hk]
  · simp [stopSteps, hk]
  · obtain ⟨b, hb⟩ := Option.ne_none_iff_exists'.1 hb
    simp [stopSteps, hk, hp, hb]

/-- The activation of a relay record ends with the last movement of its stop (R101, R103). -/
theorem stopEnds (h : SequenceLands s c .path false cmd e k ⟨true, i⟩) (ha : (s.fault k).state = .stopping)
    (hkind : (s.fault k).target = c ∧ ((s.fault k).kind = .openWire ∧ i = 0 ∨
        ((s.fault k).kind = .shortGnd ∨ (s.fault k).kind = .shortBat) ∧ i = 1) ∨
      (s.fault k).kind = .pinShort ∧ (s.fault k).partner = some c ∧ (s.fault k).bus ≠ none ∧ i = 1)
    (hl : s.listeners k .stop = [] ∨ s.listenersElectronic) (hu : u = (s.took e).landed c .path false) :
    ∃ v r t : State,
      v = { u with faults := v.faults, channels := v.channels, portM := v.portM, portB := v.portB } ∧
      Machine.exec cmd s = .next t ∧ v.letsGo k r ∧ r.passLeaves t ∧
      v.fault k = s.endedNow k ∧ s.chainFires v k .stop ∧
      (s.listeners k .stop = [] → v = (u.updFault k fun _ => s.endedNow k).raiseSet
        (if (s.endedNow k).state = .done then (s.fault k).notify else ⟨false, false⟩) .faultEvent) := by
  have he : (s.fault k).kind.electronic = false := by
    rcases hkind with ⟨-, ⟨hk, -⟩ | ⟨hk | hk, -⟩⟩ | ⟨hk, -⟩ <;> rw [hk] <;> rfl
  have hfaults : u.faults = s.faults := by rw [hu]; rfl
  have hfault (j : Fin 64) : u.fault j = s.fault j := congrArg (fun y => y.get j) hfaults
  have hnow (j : Fin 64) : u.activeNow j = s.activeNow j := by rw [hu]; rfl
  have hended : u.endedNow k = s.endedNow k := by rw [hu]; rfl
  have hrun : u.run = s.run := by rw [hu]; rfl
  have hlisteners : u.listeners k .stop = s.listeners k .stop := by rw [hu]; rfl
  have hidle : (u.fault k).state ≠ .armed := by rw [hfault, ha]; nofun
  obtain ⟨hlast, hover⟩ := stopSteps_last hkind
  have hexec : Machine.exec cmd s = .next ((u.stopped k).endActivation k).settle := by
    rw [h.exec, seqAdvance_last (s := (s.took e).landed c .path false) (q := ⟨true, i⟩) hlast hover landed_done, ← hu]
    rfl
  have hopen : (u.stopped k).listeners k .stop = [] ∨ (u.stopped k).listenersElectronic := by
    refine hl.imp (fun hnone => by rw [stopped_listeners hidle, hlisteners, hnone]) fun hall j i x hj ht => ?_
    have hne : j ≠ k := by
      rintro rfl
      rw [stopped_fault] at hj
      exact hidle hj
    rw [stopped_fault_ne hne, hfault] at hj ht ⊢
    exact hall j i x hj ht
  obtain ⟨hrest, hself, hchain⟩ := endActivation_relay_chain (s := u.stopped k) (k := k)
    (by rw [stopped_fault, hfault]; exact he) (by rw [stopped_fault]; exact hidle) hopen
  have hended' := stopped_ends (s := u) (k := k) (by rw [hfault]; exact he) hidle
  generalize (u.stopped k).endActivation k = z at hexec hrest hself hchain hended'
  have hgo : ({ u with faults := z.faults, channels := z.channels, portM := z.portM, portB := z.portB } : State).letsGo k z :=
    letsGo_of_stopped hrest rfl
  refine ⟨_, z, z.settle, rfl, hexec, hgo, settle_passLeaves (by rw [hgo.1]), ?_, ?_, fun hnone => ?_⟩
  · exact hself.trans (stopped_endedNow.trans hended)
  · have hchain' : s.chainFires z k .stop := by
      obtain ⟨-, -, -, hrun'⟩ := stopped_kept u k
      exact chainFires_congr (hrun'.trans hrun) (fun j hj =>
        ⟨(stopped_fault_ne hj).trans (hfault j), (stopped_activeNow hj).trans (hnow j)⟩) hchain
    exact chainFires_of_faults rfl hchain'
  · rw [hended' (hlisteners.trans hnone), hended, hfault]
    exact ended_over

end Sys2Proof.Machine
end

section
/-! The end of a start sequence (R54, R70, R94, R99). -/

namespace Sys2Proof.Machine

variable {s t u v w : State} {j k : Fin 64} {c d p : Fin 24} {n r : RelayName} {pos back : Position} {e : Event} {cmd : Instr}
  {failed b : Bool} {x : RelaySet} {q : Sequence} {l : List Wish} {i : Nat}

/-- A relay record as its start completes (R94). -/
def State.startedRecord (s : State) (f : FaultRecord) : FaultRecord :=
  { f with
    state := .active
    startStamp := some ⟨s.rigTime, angleCount s.angle.phase, s.angle.cycle⟩
    durProgress := 0
    frozen := none
    fresh := true
    seq := none }

/-- The start of relay record `k` is complete, before what hears of it (R70, R94). -/
def State.started (s : State) (k : Fin 64) : State :=
  (s.updFault k s.startedRecord).raiseSet (s.fault k).notify .faultEvent

theorem started_fault (j : Fin 64) : (s.started k).fault j = if j = k then s.startedRecord (s.fault k) else s.fault j := by
  rw [State.started, raiseSet_fault, updFault_fault]

theorem started_fault_self : (s.started k).fault k = s.startedRecord (s.fault k) := (started_fault k).trans (if_pos rfl)

theorem started_fault_ne (h : j ≠ k) : (s.started k).fault j = s.fault j := (started_fault j).trans (if_neg h)

/-- A relay record enters ACTIVE with its sequence over (R54, R94). -/
theorem enterActive_of_relay (he : (s.fault k).kind.electronic = false) : (s.unsequenced k).enterActive k = s.started k := by
  have hself := unsequenced_fault_self (s := s) (k := k)
  have hfreeze : (s.fault k).kind ≠ .freeze := by
    intro h
    rw [h] at he
    cases he
  have hrecord : (s.unsequenced k).updFault k (fun f =>
      { f with
        state := .active
        startStamp := some (s.unsequenced k).stampNow
        durProgress := 0
        frozen := if f.kind = .freeze then
          some ((s.unsequenced k).channel ((s.unsequenced k).fault k).target).lastOutput else none
        fresh := true }) = s.updFault k s.startedRecord := by
    refine (updFault_updFault _ _).trans (updFault_congr ?_)
    dsimp only
    rw [if_neg hfreeze]
    rfl
  unfold State.enterActive
  dsimp only
  rw [hrecord, raiseSet_fault, updFault_fault, if_pos rfl, if_neg (by rw [State.startedRecord, he]; decide)]
  rfl

/-- The start sequence of a relay record is complete (R54, R94, R99). -/
theorem startComplete_of_relay (he : (s.fault k).kind.electronic = false) : s.startComplete k =
    if (s.fault k).releasePending then ((s.started k).produce k .start).beginStop k
    else (s.started k).produce k .start := by
  have hstill : ((s.started k).produce k .start).fault k = s.startedRecord (s.fault k) := by
    rw [produce_fault_of_not_armed (by rw [started_fault_self]; nofun), started_fault_self]
  rw [startComplete_eq, enterActive_of_relay he, hstill]
  rfl

theorem started_listeners (h : (s.fault k).state ≠ .armed) {x : FaultEvent} :
    (s.started k).listeners k x = s.listeners k x :=
  listeners_congr (show (s.started k).run = s.run by simp [State.started])
    ⟨fun hk => (by rw [started_fault_self] at hk; cases hk.1), fun hk => h hk.1⟩ fun _ hj => started_fault_ne hj

theorem started_relaySet (d : Fin 24) : (s.started k).relaySet d = s.relaySet d :=
  congrArg (fun y => y.get d) (show (s.started k).relays = s.relays by simp [State.started])

theorem started_timing : (s.started k).timing = s.timing := by simp [State.started]

/-- The START event of a relay record fires the electronic records that listen for it (R83, R94). -/
theorem started_chain (hm : s.run.mode = .run) (ha : (s.fault k).state ≠ .armed) (hs : s.listenersElectronic) :
    Fired (s.listeners k .start) (s.started k) ((s.started k).produce k .start) ∧
      ∀ j, (s.fault j).state = .armed → (s.fault j).trigger = .onFault k .start →
        ((s.started k).produce k .start).fault j = s.activeNow j := by
  have helectronic : (s.started k).listenersElectronic := by
    intro j i x hj ht
    have hne : j ≠ k := by
      rintro rfl
      rw [started_fault_self] at hj
      cases hj
    rw [started_fault_ne hne] at hj ht ⊢
    exact hs j i x hj ht
  have hfired := produce_fired (k := k) (e := .start) helectronic
  rw [started_listeners ha] at hfired
  refine ⟨hfired, fun j hj ht => ?_⟩
  have hne : j ≠ k := by
    rintro rfl
    exact ha hj
  have hactive := hfired.roots j (mem_listeners.2 ⟨hm, hj, ht⟩) (by rw [started_fault_ne hne]; exact hj)
  rcases hfired.records j with hkeep | ⟨-, hfire⟩
  · rw [hkeep, started_fault_ne hne, hj] at hactive
    cases hactive
  · rw [hfire]
    exact activeNow_congr (started_fault_ne hne) (by simp [State.started]) (by simp [State.started]) (by simp [State.started])

/-! ## The last movement of a start -/

/-- No pass of the wait list follows the completion of a start. -/
theorem started_noPass (hpass : s.noPassAfter e) (hu : u = (s.took e).landed c n failed) :
    (u.started k).examineDue = false ∨ (u.started k).due ≠ [] := by
  have hkept : (u.started k).examineDue = s.examineDue ∧ (u.started k).due = s.due.erase e := by
    rw [hu]
    simp [State.started, State.landed]
  rw [hkept.1, hkept.2]
  exact hpass

/-- A movement that completes the start of relay record `k`, and what hears of it. -/
theorem SequenceLands.starts (h : SequenceLands s c n false cmd e k ⟨false, i⟩) (hpass : s.noPassAfter e)
    (ha : (s.fault k).state = .starting) (he : (s.fault k).kind.electronic = false)
    (hl : (startSteps (s.fault k)).getD i [] = l) (hover : (startSteps (s.fault k)).drop (i + 1) = [])
    (hu : u = (s.took e).landed c n false) (hdone : u.stepDone l) :
    (s.listeners k .start = [] →
      ((s.fault k).releasePending = false → Machine.exec cmd s = .next (u.started k)) ∧
      ((s.fault k).releasePending = true → Machine.exec cmd s = .next ((u.started k).beginStop k).settle)) ∧
    (s.run.mode = .run → (s.fault k).releasePending = false → s.listenersElectronic →
      ∃ t : State, Machine.exec cmd s = .next t ∧ t.fault k = (u.started k).fault k ∧ t.relays = (u.started k).relays ∧
        ∀ j, (s.fault j).state = .armed → (s.fault j).trigger = .onFault k .start → t.fault j = s.activeNow j) := by
  have hfault (j : Fin 64) : u.fault j = s.fault j := by rw [hu]; rfl
  have hrun : u.run = s.run := by rw [hu]; rfl
  have hlisteners : u.listeners k .start = s.listeners k .start := by rw [hu]; rfl
  have hnow (j : Fin 64) : u.activeNow j = s.activeNow j := by rw [hu]; rfl
  have hnone := started_noPass (k := k) hpass hu
  have hidle : (u.fault k).state ≠ .armed := by rw [hfault, ha]; nofun
  have hexec : Machine.exec cmd s = .next (u.startComplete k).settle := by
    rw [h.exec, ← hu, seqAdvance_last (q := ⟨false, i⟩) (by rw [hfault]; exact hl) (by rw [hfault]; exact hover) hdone]
    rfl
  rw [startComplete_of_relay (by rw [hfault]; exact he), hfault] at hexec
  refine ⟨fun hempty => ⟨fun hrelease => ?_, fun hrelease => ?_⟩, fun hm hrelease hs => ?_⟩
  · have hproduce := produce_of_no_listener (s := u.started k) (k := k) (e := .start)
      (by rw [started_listeners hidle, hlisteners, hempty])
    rw [hexec, hrelease, if_neg (by decide), hproduce, settle_of_no_pass hnone]
  · have hproduce := produce_of_no_listener (s := u.started k) (k := k) (e := .start)
      (by rw [started_listeners hidle, hlisteners, hempty])
    rw [hexec, hrelease, if_pos rfl, hproduce]
  · rw [hrelease, if_neg (by decide)] at hexec
    obtain ⟨hfired, hchain⟩ := started_chain (s := u) (k := k) (by rw [hrun]; exact hm) hidle fun j i x hj ht => by
      rw [hfault] at hj ht ⊢
      exact hs j i x hj ht
    have hself := produce_fault_of_not_armed (s := u.started k) (k := k) (e := .start) (j := k)
      (by rw [started_fault_self]; nofun)
    generalize (u.started k).produce k .start = z at hexec hfired hchain hself
    have hrest := hfired.rest
    refine ⟨z, ?_, hself, by rw [hrest], fun j hj ht => ?_⟩
    · rw [hexec, settle_of_no_pass (by rw [hrest]; exact hnone)]
    · rw [hchain j (by rw [hfault]; exact hj) (by rw [hfault]; exact ht), hnow]

end Sys2Proof.Machine
end

section
/-! Starts that end, by the kind of the record, and O29. -/

namespace Sys2Proof.Machine

variable {s t u v w : State} {j k : Fin 64} {c d p : Fin 24} {n r : RelayName} {pos back : Position} {e : Event} {cmd : Instr}
  {failed b : Bool} {x : RelaySet} {q : Sequence} {l : List Wish} {i : Nat}

theorem settle_of_moving {y : Relay} (h : y.state = pos.moving) : y.settle false = { state := pos.rest } := by
  rw [Relay.settle, h]
  cases pos <;> rfl

/-- The relay that the start of a record on one channel ends with (R54). -/
def startsWith (f : FaultRecord) (n : RelayName) (pos back : Position) (i : Nat) : Prop :=
  f.kind = .openWire ∧ n = .path ∧ pos = .opened ∧ back = .closed ∧ i = 0 ∨
    f.kind = .shortGnd ∧ n = .gnd ∧ pos = .closed ∧ back = .opened ∧ i = 1 ∨
    f.kind = .shortBat ∧ n = .bat ∧ pos = .closed ∧ back = .opened ∧ i = 1

theorem startsWith.relay {f : FaultRecord} (h : startsWith f n pos back i) : f.kind.electronic = false := by
  rcases h with ⟨hk, -⟩ | ⟨hk, -⟩ | ⟨hk, -⟩ <;> rw [hk] <;> rfl

theorem startsWith.steps {f : FaultRecord} (h : startsWith f n pos back i) :
    (startSteps f).getD i [] = [(f.target, n, pos)] ∧ (startSteps f).drop (i + 1) = [] := by
  rcases h with ⟨hk, rfl, rfl, rfl, rfl⟩ | ⟨hk, rfl, rfl, rfl, rfl⟩ | ⟨hk, rfl, rfl, rfl, rfl⟩ <;> simp [startSteps, hk]

theorem startsWith.back_rest {f : FaultRecord} (h : startsWith f n pos back i) : pos.rest ≠ back.rest := by
  rcases h with ⟨-, -, rfl, rfl, -⟩ | ⟨-, -, rfl, rfl, -⟩ | ⟨-, -, rfl, rfl, -⟩ <;> decide

theorem startsWith.stops {f : FaultRecord} (h : startsWith f n pos back i) :
    f.kind = .openWire ∧ n = .path ∧ back = .closed ∨ f.kind = .shortGnd ∧ n = .gnd ∧ back = .opened ∨
      f.kind = .shortBat ∧ n = .bat ∧ back = .opened := by
  rcases h with ⟨hk, rfl, -, rfl, -⟩ | ⟨hk, rfl, -, rfl, -⟩ | ⟨hk, rfl, -, rfl, -⟩
  · exact .inl ⟨hk, rfl, rfl⟩
  · exact .inr (.inl ⟨hk, rfl, rfl⟩)
  · exact .inr (.inr ⟨hk, rfl, rfl⟩)

theorem startedRecord_kind (f : FaultRecord) : (s.startedRecord f).kind = f.kind := rfl

/-- A release that is pending on one channel is taken up at once (R99, R100). -/
theorem started_beginStop (h : startsWith (s.fault k) n pos back i) (hc : (s.fault k).target = c)
    (hrelay : (s.relaySet c).relays.get n = { state := pos.rest }) :
    (s.started k).beginStop k = ((s.started k).updRelaySet c fun x =>
      { x with relays := x.relays.upd n fun _ => s.timing.commands back }).updFault k fun f =>
        { f with state := .stopping, seq := some ⟨true, 0⟩ } := by
  have htarget : ((s.started k).fault k).target = c := by rw [started_fault_self]; exact hc
  have hopen : (s.started k).open (c, n, back) := by
    have hat : (s.started k).relay (c, n, back) = { state := pos.rest } := by
      rw [State.relay, started_relaySet]
      exact hrelay
    rw [State.open, hat]
    exact ⟨by cases pos <;> rfl, .inl h.back_rest⟩
  rw [beginStop_single (by rw [started_fault_self]; exact h.stops) (by rw [htarget]; exact hopen), htarget, started_timing]

/-- Both relays of a PIN_SHORT record are commanded open where a release is pending (R99, R100). -/
theorem started_beginStop_pair {b : Bus} (hne : c ≠ p) (hk : (s.fault k).kind = .pinShort) (hc : (s.fault k).target = c)
    (hp : (s.fault k).partner = some p) (hb : (s.fault k).bus = some b)
    (hrelays : ∀ d, d = p ∨ d = c → (s.relaySet d).relays.get b.relay = { state := .closed }) :
    (s.started k).beginStop k = (((s.started k).updRelaySet c fun x =>
      { x with relays := x.relays.upd b.relay fun _ => s.timing.commands .opened }).updRelaySet p fun x =>
        { x with relays := x.relays.upd b.relay fun _ => s.timing.commands .opened }).updFault k fun f =>
          { f with state := .stopping, seq := some ⟨true, 0⟩ } := by
  have htarget : ((s.started k).fault k).target = c := by rw [started_fault_self]; exact hc
  have hclosed (d : Fin 24) (hd : d = p ∨ d = c) :
      ((s.started k).relaySet d).relays.get b.relay = { state := .closed } := by
    rw [started_relaySet]
    exact hrelays d hd
  have hstop := beginStop_pair (s := s.started k) (k := k) (p := p) (b := b) (by rw [started_fault_self]; exact hk)
    (by rw [started_fault_self]; exact hp) (by rw [started_fault_self]; exact hb) (by rw [htarget]; exact Ne.symm hne)
    (by rw [htarget]; exact hclosed)
  rw [hstop, htarget, runStep_pair_open hne (open_of_closed (hclosed c (.inr rfl))) (open_of_closed (hclosed p (.inl rfl))),
    updRelaySet_comm (Ne.symm hne), started_timing]

/-- The last movement of a start on one channel (R54, R70, R94, R99). -/
theorem startEnds_single (h : SequenceLands s c n false cmd e k ⟨false, i⟩) (hpass : s.noPassAfter e)
    (hc : (s.fault k).target = c) (ha : (s.fault k).state = .starting) (hkind : startsWith (s.fault k) n pos back i)
    (hm : ((s.relaySet c).relays.get n).state = pos.moving)
    (hv : v = ((s.took e).updRelaySet c fun x => { x with relays := x.relays.upd n fun _ => { state := pos.rest } }).started k) :
    (s.listeners k .start = [] →
      ((s.fault k).releasePending = false → exec cmd s = .next v) ∧
      ((s.fault k).releasePending = true → exec cmd s = .next ((v.updRelaySet c fun x =>
        { x with relays := x.relays.upd n fun _ => s.timing.commands back }).updFault k fun f =>
          { f with state := .stopping, seq := some ⟨true, 0⟩ }))) ∧
    (s.run.mode = .run → (s.fault k).releasePending = false → s.listenersElectronic →
      ∃ t : State, exec cmd s = .next t ∧ t.fault k = v.fault k ∧ t.relays = v.relays ∧
        ∀ j, (s.fault j).state = .armed → (s.fault j).trigger = .onFault k .start → t.fault j = s.activeNow j) := by
  have hlanded := landed_eq (s := s.took e) (settle_of_moving hm)
  rw [← hlanded] at hv
  obtain ⟨hlast, hover⟩ := hkind.steps
  rw [hc] at hlast
  obtain ⟨hquiet, hheard⟩ := h.starts hpass ha hkind.relay hlast hover rfl landed_done
  have hnone := started_noPass (k := k) hpass (rfl : (s.took e).landed c n false = _)
  have hrelay : (((s.took e).landed c n false).relaySet c).relays.get n = { state := pos.rest } := by
    rw [landed_get, if_pos rfl]
    exact settle_of_moving hm
  have hstop := started_beginStop (s := (s.took e).landed c n false) (k := k) hkind hc hrelay
  rw [← hv] at hstop hquiet hheard hnone
  refine ⟨fun hempty => ⟨(hquiet hempty).1, fun hrelease => ?_⟩, hheard⟩
  rw [(hquiet hempty).2 hrelease, hstop]
  exact congrArg Host.Outcome.next (settle_of_no_pass hnone)

/-- The last movement of the start of a PIN_SHORT record (R54, R70, R94, R99). -/
theorem startEnds_pair {d' : Fin 24} {b : Bus} (h : SequenceLands s d b.relay false cmd e k ⟨false, 1⟩)
    (hpass : s.noPassAfter e) (hne : c ≠ p) (hd : d = c ∧ d' = p ∨ d = p ∧ d' = c) (hk : (s.fault k).kind = .pinShort)
    (hc : (s.fault k).target = c) (hp : (s.fault k).partner = some p) (hb : (s.fault k).bus = some b)
    (ha : (s.fault k).state = .starting) (hm : ((s.relaySet d).relays.get b.relay).state = .movingClosed)
    (hother : (s.relaySet d').relays.get b.relay = { state := .closed }) (hempty : s.listeners k .start = [])
    (hv : v = ((s.took e).updRelaySet d fun x =>
      { x with relays := x.relays.upd b.relay fun _ => { state := .closed } }).started k) :
    ((s.fault k).releasePending = false → exec cmd s = .next v) ∧
    ((s.fault k).releasePending = true → exec cmd s = .next (((v.updRelaySet c fun x =>
      { x with relays := x.relays.upd b.relay fun _ => s.timing.commands .opened }).updRelaySet p fun x =>
        { x with relays := x.relays.upd b.relay fun _ => s.timing.commands .opened }).updFault k fun f =>
          { f with state := .stopping, seq := some ⟨true, 0⟩ })) := by
  have hdd : d' ≠ d := by rcases hd with ⟨rfl, rfl⟩ | ⟨rfl, rfl⟩; exacts [Ne.symm hne, hne]
  have hlanded := landed_eq (s := s.took e) (settle_movingClosed hm false)
  rw [← hlanded] at hv
  have hsteps := startSteps_pinShort hk hp hb
  rw [hc] at hsteps
  have hdone : ((s.took e).landed d b.relay false).stepDone [(c, b.relay, .closed), (p, b.relay, .closed)] := by
    refine landed_done_pair (s := s.took e) (pos := .closed) hdd (congrArg (fun y : Relay => y.state.moving) hother)
      (congrArg Relay.failed hother) fun w hw => ?_
    rcases hd with ⟨rfl, rfl⟩ | ⟨rfl, rfl⟩ <;> simpa [or_comm] using hw
  have hclosed (m : Fin 24) (hm' : m = p ∨ m = c) :
      (((s.took e).landed d b.relay false).relaySet m).relays.get b.relay = { state := .closed } := by
    have hcase : m = d ∨ m = d' := by
      rcases hd with ⟨rfl, rfl⟩ | ⟨rfl, rfl⟩
      · exact hm'.symm
      · exact hm'
    rcases hcase with rfl | rfl
    · rw [landed_get, if_pos rfl]
      exact settle_movingClosed hm false
    · rw [landed_ne (Ne.symm hdd)]
      exact hother
  obtain ⟨hquiet, -⟩ := h.starts hpass ha (by rw [hk]; rfl) (by rw [hsteps]; rfl) (by rw [hsteps]; rfl) rfl hdone
  have hnone := started_noPass (k := k) hpass (rfl : (s.took e).landed d b.relay false = _)
  have hstop := started_beginStop_pair (s := (s.took e).landed d b.relay false) (k := k) hne hk hc hp hb hclosed
  rw [← hv] at hstop hquiet hnone
  refine ⟨(hquiet hempty).1, fun hrelease => ?_⟩
  rw [(hquiet hempty).2 hrelease, hstop]
  exact congrArg Host.Outcome.next (settle_of_no_pass hnone)

/-- PATH of an OPEN_WIRE record does not open: the record is FAILED, and its channel normalises by PATH (R55, R57, R102). -/
theorem openWire_fails (h : SequenceLands s c .path true cmd e k ⟨false, 0⟩) (hpass : s.noPassAfter e)
    (hone : ∀ d, d ≠ c → (s.relaySet d).holder ≠ some k) (hk : (s.fault k).kind = .openWire) (hc : (s.fault k).target = c)
    (hm : (s.relaySet c).relays.path.state = .movingOpen)
    (hrest : ∀ r, r ≠ .path → (s.relaySet c).relays.get r = { state := .opened }) :
    exec cmd s = .next (((s.took e).updRelaySet c fun x => { x with
      normalising := some .joining
      relays := { x.relays with path := s.timing.commands .closed } }).enterFailed k .relayTimeout) := by
  have hstep (d : Fin 24) (m : RelayName) : inStep (s.fault k) ⟨false, 0⟩ d m ↔ d = c ∧ m = .path := by
    rw [inStep, hk, hc]
    simp
  have hpath : (((s.took e).landed c .path true).relaySet c).relays.get .path = { state := .opened, failed := true } := by
    rw [landed_get, if_pos rfl]
    exact settle_movingOpen hm true
  obtain ⟨hexec, honly, hset⟩ := (h.waits_or_fails hpass rfl).2 (fun d m hin => by
      obtain ⟨rfl, rfl⟩ := (hstep d m).1 hin
      rw [hpath]
      exact ⟨h.held, rfl⟩)
    ⟨c, .path, (hstep c .path).2 ⟨rfl, rfl⟩, by rw [hpath]⟩
  have hrelays : (((s.took e).landed c .path true).relaySet c).relays = ⟨{ state := .opened, failed := true },
      { state := .opened }, { state := .opened }, { state := .opened }, { state := .opened }⟩ := by
    refine perRelay_ext fun m => ?_
    cases m with
    | path => exact hpath
    | gnd => exact ((landed_get .gnd).trans (if_neg (by decide))).trans (hrest .gnd (by decide))
    | bat => exact ((landed_get .bat).trans (if_neg (by decide))).trans (hrest .bat (by decide))
    | x0 => exact ((landed_get .x0).trans (if_neg (by decide))).trans (hrest .x0 (by decide))
    | x1 => exact ((landed_get .x1).trans (if_neg (by decide))).trans (hrest .x1 (by decide))
  rw [hexec]
  generalize ((s.took e).landed c .path true).sequenceFailed k = z at honly hset
  refine congrArg Host.Outcome.next (honly.trans ?_)
  have hall : z.relays = ((s.took e).updRelaySet c fun x => { x with
      normalising := some .joining
      relays := { x.relays with path := s.timing.commands .closed } }).relays := by
    refine vector_ext_get fun d => ?_
    show z.relaySet d = ((s.took e).updRelaySet c _).relaySet d
    rw [hset d, State.updRelaySet_relaySet]
    by_cases hd : c = d
    · subst hd
      rw [if_pos h.held, if_pos rfl, normalised_of_path hrelays, landed_self]
      rfl
    · rw [if_neg (hone d (Ne.symm hd)), if_neg hd, landed_ne hd]
  rw [hall]
  rfl

/-- Settles O29, clause by clause: the times of a movement, the normalisations, the steps of a sequence by the kind of its
record, its ends, and its failure. -/
theorem movementsEnd : Obligations.MovementsEnd := by
  refine ⟨fun y made m settle timeout h hm => ⟨completes_iff h hm, fails_iff h hm⟩,
    fun s c r failed cmd e y hy hland hdue => ?_,
    fun s c k hpass hcalm hheld hc hseq hdue hcomplete hm => ⟨fun hk hn => ?_, fun hk hn => ?_⟩,
    fun s c p k b hne hk hc hp hb hcalmC hcalmP hheldC hheldP =>
      ⟨fun hseq hdue hpass hcomplete hm hcb hpb => ?_, fun hseq hdue hpass hcomplete hm => ?_⟩,
    fun s c k n hpass hcalm hheld hc hkind hseq hdue hcomplete hm hpath => ?_,
    fun s c k i hcalm hheld ha hseq hkind hdue hm hcomplete hl => ?_,
    fun s c k n pos back i hpass hcalm hheld hc ha hseq hkind hdue hcomplete hm => ?_,
    fun s c p d d' k b hpass hne hd hk hc hp hb hcalm hheld hseq hdue hcomplete hm hother hpath => ?_,
    fun s c p d d' k b hpass hne hd hk hc hp hb hcalm hheld ha hseq hdue hcomplete hm hother hl => ?_,
    fun s c n k q cmd e bad hpass hcalm hheld hseq hin hland hdue => ?_,
    fun s c k hpass hcalm hheld hone hk hc hseq hdue hfails hm hrest => ?_⟩
  · subst hy
    obtain ⟨hends, hgoes⟩ := lands_normalising (s := s) (c := c) (r := r) (failed := failed) hland hdue
    refine ⟨_, rfl, fun bad hbad => ?_, hgoes⟩
    obtain ⟨t, hexec, hleaves⟩ := hends bad hbad
    exact ⟨_, t, rfl, hexec, hleaves⟩
  · exact startsSecond ⟨lands_complete (n := .path) hcomplete, hdue, hcalm, hheld, hseq⟩ hpass hc (.inl ⟨hk, rfl⟩) hn hm
  · exact startsSecond ⟨lands_complete (n := .path) hcomplete, hdue, hcalm, hheld, hseq⟩ hpass hc (.inr ⟨hk, rfl⟩) hn hm
  · exact startsPair ⟨lands_complete (n := .path) hcomplete, hdue, hcalmP, hheldP, hseq⟩ hpass hne hk hc hp hb hm hcb hpb
  · rcases hseq with hseq | hseq
    · exact pairWaits ⟨lands_complete hcomplete, hdue, hcalmC, hheldC, hseq⟩ hpass (.inl rfl) hne hk hp hb hm
    · exact pairWaits ⟨lands_complete hcomplete, hdue, hcalmC, hheldC, hseq⟩ hpass (.inr rfl) hne hk hp hb hm
  · exact stopsSecond ⟨lands_complete hcomplete, hdue, hcalm, hheld, hseq⟩ hpass hc hkind hm hpath
  · have hu := landed_eq (s := s.took (.moveComplete c .path)) (n := .path) (settle_movingClosed hm false)
    obtain ⟨v, r, t, hv, hexec, hgo, hleaves, hself, hchain, hquiet⟩ :=
      stopEnds ⟨lands_complete (n := .path) hcomplete, hdue, hcalm, hheld, hseq⟩ ha hkind hl hu.symm
    exact ⟨_, v, r, t, rfl, hv, hexec, hgo, hleaves, hself, hchain, hquiet⟩
  · exact ⟨_, rfl, startEnds_single ⟨lands_complete hcomplete, hdue, hcalm, hheld, hseq⟩ hpass hc ha hkind hm rfl⟩
  · exact stopsPair ⟨lands_complete hcomplete, hdue, hcalm, hheld, hseq⟩ hpass hne hd hk hc hp hb hm hother hpath
  · exact ⟨_, rfl, startEnds_pair ⟨lands_complete hcomplete, hdue, hcalm, hheld, hseq⟩ hpass hne hd hk hc hp hb ha hm hother
      hl rfl⟩
  · obtain ⟨hwaits, hends⟩ := SequenceLands.waits_or_fails (n := n) (failed := bad) ⟨hland, hdue, hcalm, hheld, hseq⟩ hpass rfl
    refine ⟨_, rfl, hwaits, fun hall hfailed => ?_⟩
    obtain ⟨hexec, honly, hset⟩ := hends hall hfailed
    refine ⟨_, hexec, honly, fun d => ⟨fun hd => ?_, fun hd => ?_⟩⟩
    · rw [hset, if_pos hd]
      exact normalised_begins _ _
    · rw [hset, if_neg hd]
      rfl
  · exact openWire_fails ⟨.inr ⟨rfl, rfl, rfl, hfails⟩, hdue, hcalm, hheld, hseq⟩ hpass hone hk hc hm hrest

end Sys2Proof.Machine
end

section
/-! Where the steps of a record's sequences leave the relays (R54, R56). -/

namespace Sys2Proof.Machine

variable {s t u v w : State} {j k : Fin 64} {c d p : Fin 24} {n m r : RelayName} {pos : Position} {x : RelaySet}
  {q : Sequence} {l l' : List Wish} {i : Nat} {f g : FaultRecord}

/-! ## The position that steps give a relay -/

/-- A list of wishes names relay `n` of channel `c`. -/
def wishNames (l : List Wish) (c : Fin 24) (n : RelayName) : Bool := l.any fun w => w.1 == c && w.2.1 == n

theorem wishNames_iff : wishNames l c n = true ↔ ∃ pos, (c, n, pos) ∈ l := by
  simp only [wishNames, List.any_eq_true, Bool.and_eq_true, beq_iff_eq]
  constructor
  · rintro ⟨⟨c', n', pos⟩, hw, rfl, rfl⟩
    exact ⟨pos, hw⟩
  · rintro ⟨pos, hw⟩
    exact ⟨_, hw, rfl, rfl⟩

theorem filter_of_not_named (h : wishNames l c n = false) : (l.filter fun w => w.1 == c && w.2.1 == n) = [] := by
  rw [List.filter_eq_nil_iff]
  exact fun w hw => by simpa using List.any_eq_false.1 h w hw

theorem plannedPosition_unnamed (h : wishNames l c n = false) : plannedPosition l c n = normalPosition n := by
  rw [plannedPosition, filter_of_not_named h]
  rfl

/-- The last step that names a relay gives its position. -/
theorem plannedPosition_append : plannedPosition (l ++ l') c n =
    if wishNames l' c n then plannedPosition l' c n else plannedPosition l c n := by
  cases h : wishNames l' c n with
  | false => rw [if_neg (by decide), plannedPosition, List.filter_append, filter_of_not_named h, List.append_nil,
      plannedPosition]
  | true =>
    have hne : (l'.filter fun w => w.1 == c && w.2.1 == n) ≠ [] := by
      rw [Ne, List.filter_eq_nil_iff]
      intro hall
      obtain ⟨pos, hw⟩ := wishNames_iff.1 h
      simpa using hall _ hw
    rw [if_pos rfl, plannedPosition, plannedPosition, List.filter_append, List.getLast?_append_of_ne_nil _ hne]

theorem eq_of_apart (hl : l.Pairwise apart) {v w : Wish} (hv : v ∈ l) (hw : w ∈ l) (hc : v.1 = w.1)
    (hn : v.2.1 = w.2.1) : v = w := by
  induction l with
  | nil => cases hv
  | cons y l ih =>
    obtain ⟨hy, hrest⟩ := List.pairwise_cons.1 hl
    rcases List.mem_cons.1 hv with rfl | hv' <;> rcases List.mem_cons.1 hw with rfl | hw'
    · rfl
    · exact absurd ⟨hc, hn⟩ (hy w hw')
    · exact absurd ⟨hc.symm, hn.symm⟩ (hy v hv')
    · exact ih hrest hv' hw'

/-- The position of a relay that a step names once. -/
theorem plannedPosition_of_mem (hl : l.Pairwise apart) (h : (c, n, pos) ∈ l) : plannedPosition l c n = pos := by
  unfold plannedPosition
  cases hlast : (l.filter fun w => w.1 == c && w.2.1 == n).getLast? with
  | none =>
    rw [List.getLast?_eq_none_iff, List.filter_eq_nil_iff] at hlast
    simpa using hlast _ h
  | some w =>
    obtain ⟨hw, hname⟩ := List.mem_filter.1 (List.mem_of_getLast? hlast)
    rw [Bool.and_eq_true, beq_iff_eq, beq_iff_eq] at hname
    rw [eq_of_apart hl hw h hname.1 hname.2]

/-! ## The steps of a record -/

/-- A record's kind and its partner agree, and its two channels differ. -/
def shaped (f : FaultRecord) : Prop := (f.kind = .pinShort ↔ f.partner.isSome = true) ∧ f.partner ≠ some f.target

/-- A harness relay that the kind of a record moves (R54). -/
def harness (f : FaultRecord) (n : RelayName) : Prop :=
  f.kind = .shortGnd ∧ n = .gnd ∨ f.kind = .shortBat ∧ n = .bat ∨
    f.kind = .pinShort ∧ ∃ b : Bus, f.bus = some b ∧ n = b.relay

theorem harness_unique (hn : harness f n) (hm : harness f m) : n = m := by
  rcases hn with ⟨hk, rfl⟩ | ⟨hk, rfl⟩ | ⟨hk, b, hb, rfl⟩ <;>
    rcases hm with ⟨hk', rfl⟩ | ⟨hk', rfl⟩ | ⟨hk', b', hb', rfl⟩ <;> simp_all

theorem mem_needs_iff : c ∈ needs f ↔ f.target = c ∨ f.partner = some c := by
  unfold needs
  cases f.partner with
  | none => simp [eq_comm]
  | some p => simp [eq_comm]

/-- A step names channels that its record needs, PATH or the relay of its kind. -/
theorem wish_of_steps {b : Bool} {w : Wish} (hl : l ∈ sequenceSteps f b) (hw : w ∈ l) :
    w.1 ∈ needs f ∧ (w.2.1 = .path ∨ harness f w.2.1) := by
  have hpath {d : Fin 24} {pos : Position} (hd : d ∈ needs f) (h : w = (d, .path, pos)) :
      w.1 ∈ needs f ∧ (w.2.1 = .path ∨ harness f w.2.1) := by
    subst h
    exact ⟨hd, .inl rfl⟩
  have hrelay {d : Fin 24} {n : RelayName} {pos : Position} (hd : d ∈ needs f) (hn : harness f n) (h : w = (d, n, pos)) :
      w.1 ∈ needs f ∧ (w.2.1 = .path ∨ harness f w.2.1) := by
    subst h
    exact ⟨hd, .inr hn⟩
  have htarget : f.target ∈ needs f := mem_needs_iff.2 (.inl rfl)
  unfold sequenceSteps at hl
  cases hk : f.kind with
  | openWire =>
    cases b <;> simp only [startSteps, stopSteps, hk, Bool.false_eq_true, if_false, if_true, List.mem_singleton] at hl <;>
      subst hl <;> exact hpath htarget (List.mem_singleton.1 hw)
  | shortGnd =>
    cases b <;> simp only [startSteps, stopSteps, hk, Bool.false_eq_true, if_false, if_true, List.mem_cons,
      List.not_mem_nil, or_false] at hl <;> rcases hl with rfl | rfl
    · exact hpath htarget (List.mem_singleton.1 hw)
    · exact hrelay htarget (.inl ⟨hk, rfl⟩) (List.mem_singleton.1 hw)
    · exact hrelay htarget (.inl ⟨hk, rfl⟩) (List.mem_singleton.1 hw)
    · exact hpath htarget (List.mem_singleton.1 hw)
  | shortBat =>
    cases b <;> simp only [startSteps, stopSteps, hk, Bool.false_eq_true, if_false, if_true, List.mem_cons,
      List.not_mem_nil, or_false] at hl <;> rcases hl with rfl | rfl
    · exact hpath htarget (List.mem_singleton.1 hw)
    · exact hrelay htarget (.inr (.inl ⟨hk, rfl⟩)) (List.mem_singleton.1 hw)
    · exact hrelay htarget (.inr (.inl ⟨hk, rfl⟩)) (List.mem_singleton.1 hw)
    · exact hpath htarget (List.mem_singleton.1 hw)
  | pinShort =>
    cases hp : f.partner with
    | none => cases b <;> simp [startSteps, stopSteps, hk, hp] at hl
    | some p =>
      cases hb : f.bus with
      | none => cases b <;> simp [startSteps, stopSteps, hk, hp, hb] at hl
      | some x =>
        have hpartner : p ∈ needs f := mem_needs_iff.2 (.inr hp)
        have hbus : harness f x.relay := .inr (.inr ⟨hk, x, hb, rfl⟩)
        cases b <;> simp only [startSteps, stopSteps, hk, hp, hb, Bool.false_eq_true, if_false, if_true, List.mem_cons,
          List.not_mem_nil, or_false] at hl <;> rcases hl with rfl | rfl
        · exact hpath hpartner (List.mem_singleton.1 hw)
        · rcases List.mem_cons.1 hw with h | h
          · exact hrelay htarget hbus h
          · exact hrelay hpartner hbus (List.mem_singleton.1 h)
        · rcases List.mem_cons.1 hw with h | h
          · exact hrelay htarget hbus h
          · exact hrelay hpartner hbus (List.mem_singleton.1 h)
        · exact hpath hpartner (List.mem_singleton.1 hw)
  | stuckAt | freeze | offset | gain | noise | missTooth | extraTooth =>
    cases b <;> simp [startSteps, stopSteps, hk] at hl

/-- The relays that a step names are different ones. -/
theorem steps_apart {b : Bool} (hs : shaped f) (hl : l ∈ sequenceSteps f b) : l.Pairwise apart := by
  unfold sequenceSteps startSteps stopSteps at hl
  cases hk : f.kind <;> rw [hk] at hl
  case pinShort =>
    cases hp : f.partner with
    | none => cases b <;> simp [hp] at hl
    | some p =>
      have hne : f.target ≠ p := fun h => hs.2 (by rw [hp, h])
      cases hb : f.bus with
      | none => cases b <;> simp [hp, hb] at hl
      | some x => cases b <;> simp [hp, hb] at hl <;> rcases hl with rfl | rfl <;> simp [apart, hne]
  all_goals cases b <;> simp at hl
  case openWire.false | openWire.true => subst hl; exact List.pairwise_singleton _ _
  all_goals rcases hl with rfl | rfl <;> exact List.pairwise_singleton _ _

theorem mem_of_stepNow {w : Wish} (h : w ∈ stepNow f) : ∃ b l, l ∈ sequenceSteps f b ∧ w ∈ l := by
  unfold stepNow at h
  cases hq : f.seq with
  | none => rw [hq] at h; cases h
  | some q =>
    rw [hq] at h
    dsimp only at h
    rw [List.getD_eq_getElem?_getD] at h
    cases hl : (sequenceSteps f q.stop)[q.step]? with
    | none => rw [hl] at h; cases h
    | some l =>
      rw [hl] at h
      exact ⟨q.stop, l, List.mem_of_getElem? hl, h⟩

theorem mem_of_stepsBehind {w : Wish} (h : w ∈ stepsBehind f) : ∃ b l, l ∈ sequenceSteps f b ∧ w ∈ l := by
  have hstart (h : w ∈ (startSteps f).flatten) : ∃ b l, l ∈ sequenceSteps f b ∧ w ∈ l := by
    obtain ⟨l, hl, hw⟩ := List.mem_flatten.1 h
    exact ⟨false, l, hl, hw⟩
  unfold stepsBehind at h
  cases hq : f.seq with
  | none =>
    rw [hq] at h
    exact hstart h
  | some q =>
    rw [hq] at h
    rcases List.mem_append.1 h with h | h
    · cases hb : q.stop with
      | false => simp [hb] at h
      | true =>
        rw [hb, if_pos rfl] at h
        exact hstart h
    · obtain ⟨l, hl, hw⟩ := List.mem_flatten.1 h
      exact ⟨q.stop, l, List.mem_of_mem_take hl, hw⟩

/-- A relay that no step of the record names is at rest where it normally is. -/
theorem onCourse_unnamed (h : s.onCourse c f) (hn : ∀ b l, l ∈ sequenceSteps f b → ∀ w ∈ l, ¬(w.1 = c ∧ w.2.1 = n)) :
    (s.relaySet c).relays.get n = atRest (normalPosition n) := by
  have hnow : wishNames (stepNow f) c n = false := by
    refine Bool.eq_false_iff.2 fun hw => ?_
    obtain ⟨pos, hmem⟩ := wishNames_iff.1 hw
    obtain ⟨b, l, hl, hin⟩ := mem_of_stepNow hmem
    exact hn b l hl _ hin ⟨rfl, rfl⟩
  have hbehind : wishNames (stepsBehind f) c n = false := by
    refine Bool.eq_false_iff.2 fun hw => ?_
    obtain ⟨pos, hmem⟩ := wishNames_iff.1 hw
    obtain ⟨b, l, hl, hin⟩ := mem_of_stepsBehind hmem
    exact hn b l hl _ hin ⟨rfl, rfl⟩
  have hat := h n
  have hnot : ¬((stepNow f).any fun w => w.1 == c && w.2.1 == n) = true := by
    rw [show (stepNow f).any (fun w => w.1 == c && w.2.1 == n) = wishNames (stepNow f) c n from rfl, hnow]
    decide
  rw [if_neg hnot, plannedPosition_unnamed hbehind] at hat
  exact hat

/-- A relay but PATH that is away from open is named by a step of its record (R54). -/
theorem named_of_onCourse (h : s.onCourse c f) (hn : n ≠ .path) (hat : (s.relaySet c).relays.get n ≠ atRest .opened) :
    ∃ b l w, l ∈ sequenceSteps f b ∧ w ∈ l ∧ w.1 = c ∧ w.2.1 = n := by
  by_contra hnot
  refine hat ?_
  have hrest := onCourse_unnamed (n := n) h fun b l hl w hw ⟨hc, hr⟩ => hnot ⟨b, l, w, hl, hw, hc, hr⟩
  rw [hrest, normalPosition, if_neg hn]

/-- Of the relays but PATH a record moves the one of its kind alone (R54, R56). -/
theorem harness_of_onCourse (h : s.onCourse c f) (hn : n ≠ .path) (hat : (s.relaySet c).relays.get n ≠ atRest .opened) :
    harness f n ∧ c ∈ needs f := by
  obtain ⟨b, l, w, hl, hw, rfl, rfl⟩ := named_of_onCourse h hn hat
  obtain ⟨hneed, hname⟩ := wish_of_steps hl hw
  exact ⟨hname.resolve_left hn, hneed⟩

/-- A record that joins its channel to GND or BAT has PATH open while that relay is away from open (R54, R56). -/
theorem path_of_steps (hstart : startSteps f = [[(c, .path, .opened)], [(c, n, .closed)]])
    (hstop : stopSteps f = [[(c, n, .opened)], [(c, .path, .closed)]]) (hn : n ≠ .path) (h : s.onCourse c f)
    (hat : (s.relaySet c).relays.get n ≠ atRest .opened) : (s.relaySet c).relays.path.state = .opened := by
  have hpath := h .path
  have hrelay := h n
  have hnp : ¬RelayName.path = n := Ne.symm hn
  have hopen (hp : (s.relaySet c).relays.get .path = atRest .opened) : (s.relaySet c).relays.path.state = .opened :=
    congrArg Relay.state hp
  unfold stepNow stepsBehind at hpath hrelay
  cases hq : f.seq with
  | none =>
    rw [hq] at hpath
    exact hopen (by simpa [hstart, plannedPosition, hn, hnp] using hpath)
  | some q =>
    obtain ⟨b, i⟩ := q
    rw [hq] at hpath hrelay
    cases b with
    | false =>
      rcases i with _ | _ | i
      · exact absurd (by simpa [sequenceSteps, hstart, plannedPosition, normalPosition, hn, hnp] using hrelay) hat
      · exact hopen (by simpa [sequenceSteps, hstart, plannedPosition, hn, hnp] using hpath)
      · exact hopen (by simpa [sequenceSteps, hstart, plannedPosition, hn, hnp] using hpath)
    | true =>
      rcases i with _ | _ | i
      · exact hopen (by simpa [sequenceSteps, hstart, hstop, plannedPosition, hn, hnp] using hpath)
      · exact absurd (by simpa [sequenceSteps, hstart, hstop, plannedPosition, hn, hnp] using hrelay) hat
      · exact absurd (by simpa [sequenceSteps, hstart, hstop, plannedPosition, hn, hnp] using hrelay) hat

/-- PATH is open while a relay to GND or BAT is away from open (R56). -/
theorem path_of_onCourse (h : s.onCourse c f) (hn : n = .gnd ∨ n = .bat)
    (hat : (s.relaySet c).relays.get n ≠ atRest .opened) : (s.relaySet c).relays.path.state = .opened := by
  have hpath : n ≠ .path := by rcases hn with rfl | rfl <;> decide
  obtain ⟨b, l, w, hl, hw, hc, hname⟩ := named_of_onCourse h hpath hat
  obtain ⟨hharness, -⟩ := harness_of_onCourse h hpath hat
  have hkind : f.kind = .shortGnd ∧ n = .gnd ∨ f.kind = .shortBat ∧ n = .bat := by
    rcases hharness with hk | hk | ⟨-, b, -, rfl⟩
    · exact .inl hk
    · exact .inr hk
    · cases b <;> simp [Bus.relay] at hn
  have hsteps : startSteps f = [[(f.target, .path, .opened)], [(f.target, n, .closed)]] ∧
      stopSteps f = [[(f.target, n, .opened)], [(f.target, .path, .closed)]] := by
    rcases hkind with ⟨hk, rfl⟩ | ⟨hk, rfl⟩ <;> exact ⟨by simp only [startSteps, hk], by simp only [stopSteps, hk]⟩
  obtain ⟨hstart, hstop⟩ := hsteps
  have htarget : f.target = c := by
    unfold sequenceSteps at hl
    rw [hstart, hstop] at hl
    cases b <;> simp at hl <;> rcases hl with rfl | rfl <;> simp at hw <;> rw [← hc, hw]
  rw [htarget] at hstart hstop
  exact path_of_steps hstart hstop hpath h hat

/-! ## Where a sequence leaves its channels -/

/-- Start and stop together bring every relay back to where it normally is (R54). -/
theorem planned_over (hs : shaped f) (c : Fin 24) (n : RelayName) :
    plannedPosition ((startSteps f).flatten ++ (stopSteps f).flatten) c n = normalPosition n := by
  cases hk : f.kind with
  | openWire =>
    by_cases hc : f.target = c <;> cases n <;> simp [startSteps, stopSteps, hk, plannedPosition, normalPosition, hc]
  | shortGnd =>
    by_cases hc : f.target = c <;> cases n <;> simp [startSteps, stopSteps, hk, plannedPosition, normalPosition, hc]
  | shortBat =>
    by_cases hc : f.target = c <;> cases n <;> simp [startSteps, stopSteps, hk, plannedPosition, normalPosition, hc]
  | pinShort =>
    cases hp : f.partner with
    | none => simp [startSteps, stopSteps, hk, hp, plannedPosition]
    | some p =>
      have hne : f.target ≠ p := fun h => hs.2 (by rw [hp, h])
      cases hb : f.bus with
      | none => simp [startSteps, stopSteps, hk, hp, hb, plannedPosition]
      | some b =>
        by_cases hc : f.target = c
        · have hpc : ¬p = c := fun h => hne (hc.trans h.symm)
          cases b <;> cases n <;> simp [startSteps, stopSteps, hk, hp, hb, plannedPosition, normalPosition, hc, hpc, Bus.relay]
        · by_cases hpc : p = c <;> cases b <;> cases n <;>
            simp [startSteps, stopSteps, hk, hp, hb, plannedPosition, normalPosition, hc, hpc, Bus.relay]
  | stuckAt | freeze | offset | gain | noise | missTooth | extraTooth => simp [startSteps, stopSteps, hk, plannedPosition]

end Sys2Proof.Machine
end

section
/-! What the Relay Matrix holds, channel by channel and record by record, with one record at most in passage (R53 to R58). -/

namespace Sys2Proof

/-- At most one relay but PATH is away from open, and PATH is open where it is GND or BAT (R56). -/
def RelaySet.guarded (x : RelaySet) : Prop :=
  (∀ r r', r ≠ .path → r' ≠ .path → r ≠ r' →
    x.relays.get r = Machine.atRest .opened ∨ x.relays.get r' = Machine.atRest .opened) ∧
  ∀ r, r = .gnd ∨ r = .bat → x.relays.get r ≠ Machine.atRest .opened → x.relays.path.state = .opened

/-- The relays of a channel carry a movement where they move, and are not in doubt there (R48). -/
def RelaySet.coherent (x : RelaySet) : Prop :=
  ∀ n, (x.relays.get n).movement.isSome = (x.relays.get n).state.moving ∧
    ((x.relays.get n).state.moving = true → (x.relays.get n).failed = false)

/-- A channel that no record carries through a sequence: it has its normal set, is out of service, or normalises. -/
structure RelaySet.Settled (x : RelaySet) : Prop where
  guarded : x.guarded
  normal : x.normalising = none → x.inService = true → Machine.normalSet x
  still : x.normalising = none → x.inService = false → x.anyMoving = false
  breaking : x.normalising = some .breaking → x.relays.path.state.moving = false
  joining : x.normalising = some .joining → x.relays.path.state.position = .closed ∧
    ∀ n, n ≠ .path → x.relays.get n = Machine.atRest .opened
  opened : x.normalising ≠ none ∨ x.inService = false → ∀ n, n ≠ .path → (x.relays.get n).state.position = .opened

/-- What the Relay Matrix reads of a record. -/
def FaultRecord.role (f : FaultRecord) : FaultRecord :=
  { state := f.state, kind := f.kind, target := f.target, partner := f.partner, bus := f.bus, seq := f.seq }

end Sys2Proof

namespace Sys2Proof.Machine

variable {s t u v w : State} {j k : Fin 64} {c d p : Fin 24} {n m r : RelayName} {pos : Position} {x : RelaySet}
  {q : Sequence} {l l' : List Wish} {i : Nat} {f g : FaultRecord} {o : Option (Fin 64)}

/-- A record in passage is a relay record, and one in a sequence is at one of its steps. -/
structure InOrder (f : FaultRecord) : Prop where
  relay : f.state = .waiting ∨ f.state = .starting ∨ f.state = .stopping → f.kind.electronic = false
  starting : f.state = .starting → ∃ i, f.seq = some ⟨false, i⟩ ∧ i < (startSteps f).length
  stopping : f.state = .stopping → ∃ i, f.seq = some ⟨true, i⟩ ∧ i < (stopSteps f).length

/-- A channel on the course of its record. -/
structure State.Carried (s : State) (c : Fin 24) (f : FaultRecord) : Prop where
  calm : (s.relaySet c).normalising = none
  service : (s.relaySet c).inService = true
  course : s.onCourse c f

/-- A travelling record holds its channels, and a PIN_SHORT one its cross bus. -/
def State.holds (s : State) (k : Fin 64) : Prop :=
  (∀ c ∈ needs (s.fault k), (s.relaySet c).holder = some k) ∧
    ((s.fault k).kind = .pinShort → ∃ b, (s.fault k).bus = some b ∧ s.buses.get b = some k)

/-- What a channel held by record `k` is like: on the record's course, or settled where the record is FAILED. -/
def State.heldWell (s : State) (c : Fin 24) (k : Fin 64) : Prop :=
  travels (s.fault k) ∧ s.Carried c (s.fault k) ∨
    (s.fault k).state = .failed ∧ (s.relaySet c).Settled ∧
      ∃ d, (s.relaySet d).holder = some k ∧ (s.relaySet d).normalising.isSome = true

/-- What every step keeps of the Relay Matrix, where record `o` is in between. -/
structure Matrix (o : Option (Fin 64)) (s : State) : Prop where
  coherent : ∀ c, (s.relaySet c).coherent
  named : ∀ c k, (s.relaySet c).holder = some k → (s.fault k).target = c ∨ (s.fault k).partner = some c
  held : ∀ c k, (s.relaySet c).holder = some k → o ≠ some k → s.heldWell c k
  free : ∀ c, (s.relaySet c).holder = none → (s.relaySet c).Settled
  recovers : ∀ c, (s.relaySet c).holder = none → (s.relaySet c).normalising.isSome = true → (s.relaySet c).inService = false
  buses : ∀ b k, s.buses.get b = some k → (s.fault k).kind = .pinShort ∧ (s.fault k).bus = some b ∧
    ∃ c, (s.relaySet c).holder = some k
  shaped : ∀ k, shaped (s.fault k)
  ordered : ∀ k, o ≠ some k → InOrder (s.fault k)
  holds : ∀ k, o ≠ some k → travels (s.fault k) → s.holds k

theorem not_travels_of_failed (h : f.state = .failed) : ¬travels f := by
  rintro ⟨-, hs | hs | hs⟩ <;> rw [h] at hs <;> cases hs

theorem guarded_of_onCourse (h : s.onCourse c f) : (s.relaySet c).guarded := by
  refine ⟨fun r r' hr hr' hne => ?_, fun r hr hat => path_of_onCourse h hr hat⟩
  by_contra hnot
  obtain ⟨h1, h2⟩ := not_or.1 hnot
  exact hne (harness_unique (harness_of_onCourse h hr h1).1 (harness_of_onCourse h hr' h2).1)

/-- A relay of a cross bus that is not open is away from rest there. -/
theorem not_atRest_of_closed {y : Relay} (h : y.state.position = .closed) : y ≠ atRest .opened := by
  rintro rfl
  cases h

theorem Matrix.guarded (h : Matrix none s) (c : Fin 24) : (s.relaySet c).guarded := by
  cases hk : (s.relaySet c).holder with
  | none => exact (h.free c hk).guarded
  | some k =>
    rcases h.held c k hk nofun with ⟨-, hc⟩ | ⟨-, hs, -⟩
    · exact guarded_of_onCourse hc.course
    · exact hs.guarded

/-- A settled channel has the relays of the cross buses open. -/
theorem settled_bus_opened (h : x.Settled) (b : Bus) : (x.relays.get b.relay).state.position = .opened := by
  have hb : b.relay ≠ .path := by cases b <;> decide
  by_cases hout : x.normalising ≠ none ∨ x.inService = false
  · exact h.opened hout _ hb
  · obtain ⟨hn, hs⟩ := not_or.1 hout
    rw [h.normal (not_not.1 hn) (Bool.not_eq_false _ ▸ hs) b.relay, normalPosition, if_neg hb]
    rfl

/-- A channel whose bus relay is closed is one of the two of the record that holds the bus (R53). -/
theorem Matrix.bus_holder (h : Matrix none s) {b : Bus} (hb : ((s.relaySet c).relays.get b.relay).state.position = .closed) :
    ∃ k, s.buses.get b = some k ∧ ((s.fault k).target = c ∨ (s.fault k).partner = some c) := by
  have hsettled (hs : (s.relaySet c).Settled) : False := by
    rw [settled_bus_opened hs b] at hb
    cases hb
  cases hk : (s.relaySet c).holder with
  | none => exact (hsettled (h.free c hk)).elim
  | some k =>
    rcases h.held c k hk nofun with ⟨htravels, hc⟩ | ⟨-, hs, -⟩
    · obtain ⟨hharness, -⟩ := harness_of_onCourse hc.course (by cases b <;> decide) (not_atRest_of_closed hb)
      rcases hharness with ⟨-, hn⟩ | ⟨-, hn⟩ | ⟨hkind, b', hb', hn⟩
      · cases b <;> cases hn
      · cases b <;> cases hn
      · obtain ⟨b'', hbus, hheld⟩ := (h.holds k nofun htravels).2 hkind
        have hsame : b = b'' := by
          rw [hb'] at hbus
          cases hbus
          cases b <;> cases b' <;> cases hn <;> rfl
        exact ⟨k, hsame ▸ hheld, h.named c k hk⟩
    · exact (hsettled hs).elim

/-- The law of the Relay Matrix, with no record in between. -/
theorem matrixLaw_iff : s.matrixLaw ↔ Matrix none s := by
  constructor
  · rintro ⟨⟨hholder, hbuses, -⟩, hbreak, hshape, hrelay, hstart, hstop, hholds, hcoherent, hcourse, hfailed, hnormal,
      hout, hstill, hbreaking, hjoining, hopened⟩
    have hsettled (c : Fin 24) (hset : (s.relaySet c).normalising = none → (s.relaySet c).inService = true →
        normalSet (s.relaySet c)) : (s.relaySet c).Settled := by
      refine ⟨⟨(hbreak c).1, (hbreak c).2.1⟩, hset, fun hn hs => hstill c hs hn, fun hn => (hbreaking c hn).1,
        hjoining c, fun hor n hn => ?_⟩
      rcases hor with hnorm | hs
      · obtain ⟨m, hm⟩ := Option.ne_none_iff_exists'.1 hnorm
        cases m with
        | breaking => exact (hbreaking c hm).2 n hn
        | joining => rw [(hjoining c hm).2 n hn]; rfl
      · exact hopened c hs n hn
    refine ⟨hcoherent, fun c k hk => (hholder c k hk).1, fun c k hk _ => ?_, fun c hk =>
      hsettled c fun hn hs => (hbreak c).2.2 hs hk hn, fun c hk => hout c hk, hbuses, hshape,
      fun k _ => ⟨hrelay k, hstart k, hstop k⟩, fun k _ => hholds k⟩
    rcases (hholder c k hk).2 with htravels | ⟨hstate, d, hd, hn⟩
    · have hcalm : (s.relaySet c).normalising = none := by
        by_contra hn
        exact not_travels_of_failed (hfailed c k hk (Option.isSome_iff_ne_none.2 hn)) htravels
      obtain ⟨hservice, hon⟩ := hcourse c k hk hcalm htravels
      exact .inl ⟨htravels, hcalm, hservice, hon⟩
    · exact .inr ⟨hstate, hsettled c fun hnone hs => hnormal c k hk hnone hstate hs, d, hd, hn⟩
  · intro h
    have hsettled {c : Fin 24} (hnot : ∀ k, (s.relaySet c).holder = some k → ¬travels (s.fault k)) :
        (s.relaySet c).Settled := by
      cases hk : (s.relaySet c).holder with
      | none => exact h.free c hk
      | some k =>
        rcases h.held c k hk nofun with ⟨ht, -⟩ | ⟨-, hs, -⟩
        · exact absurd ht (hnot k hk)
        · exact hs
    have hidle {c : Fin 24} (hor : (s.relaySet c).normalising ≠ none ∨ (s.relaySet c).inService = false) :
        (s.relaySet c).Settled := by
      refine hsettled fun k hk ht => ?_
      rcases h.held c k hk nofun with ⟨-, hc⟩ | ⟨hf, -, -⟩
      · rcases hor with hn | hs
        · exact hn hc.calm
        · rw [hc.service] at hs
          cases hs
      · exact not_travels_of_failed hf ht
    refine ⟨⟨fun c k hk => ⟨h.named c k hk, ?_⟩, h.buses, fun c b hb => h.bus_holder hb⟩, fun c => ⟨(h.guarded c).1,
      (h.guarded c).2, fun hs hk hn => (h.free c hk).normal hn hs⟩, h.shaped, fun k => (h.ordered k nofun).relay,
      fun k => (h.ordered k nofun).starting, fun k => (h.ordered k nofun).stopping, fun k => h.holds k nofun, h.coherent,
      fun c k hk hn ht => ?_, fun c k hk hn => ?_, fun c k hk hn hf hs => ?_, h.recovers,
      fun c hs hn => (hidle (.inr hs)).still hn hs, fun c hn => ⟨(hidle (.inl ?_)).breaking hn, (hidle (.inl ?_)).opened (.inl ?_)⟩,
      fun c hn => (hidle (.inl ?_)).joining hn, fun c hs => (hidle (.inr hs)).opened (.inr hs)⟩
    · rcases h.held c k hk nofun with ⟨ht, -⟩ | ⟨hf, -, hd⟩
      · exact .inl ht
      · exact .inr ⟨hf, hd⟩
    · rcases h.held c k hk nofun with ⟨-, hc⟩ | ⟨hf, -, -⟩
      · exact ⟨hc.service, hc.course⟩
      · exact absurd ht (not_travels_of_failed hf)
    · rcases h.held c k hk nofun with ⟨-, hc⟩ | ⟨hf, -, -⟩
      · rw [hc.calm] at hn
        cases hn
      · exact hf
    · rcases h.held c k hk nofun with ⟨ht, -⟩ | ⟨-, hset, -⟩
      · exact absurd ht (not_travels_of_failed hf)
      · exact hset.normal hn hs
    all_goals rw [hn]; nofun

end Sys2Proof.Machine
end

section
/-! Changes that keep what the Relay Matrix holds (R53). -/

namespace Sys2Proof.Machine

variable {s t u v w : State} {j k : Fin 64} {c d p : Fin 24} {n m r : RelayName} {pos : Position} {x : RelaySet}
  {q : Sequence} {l l' : List Wish} {i : Nat} {f g : FaultRecord} {o : Option (Fin 64)}

/-! ## What is read of a record -/

theorem role_travels (h : f.role = g.role) : travels f ↔ travels g := by
  have hf : travels f ↔ travels f.role := Iff.rfl
  rw [hf, h]
  rfl

theorem role_state (h : f.role = g.role) : f.state = g.state := (congrArg FaultRecord.state h :)

theorem role_kind (h : f.role = g.role) : f.kind = g.kind := (congrArg FaultRecord.kind h :)

theorem role_target (h : f.role = g.role) : f.target = g.target := (congrArg FaultRecord.target h :)

theorem role_partner (h : f.role = g.role) : f.partner = g.partner := (congrArg FaultRecord.partner h :)

theorem role_bus (h : f.role = g.role) : f.bus = g.bus := (congrArg FaultRecord.bus h :)

theorem role_needs (h : f.role = g.role) : needs f = needs g := by
  have hf : needs f = needs f.role := rfl
  rw [hf, h]
  rfl

theorem role_shaped (h : f.role = g.role) : shaped f ↔ shaped g := by
  have hf : shaped f ↔ shaped f.role := Iff.rfl
  rw [hf, h]
  rfl

theorem role_inOrder (h : f.role = g.role) (hg : InOrder g) : InOrder f := by
  have hrole : InOrder g.role := ⟨hg.relay, hg.starting, hg.stopping⟩
  rw [← h] at hrole
  exact ⟨hrole.relay, hrole.starting, hrole.stopping⟩

theorem role_onCourse (h : f.role = g.role) : s.onCourse c f ↔ s.onCourse c g := by
  have hf : s.onCourse c f ↔ s.onCourse c f.role := Iff.rfl
  rw [hf, h]
  rfl

theorem onCourse_congr (h : t.relaySet c = s.relaySet c) : t.onCourse c f ↔ s.onCourse c f := by
  unfold State.onCourse
  rw [h]

/-- A record's channels are as they were where they and its role are. -/
theorem heldWell_congr (hf : (t.fault k).role = (s.fault k).role)
    (hset : ∀ d, (s.relaySet d).holder = some k → t.relaySet d = s.relaySet d) (hc : (s.relaySet c).holder = some k)
    (h : s.heldWell c k) : t.heldWell c k := by
  have heq := hset c hc
  rcases h with ⟨ht, hcar⟩ | ⟨hstate, hs, d, hd, hn⟩
  · refine .inl ⟨(role_travels hf).2 ht, by rw [heq]; exact hcar.calm, by rw [heq]; exact hcar.service, ?_⟩
    rw [onCourse_congr heq, role_onCourse hf]
    exact hcar.course
  · exact .inr ⟨(role_state hf).trans hstate, by rw [heq]; exact hs, d, by rw [hset d hd]; exact hd, by rw [hset d hd]; exact hn⟩

/-- A record holds what it held where its role and its holders stay. -/
theorem holds_congr (hf : (t.fault k).role = (s.fault k).role)
    (hset : ∀ d, (s.relaySet d).holder = some k → (t.relaySet d).holder = some k)
    (hb : ∀ b, s.buses.get b = some k → t.buses.get b = some k) (h : s.holds k) : t.holds k := by
  obtain ⟨hneeds, hbus⟩ := h
  unfold State.holds
  rw [role_needs hf, role_kind hf, role_bus hf]
  refine ⟨fun c hc => hset c (hneeds c hc), fun hk => ?_⟩
  obtain ⟨b, hkb, hheld⟩ := hbus hk
  exact ⟨b, hkb, hb b hheld⟩

/-! ## Records that hold nothing -/

/-- Record `k` holds no channel. -/
def State.holdsNothing (s : State) (k : Fin 64) : Prop := ∀ c, (s.relaySet c).holder ≠ some k

/-- A record at rest, or an electronic one (R53, R91). -/
structure Loose (f : FaultRecord) : Prop where
  shaped : shaped f
  rests : ¬travels f
  waits : f.state = .waiting → f.kind.electronic = false
  unsequenced : f.state ≠ .starting ∧ f.state ≠ .stopping

theorem Loose.inOrder (h : Loose f) : InOrder f := by
  obtain ⟨hstart, hstop⟩ := h.unsequenced
  exact ⟨fun hs => hs.elim h.waits fun hs => hs.elim (fun h' => absurd h' hstart) fun h' => absurd h' hstop,
    fun h' => absurd h' hstart, fun h' => absurd h' hstop⟩

/-- A record that does not travel and has not failed holds nothing. -/
theorem Matrix.holdsNothing (h : Matrix o s) (ho : o ≠ some k) (ht : ¬travels (s.fault k)) (hf : (s.fault k).state ≠ .failed) :
    s.holdsNothing k := by
  intro c hk
  rcases h.held c k hk ho with ⟨htravels, -⟩ | ⟨hfailed, -⟩
  · exact ht htravels
  · exact hf hfailed

/-- A change of records that keeps their roles, or befalls records that hold nothing. -/
theorem Matrix.ease (h : Matrix o s) (hrelays : t.relays = s.relays) (hbuses : t.buses = s.buses)
    (hf : ∀ j, (t.fault j).role = (s.fault j).role ∨ s.holdsNothing j ∧ Loose (t.fault j)) : Matrix o t := by
  have hset (c : Fin 24) : t.relaySet c = s.relaySet c := congrArg (fun y => y.get c) hrelays
  have hsame {c : Fin 24} {k : Fin 64} (hk : (s.relaySet c).holder = some k) : (t.fault k).role = (s.fault k).role :=
    (hf k).resolve_right fun hn => hn.1 c hk
  refine ⟨fun c => ?_, fun c k hk => ?_, fun c k hk ho => ?_, fun c hk => ?_, fun c hk => ?_, fun b k hb => ?_,
    fun k => ?_, fun k ho => ?_, fun k ho ht => ?_⟩
  · rw [hset]
    exact h.coherent c
  · rw [hset] at hk
    rw [role_target (hsame hk), role_partner (hsame hk)]
    exact h.named c k hk
  · rw [hset] at hk
    exact heldWell_congr (hsame hk) (fun d _ => hset d) hk (h.held c k hk ho)
  · rw [hset] at hk ⊢
    exact h.free c hk
  · rw [hset] at hk ⊢
    exact h.recovers c hk
  · rw [hbuses] at hb
    obtain ⟨hkind, hbus, c, hc⟩ := h.buses b k hb
    exact ⟨(role_kind (hsame hc)).trans hkind, (role_bus (hsame hc)).trans hbus, c, by rw [hset]; exact hc⟩
  · rcases hf k with hrole | ⟨-, hloose⟩
    · exact (role_shaped hrole).2 (h.shaped k)
    · exact hloose.shaped
  · rcases hf k with hrole | ⟨-, hloose⟩
    · exact role_inOrder hrole (h.ordered k ho)
    · exact hloose.inOrder
  · rcases hf k with hrole | ⟨-, hloose⟩
    · exact holds_congr hrole (fun d hd => by rw [hset]; exact hd) (fun b hb => by rw [hbuses]; exact hb)
        (h.holds k ho ((role_travels hrole).1 ht))
    · exact absurd ht hloose.rests

theorem Matrix.of_fields (h : Matrix o s) (hf : t.faults = s.faults) (hrelays : t.relays = s.relays)
    (hbuses : t.buses = s.buses) : Matrix o t :=
  h.ease hrelays hbuses fun j => .inl (congrArg FaultRecord.role (fault_of_faults hf j))

/-- One record changes, its role does not. -/
theorem Matrix.updFault (h : Matrix o s) {f : FaultRecord → FaultRecord} (hf : (f (s.fault k)).role = (s.fault k).role) :
    Matrix o (s.updFault k f) := by
  refine h.ease rfl rfl fun j => .inl ?_
  rw [updFault_fault]
  split
  next heq => rw [hf, heq]
  · rfl

/-- One record that holds nothing changes. -/
theorem Matrix.loosen (h : Matrix o s) {f : FaultRecord → FaultRecord} (hk : s.holdsNothing k) (hf : Loose (f (s.fault k))) :
    Matrix o (s.updFault k f) := by
  refine h.ease rfl rfl fun j => ?_
  rw [updFault_fault]
  split
  next heq => exact .inr ⟨heq ▸ hk, hf⟩
  · exact .inl rfl

theorem Matrix.raiseSet (h : Matrix o s) (l : PortSet) (a : Notice) : Matrix o (s.raiseSet l a) :=
  h.of_fields (by simp) (by simp) (by simp)

theorem Matrix.showFree (h : Matrix o s) (c : Fin 24) : Matrix o (s.showFree c) :=
  h.of_fields (by simp) (by simp) (by simp)

/-! ## A record in between -/

/-- What the matrix asks of a record and of the channels it holds. -/
structure State.Governs (s : State) (k : Fin 64) : Prop where
  ordered : InOrder (s.fault k)
  holds : travels (s.fault k) → s.holds k
  held : ∀ c, (s.relaySet c).holder = some k → s.heldWell c k

/-- A record leaves the matrix in between. -/
theorem Matrix.between (h : Matrix none s) : Matrix (some k) s where
  coherent := h.coherent
  named := h.named
  held c j hj _ := h.held c j hj nofun
  free := h.free
  recovers := h.recovers
  buses := h.buses
  shaped := h.shaped
  ordered j _ := h.ordered j nofun
  holds j _ := h.holds j nofun

/-- The record in between comes back in order. -/
theorem Matrix.reinstate (h : Matrix (some k) s) (hk : s.Governs k) : Matrix none s where
  coherent := h.coherent
  named := h.named
  held c j hj _ := by
    by_cases hjk : j = k
    · subst hjk
      exact hk.held c hj
    · exact h.held c j hj fun heq => hjk (Option.some.inj heq).symm
  free := h.free
  recovers := h.recovers
  buses := h.buses
  shaped := h.shaped
  ordered j _ := by
    by_cases hjk : j = k
    · subst hjk
      exact hk.ordered
    · exact h.ordered j fun heq => hjk (Option.some.inj heq).symm
  holds j _ := by
    by_cases hjk : j = k
    · subst hjk
      exact hk.holds
    · exact h.holds j fun heq => hjk (Option.some.inj heq).symm

theorem Matrix.governs (h : Matrix none s) (k : Fin 64) : s.Governs k :=
  ⟨h.ordered k nofun, h.holds k nofun, fun c hc => h.held c k hc nofun⟩

/-- A record that holds nothing comes back at rest. -/
theorem Matrix.reinstateLoose (h : Matrix (some k) s) (hk : s.holdsNothing k) (hf : Loose (s.fault k)) : Matrix none s :=
  h.reinstate ⟨hf.inOrder, fun ht => absurd ht hf.rests, fun c hc => absurd hc (hk c)⟩

/-- A change of the record in between and of channels that it holds. -/
theorem Matrix.within (h : Matrix (some k) s) (hbuses : t.buses = s.buses)
    (hset : ∀ c, t.relaySet c = s.relaySet c ∨
      (s.relaySet c).holder = some k ∧ (t.relaySet c).holder = some k ∧ (t.relaySet c).coherent)
    (hf : ∀ j, j ≠ k → t.fault j = s.fault j) (hkind : (t.fault k).kind = (s.fault k).kind)
    (htarget : (t.fault k).target = (s.fault k).target) (hpartner : (t.fault k).partner = (s.fault k).partner)
    (hbus : (t.fault k).bus = (s.fault k).bus) : Matrix (some k) t := by
  have hholder (c : Fin 24) : (t.relaySet c).holder = (s.relaySet c).holder := by
    rcases hset c with heq | ⟨hs, ht, -⟩
    · rw [heq]
    · rw [hs, ht]
  have hfree {c : Fin 24} (hc : (s.relaySet c).holder ≠ some k) : t.relaySet c = s.relaySet c :=
    (hset c).resolve_right fun hk => hc hk.1
  refine ⟨fun c => ?_, fun c j hj => ?_, fun c j hj ho => ?_, fun c hk => ?_, fun c hk => ?_, fun b j hb => ?_,
    fun j => ?_, fun j ho => ?_, fun j ho ht => ?_⟩
  · rcases hset c with heq | ⟨-, -, hc⟩
    · rw [heq]
      exact h.coherent c
    · exact hc
  · rw [hholder] at hj
    by_cases hjk : j = k
    · subst hjk
      rw [htarget, hpartner]
      exact h.named c j hj
    · rw [hf j hjk]
      exact h.named c j hj
  · rw [hholder] at hj
    have hjk : j ≠ k := fun heq => ho (by rw [heq])
    exact heldWell_congr (congrArg FaultRecord.role (hf j hjk))
      (fun d hd => hfree (by rw [hd]; exact fun heq => hjk (Option.some.inj heq))) hj (h.held c j hj ho)
  · rw [hholder] at hk
    rw [hfree (by rw [hk]; nofun)]
    exact h.free c hk
  · rw [hholder] at hk
    rw [hfree (by rw [hk]; nofun)]
    exact h.recovers c hk
  · rw [hbuses] at hb
    obtain ⟨hkd, hbs, c, hc⟩ := h.buses b j hb
    by_cases hjk : j = k
    · subst hjk
      exact ⟨hkind.trans hkd, hbus.trans hbs, c, (hholder c).trans hc⟩
    · rw [hf j hjk]
      exact ⟨hkd, hbs, c, (hholder c).trans hc⟩
  · by_cases hjk : j = k
    · subst hjk
      unfold Machine.shaped
      rw [hkind, hpartner, htarget]
      exact h.shaped j
    · rw [hf j hjk]
      exact h.shaped j
  · have hjk : j ≠ k := fun heq => ho (by rw [heq])
    rw [hf j hjk]
    exact h.ordered j ho
  · have hjk : j ≠ k := fun heq => ho (by rw [heq])
    exact holds_congr (congrArg FaultRecord.role (hf j hjk)) (fun d hd => (hholder d).trans hd)
      (fun b hb => by rw [hbuses]; exact hb) (h.holds j ho (hf j hjk ▸ ht))

/-- The record in between takes another state or sequence. -/
theorem Matrix.passFault (h : Matrix (some k) s) {f : FaultRecord → FaultRecord} (hkind : (f (s.fault k)).kind = (s.fault k).kind)
    (htarget : (f (s.fault k)).target = (s.fault k).target) (hpartner : (f (s.fault k)).partner = (s.fault k).partner)
    (hbus : (f (s.fault k)).bus = (s.fault k).bus) : Matrix (some k) (s.updFault k f) := by
  have hself : (s.updFault k f).fault k = f (s.fault k) := (updFault_fault f k).trans (if_pos rfl)
  exact h.within rfl (fun c => .inl rfl) (fun j hj => (updFault_fault f j).trans (if_neg hj)) (by rw [hself, hkind])
    (by rw [hself, htarget]) (by rw [hself, hpartner]) (by rw [hself, hbus])

/-- Channels that nobody holds change, settled as they were. -/
theorem Matrix.aside (h : Matrix o s) (hbuses : t.buses = s.buses) (hfaults : t.faults = s.faults)
    (hset : ∀ c, t.relaySet c = s.relaySet c ∨ (s.relaySet c).holder = none ∧ (t.relaySet c).holder = none ∧
      (t.relaySet c).coherent ∧ (t.relaySet c).Settled ∧
        ((t.relaySet c).normalising.isSome = true → (t.relaySet c).inService = false)) : Matrix o t := by
  have hfault (j : Fin 64) : t.fault j = s.fault j := fault_of_faults hfaults j
  have hholder (d : Fin 24) : (t.relaySet d).holder = (s.relaySet d).holder := by
    rcases hset d with heq | ⟨hs, ht, -⟩
    · rw [heq]
    · rw [hs, ht]
  have hheld {d : Fin 24} {j : Fin 64} (hj : (s.relaySet d).holder = some j) : t.relaySet d = s.relaySet d := by
    refine (hset d).resolve_right fun hd => ?_
    rw [hd.1] at hj
    cases hj
  refine ⟨fun d => ?_, fun d j hj => ?_, fun d j hj ho => ?_, fun d hd => ?_, fun d hd => ?_, fun b j hb => ?_,
    fun j => ?_, fun j ho => ?_, fun j ho ht => ?_⟩
  · rcases hset d with heq | ⟨-, -, hc, -⟩
    · rw [heq]
      exact h.coherent d
    · exact hc
  · rw [hholder] at hj
    rw [hfault]
    exact h.named d j hj
  · rw [hholder] at hj
    exact heldWell_congr (congrArg FaultRecord.role (hfault j)) (fun _ => hheld) hj (h.held d j hj ho)
  · rw [hholder] at hd
    rcases hset d with heq | ⟨-, -, -, hs, -⟩
    · rw [heq]
      exact h.free d hd
    · exact hs
  · rw [hholder] at hd
    rcases hset d with heq | ⟨-, -, -, -, hout⟩
    · rw [heq]
      exact h.recovers d hd
    · exact hout
  · rw [hbuses] at hb
    obtain ⟨hkd, hbs, d, hd⟩ := h.buses b j hb
    rw [hfault]
    exact ⟨hkd, hbs, d, (hholder d).trans hd⟩
  · rw [hfault]
    exact h.shaped j
  · rw [hfault]
    exact h.ordered j ho
  · exact holds_congr (congrArg FaultRecord.role (hfault j)) (fun d hd => (hholder d).trans hd)
      (fun b hb => by rw [hbuses]; exact hb) (h.holds j ho (hfault j ▸ ht))

/-- A channel that nobody holds changes, settled as it was. -/
theorem Matrix.updFree (h : Matrix o s) {f : RelaySet → RelaySet} (hc : (s.relaySet c).holder = none)
    (hf : (f (s.relaySet c)).holder = none) (hcoherent : (f (s.relaySet c)).coherent) (hsettled : (f (s.relaySet c)).Settled)
    (hout : (f (s.relaySet c)).normalising.isSome = true → (f (s.relaySet c)).inService = false) :
    Matrix o (s.updRelaySet c f) := by
  refine h.aside rfl rfl fun d => ?_
  rw [State.updRelaySet_relaySet]
  by_cases hd : c = d
  · subst hd
    rw [if_pos rfl]
    exact .inr ⟨hc, hf, hcoherent, hsettled, hout⟩
  · rw [if_neg hd]
    exact .inl rfl

/-- The holders of the record in between are released, each channel settled and none normalising (R53). -/
theorem Matrix.releaseHolders (h : Matrix (some k) s)
    (hk : ∀ c, (s.relaySet c).holder = some k → (s.relaySet c).Settled ∧ (s.relaySet c).normalising = none) :
    Matrix (some k) (s.releaseHolders k) ∧ (s.releaseHolders k).holdsNothing k := by
  have hset (d : Fin 24) : (s.releaseHolders k).relaySet d =
      if (s.relaySet d).holder = some k then { s.relaySet d with holder := none } else s.relaySet d := mapV_get ..
  have hfault (j : Fin 64) : (s.releaseHolders k).fault j = s.fault j := releaseHolders_fault
  have hbuses (b : Bus) : (s.releaseHolders k).buses.get b = if s.buses.get b = some k then none else s.buses.get b := by
    cases b <;> rfl
  have hheld {d : Fin 24} {j : Fin 64} (hj : ((s.releaseHolders k).relaySet d).holder = some j) :
      j ≠ k ∧ (s.relaySet d).holder = some j ∧ (s.releaseHolders k).relaySet d = s.relaySet d := by
    rw [hset] at hj
    by_cases hd : (s.relaySet d).holder = some k
    · rw [if_pos hd] at hj
      cases hj
    · rw [if_neg hd] at hj
      exact ⟨fun heq => hd (heq ▸ hj), hj, by rw [hset, if_neg hd]⟩
  have hother {d : Fin 24} {j : Fin 64} (hjk : j ≠ k) (hj : (s.relaySet d).holder = some j) :
      (s.releaseHolders k).relaySet d = s.relaySet d := by
    rw [hset, if_neg]
    rw [hj]
    exact fun heq => hjk (Option.some.inj heq)
  have hfree {d : Fin 24} (hd : ((s.releaseHolders k).relaySet d).holder = none) :
      (s.relaySet d).holder = some k ∧ (s.releaseHolders k).relaySet d = { s.relaySet d with holder := none } ∨
        (s.relaySet d).holder = none ∧ (s.releaseHolders k).relaySet d = s.relaySet d := by
    rw [hset] at hd ⊢
    by_cases hdk : (s.relaySet d).holder = some k
    · rw [if_pos hdk]
      exact .inl ⟨hdk, rfl⟩
    · rw [if_neg hdk] at hd ⊢
      exact .inr ⟨hd, rfl⟩
  refine ⟨⟨fun d => ?_, fun d j hj => ?_, fun d j hj ho => ?_, fun d hd => ?_, fun d hd hn => ?_, fun b j hb => ?_,
    fun j => ?_, fun j ho => ?_, fun j ho ht => ?_⟩, fun d hd => (hheld hd).1 rfl⟩
  · rw [hset]
    split
    · exact h.coherent d
    · exact h.coherent d
  · obtain ⟨-, hj', -⟩ := hheld hj
    rw [hfault]
    exact h.named d j hj'
  · obtain ⟨hjk, hj', -⟩ := hheld hj
    exact heldWell_congr (congrArg FaultRecord.role (hfault j)) (fun _ => hother hjk) hj' (h.held d j hj' ho)
  · rcases hfree hd with ⟨hdk, heq⟩ | ⟨hnone, heq⟩
    · obtain ⟨hs, -⟩ := hk d hdk
      rw [heq]
      exact ⟨hs.guarded, hs.normal, hs.still, hs.breaking, hs.joining, hs.opened⟩
    · rw [heq]
      exact h.free d hnone
  · rcases hfree hd with ⟨hdk, heq⟩ | ⟨hnone, heq⟩
    · rw [heq, (hk d hdk).2] at hn
      cases hn
    · rw [heq] at hn ⊢
      exact h.recovers d hnone hn
  · rw [hbuses] at hb
    have hbus : j ≠ k ∧ s.buses.get b = some j := by
      by_cases hx : s.buses.get b = some k
      · rw [if_pos hx] at hb
        cases hb
      · rw [if_neg hx] at hb
        exact ⟨fun heq => hx (heq ▸ hb), hb⟩
    obtain ⟨hkd, hbs, d, hd⟩ := h.buses b j hbus.2
    rw [hfault]
    exact ⟨hkd, hbs, d, by rw [hother hbus.1 hd]; exact hd⟩
  · rw [hfault]
    exact h.shaped j
  · rw [hfault]
    exact h.ordered j ho
  · have hjk : j ≠ k := fun heq => ho (by rw [heq])
    refine holds_congr (congrArg FaultRecord.role (hfault j)) (fun d hd => by rw [hother hjk hd]; exact hd) (fun b hb => ?_)
      (h.holds j ho (hfault j ▸ ht))
    rw [hbuses, if_neg, hb]
    rw [hb]
    exact fun heq => hjk (Option.some.inj heq)

end Sys2Proof.Machine
end

section
/-! A record's sequence from step to step (R51, R54). -/

namespace Sys2Proof.Machine

variable {s t u v w : State} {j k : Fin 64} {c d p : Fin 24} {n m r : RelayName} {pos : Position} {x : RelaySet}
  {q : Sequence} {l l' : List Wish} {i : Nat} {f g : FaultRecord} {o : Option (Fin 64)} {b : Bool}

/-- Record `k` is in between, and its channels are at rest as the steps of `l` leave them. -/
structure Transit (k : Fin 64) (l : List Wish) (s : State) : Prop where
  law : Matrix (some k) s
  relay : (s.fault k).kind.electronic = false
  holds : s.holds k
  rest : ∀ c, (s.relaySet c).holder = some k → (s.relaySet c).normalising = none ∧ (s.relaySet c).inService = true ∧
    ∀ n, (s.relaySet c).relays.get n = atRest (plannedPosition l c n)

/-- On the course of a step: the relays that it names are at its position or on their way, the others as before. -/
def State.onStep (s : State) (c : Fin 24) (l l' : List Wish) : Prop :=
  ∀ n, if wishNames l' c n then ((s.relaySet c).relays.get n).state.position = plannedPosition l' c n
    else (s.relaySet c).relays.get n = atRest (plannedPosition l c n)

theorem onCourse_iff : s.onCourse c f ↔ s.onStep c (stepsBehind f) (stepNow f) := Iff.rfl

theorem Transit.updFault (h : Transit k l s) {f : FaultRecord → FaultRecord} (hkind : (f (s.fault k)).kind = (s.fault k).kind)
    (htarget : (f (s.fault k)).target = (s.fault k).target) (hpartner : (f (s.fault k)).partner = (s.fault k).partner)
    (hbus : (f (s.fault k)).bus = (s.fault k).bus) : Transit k l (s.updFault k f) := by
  have hself : (s.updFault k f).fault k = f (s.fault k) := (updFault_fault f k).trans (if_pos rfl)
  refine ⟨h.law.passFault hkind htarget hpartner hbus, by rw [hself, hkind]; exact h.relay, ⟨fun c hc => ?_, fun hk => ?_⟩, h.rest⟩
  · refine h.holds.1 c ?_
    rw [hself] at hc
    unfold needs at hc ⊢
    rw [hpartner, htarget] at hc
    exact hc
  · rw [hself] at hk ⊢
    rw [hbus]
    exact h.holds.2 (hkind ▸ hk)

/-- A record back on its course. -/
theorem Matrix.onwards (h : Matrix (some k) s) (hrelay : (s.fault k).kind.electronic = false) (hholds : s.holds k)
    (hstate : (s.fault k).state = .starting ∨ (s.fault k).state = .active ∨ (s.fault k).state = .stopping)
    (hord : InOrder (s.fault k)) (hc : ∀ c, (s.relaySet c).holder = some k → s.Carried c (s.fault k)) : Matrix none s :=
  h.reinstate ⟨hord, fun _ => hholds, fun c hk => .inl ⟨⟨hrelay, hstate⟩, hc c hk⟩⟩

theorem inOrder_of_active (h : f.state = .active) : InOrder f where
  relay hs := by rcases hs with hs | hs | hs <;> rw [h] at hs <;> cases hs
  starting hs := by rw [h] at hs; cases hs
  stopping hs := by rw [h] at hs; cases hs

/-- A relay record at rest as its start leaves it is ACTIVE. -/
theorem Transit.active (h : Transit k (startSteps (s.fault k)).flatten s) (hs : (s.fault k).state = .active)
    (hq : (s.fault k).seq = none) : Matrix none s := by
  have hnow : stepNow (s.fault k) = [] := by rw [stepNow, hq]
  have hbehind : stepsBehind (s.fault k) = (startSteps (s.fault k)).flatten := by rw [stepsBehind, hq]
  refine h.law.onwards h.relay h.holds (.inr (.inl hs)) (inOrder_of_active hs) fun c hc => ?_
  obtain ⟨hcalm, hservice, hrest⟩ := h.rest c hc
  refine ⟨hcalm, hservice, onCourse_iff.2 fun n => ?_⟩
  rw [hnow, hbehind]
  exact hrest n

/-- The channels of an ACTIVE relay record are at rest as its start leaves them. -/
theorem Matrix.transit_of_active (h : Matrix none s) (hr : (s.fault k).kind.electronic = false)
    (hs : (s.fault k).state = .active) (hq : (s.fault k).seq = none) : Transit k (startSteps (s.fault k)).flatten s := by
  have ht : travels (s.fault k) := ⟨hr, .inr (.inl hs)⟩
  refine ⟨h.between, hr, h.holds k nofun ht, fun c hc => ?_⟩
  rcases h.held c k hc nofun with ⟨-, hcar⟩ | ⟨hf, -⟩
  · refine ⟨hcar.calm, hcar.service, fun n => ?_⟩
    have hon := onCourse_iff.1 hcar.course n
    rw [show stepNow (s.fault k) = [] by rw [stepNow, hq],
      show stepsBehind (s.fault k) = (startSteps (s.fault k)).flatten by rw [stepsBehind, hq]] at hon
    exact hon
  · exact absurd ht (not_travels_of_failed hf)

/-! ## A step as it is commanded (R51) -/

theorem atRest_iff {y : Relay} : y = atRest pos ↔ y.state = pos.rest ∧ y.failed = false ∧ y.movement.isSome = false := by
  constructor
  · rintro rfl
    exact ⟨rfl, rfl, rfl⟩
  · obtain ⟨state, failed, movement⟩ := y
    rintro ⟨hs, hf, hm⟩
    obtain rfl : movement = none := by
      cases movement with
      | none => rfl
      | some _ => cases hm
    obtain rfl : failed = false := hf
    obtain rfl : state = pos.rest := hs
    rfl

/-- A relay at rest and not in doubt is at rest in its position. -/
theorem atRest_of_still {y : Relay} (h : y.movement.isSome = y.state.moving) (hm : y.state.moving = false)
    (hf : y.failed = false) : y = atRest y.state.position := by
  refine atRest_iff.2 ⟨?_, hf, h.trans hm⟩
  cases hs : y.state with
  | opened => rfl
  | closed => rfl
  | movingOpen => rw [hs] at hm; cases hm
  | movingClosed => rw [hs] at hm; cases hm

/-- A relay at rest that a step wants in a position is there, or goes there. -/
theorem want_atRest (t : RelayTiming) (p pos : Position) :
    (atRest p).want t pos = if p = pos then atRest pos else t.commands pos := by
  cases p <;> cases pos <;> rfl

theorem want_atRest_position (t : RelayTiming) (p pos : Position) : ((atRest p).want t pos).state.position = pos := by
  cases p <;> cases pos <;> rfl

theorem want_coherent (t : RelayTiming) (y : Relay) (pos : Position)
    (h : y.movement.isSome = y.state.moving ∧ (y.state.moving = true → y.failed = false)) :
    (y.want t pos).movement.isSome = (y.want t pos).state.moving ∧
      ((y.want t pos).state.moving = true → (y.want t pos).failed = false) := by
  have hwant := wantedIn_want t pos y
  unfold wantedIn at hwant
  split at hwant
  · rw [hwant]
    exact h
  · rw [hwant]
    exact ⟨(moving_moving pos).symm, fun _ => rfl⟩

theorem wish_coherent {w : Wish} (h : ∀ c, (s.relaySet c).coherent) (c : Fin 24) : ((s.wish w).relaySet c).coherent := by
  intro n
  rw [wish_relay]
  split
  · exact want_coherent _ _ _ (h w.1 w.2.1)
  · exact h c n

theorem runStep_coherent (l : List Wish) (h : ∀ c, (s.relaySet c).coherent) (c : Fin 24) :
    ((s.runStep l).relaySet c).coherent := by
  induction l generalizing s with
  | nil => exact h c
  | cons w l ih => exact ih (s := s.wish w) fun c => wish_coherent h c

theorem runStep_fault (l : List Wish) (j : Fin 64) : (s.runStep l).fault j = s.fault j := by
  rw [runStep_rest]
  rfl

theorem runStep_holder (l : List Wish) (c : Fin 24) : ((s.runStep l).relaySet c).holder = (s.relaySet c).holder := by
  rw [runStep_relaySet]

theorem runStep_buses (l : List Wish) : (s.runStep l).buses = s.buses := by
  rw [runStep_rest]

/-- A channel that no wish of the step names is left as it is. -/
theorem runStep_aside {l : List Wish} (h : ∀ w ∈ l, w.1 ≠ c) : (s.runStep l).relaySet c = s.relaySet c := by
  rw [runStep_relaySet]
  have hrelays : ((s.runStep l).relaySet c).relays = (s.relaySet c).relays :=
    perRelay_ext fun n => runStep_unnamed fun w hw hname => h w hw hname.1
  rw [hrelays]

/-- A step of record `k` as it is commanded: the record is still in between, and its channels are on the step. -/
theorem Transit.runStep (h : Transit k l s) (hl : l' ∈ sequenceSteps (s.fault k) b) :
    Matrix (some k) (s.runStep l') ∧ (s.runStep l').holds k ∧
      ∀ c, (s.relaySet c).holder = some k → ((s.runStep l').relaySet c).normalising = none ∧
        ((s.runStep l').relaySet c).inService = true ∧ (s.runStep l').onStep c l l' := by
  have hheld {w : Wish} (hw : w ∈ l') : (s.relaySet w.1).holder = some k := h.holds.1 _ (wish_of_steps hl hw).1
  have hcoherent := runStep_coherent l' h.law.coherent
  refine ⟨h.law.within (runStep_buses l') (fun c => ?_) (fun j _ => runStep_fault l' j) (by rw [runStep_fault])
    (by rw [runStep_fault]) (by rw [runStep_fault]) (by rw [runStep_fault]), ⟨fun c hc => ?_, fun hk => ?_⟩, fun c hc => ?_⟩
  · by_cases hc : (s.relaySet c).holder = some k
    · exact .inr ⟨hc, by rw [runStep_holder, hc], hcoherent c⟩
    · exact .inl (runStep_aside fun w hw heq => hc (heq ▸ hheld hw))
  · rw [runStep_fault] at hc
    rw [runStep_holder]
    exact h.holds.1 c hc
  · rw [runStep_fault] at hk ⊢
    rw [runStep_buses]
    exact h.holds.2 hk
  · obtain ⟨hcalm, hservice, hrest⟩ := h.rest c hc
    rw [runStep_relaySet]
    refine ⟨hcalm, hservice, fun n => ?_⟩
    have hapart := steps_apart (h.law.shaped k) hl
    split
    next hname =>
      obtain ⟨pos, hw⟩ := wishNames_iff.1 hname
      have hrelay : ((s.runStep l').relaySet c).relays.get n = ((s.relaySet c).relays.get n).want s.timing pos :=
        runStep_named hapart hw
      rw [hrelay, hrest, want_atRest_position, plannedPosition_of_mem hapart hw]
    next hname =>
      rw [runStep_unnamed fun w hw hin => hname (wishNames_iff.2 ⟨w.2.2, by rw [← hin.1, ← hin.2]; exact hw⟩)]
      exact hrest n

/-- A step that is over leaves its relays at rest where it wants them. -/
theorem rest_of_onStep (hon : s.onStep c l l') (hc : (s.relaySet c).coherent) (hdone : s.stepDone l') (n : RelayName) :
    (s.relaySet c).relays.get n = atRest (plannedPosition (l ++ l') c n) := by
  have hat := hon n
  rw [plannedPosition_append]
  split at hat
  next hname =>
    rw [if_pos hname]
    obtain ⟨pos, hw⟩ := wishNames_iff.1 hname
    obtain ⟨hmoving, hfailed⟩ := hdone _ hw
    rw [← hat]
    exact atRest_of_still (hc n).1 hmoving hfailed
  next hname =>
    rw [if_neg hname]
    exact hat

/-- A step that commands no movement is over at once (R51, R54). -/
theorem Transit.stepDone (h : Transit k l s) (hl : l' ∈ sequenceSteps (s.fault k) b)
    (hm : (s.runStep l').stepMoving l' = false) : (s.runStep l').stepDone l' := by
  intro w hw
  have hmoving : ((s.runStep l').relay w).state.moving = false := by
    have := List.any_eq_false.1 hm w hw
    simpa using this
  have hheld := h.holds.1 _ (wish_of_steps hl hw).1
  have hrelay : (s.runStep l').relay w = (s.relay w).want s.timing w.2.2 :=
    runStep_named (steps_apart (h.law.shaped k) hl) hw
  have hat : s.relay w = atRest (plannedPosition l w.1 w.2.1) := (h.rest _ hheld).2.2 _
  rw [hrelay, hat, want_atRest] at hmoving ⊢
  split
  · exact ⟨by cases w.2.2 <;> rfl, rfl⟩
  next hne =>
    rw [if_neg hne] at hmoving
    have hmoves : (s.timing.commands w.2.2).state.moving = true := moving_moving w.2.2
    rw [hmoves] at hmoving
    cases hmoving

theorem Transit.next (h : Transit k l s) (hl : l' ∈ sequenceSteps (s.fault k) b)
    (hm : (s.runStep l').stepMoving l' = false) : Transit k (l ++ l') (s.runStep l') := by
  obtain ⟨hlaw, hholds, hset⟩ := h.runStep hl
  refine ⟨hlaw, by rw [runStep_fault]; exact h.relay, hholds, fun c hc => ?_⟩
  rw [runStep_holder] at hc
  obtain ⟨hcalm, hservice, hon⟩ := hset c hc
  exact ⟨hcalm, hservice, rest_of_onStep hon (hlaw.coherent c) (h.stepDone hl hm)⟩

end Sys2Proof.Machine
end

section
/-! Triggers, activations and sequences, and what the Relay Matrix holds (R54, R83, R84, R94, R99 to R103). -/

namespace Sys2Proof.Machine

variable {s t u v w : State} {j k : Fin 64} {c d p : Fin 24} {n m r : RelayName} {pos : Position} {x : RelaySet}
  {q : Sequence} {l l' : List Wish} {i : Nat} {f g : FaultRecord} {o : Option (Fin 64)} {b : Bool} {e : FaultEvent}

/-! ## Triggers (R78, R84, R93) -/

theorem not_travels_of_state (h : f.state ≠ .starting ∧ f.state ≠ .active ∧ f.state ≠ .stopping) : ¬travels f := by
  rintro ⟨-, hs | hs | hs⟩
  · exact h.1 hs
  · exact h.2.1 hs
  · exact h.2.2 hs

/-- An ARMED record holds nothing. -/
theorem Matrix.armed_holdsNothing (h : Matrix o s) (ho : o ≠ some k) (ha : (s.fault k).state = .armed) : s.holdsNothing k :=
  h.holdsNothing ho (not_travels_of_state (by rw [ha]; exact ⟨nofun, nofun, nofun⟩)) (by rw [ha]; nofun)

theorem Matrix.enterActive (h : Matrix o s) (hk : s.holdsNothing k) (he : (s.fault k).kind.electronic = true) :
    Matrix o (s.enterActive k) := by
  refine h.ease (by simp) (by simp) fun j => ?_
  rw [enterActive_fault]
  split
  next heq =>
    refine .inr ⟨heq ▸ hk, h.shaped k, fun ht => ?_, nofun, nofun, nofun⟩
    have hr : (s.fault k).kind.electronic = false := ht.1
    rw [he] at hr
    cases hr
  · exact .inl rfl

theorem Matrix.enterFailed (h : Matrix o s) (hk : s.holdsNothing k) (why : FailReason) : Matrix o (s.enterFailed k why) :=
  (h.loosen (f := fun r => { r with state := .failed, failReason := some why, seq := none }) hk
    ⟨h.shaped k, not_travels_of_failed rfl, nofun, nofun, nofun⟩).raiseSet _ _

theorem Matrix.enterDone (h : Matrix o s) (hk : s.holdsNothing k) : Matrix o (s.enterDone k) :=
  (h.loosen (f := fun r => { r with state := .done, frozen := none, seq := none }) hk
    ⟨h.shaped k, not_travels_of_state ⟨nofun, nofun, nofun⟩, nofun, nofun, nofun⟩).raiseSet _ _

theorem Matrix.joined (h : Matrix o s) (hk : s.holdsNothing k) (he : (s.fault k).kind.electronic = false) :
    Matrix o (s.joined k) :=
  (h.loosen (f := fun r => { r with state := .waiting, fresh := true }) hk
    ⟨h.shaped k, not_travels_of_state ⟨nofun, nofun, nofun⟩, fun _ => he, nofun, nofun⟩).of_fields rfl rfl rfl

/-- The record in between is not ARMED. -/
def State.idle (s : State) (o : Option (Fin 64)) : Prop := ∀ i, o = some i → (s.fault i).state ≠ .armed

theorem Matrix.fireFuel (n : Nat) : ∀ {s : State} {k : Fin 64}, Matrix o s → s.idle o → Matrix o (fireFuel n s k) := by
  induction n with
  | zero => exact fun h _ => h
  | succ n ih =>
    intro s k h hidle
    have hfold (l : List (Fin 64)) : ∀ u : State, Matrix o u → u.idle o → Matrix o (l.foldl (Machine.fireFuel n) u) := by
      induction l with
      | nil => exact fun _ hu _ => hu
      | cons i l ihl =>
        intro u hu hui
        exact ihl _ (ih hu hui) fun i' hi' => by rw [fireFuel_fault_of_not_armed n (hui i' hi')]; exact hui i' hi'
    rw [fireFuel_succ]
    split_ifs with harmed helec hout
    · have hk := h.armed_holdsNothing (fun ho => hidle k ho harmed) harmed
      refine hfold _ _ (h.enterActive hk helec) fun i hi => ?_
      rw [enterActive_fault]
      split
      · exact nofun
      · exact hidle i hi
    · exact h.enterFailed (h.armed_holdsNothing (fun ho => hidle k ho harmed) harmed) _
    · exact h.joined (h.armed_holdsNothing (fun ho => hidle k ho harmed) harmed) (by simpa using helec)
    · exact h

theorem Matrix.fireAll (l : List (Fin 64)) : ∀ {s : State}, Matrix o s → s.idle o → Matrix o (l.foldl State.fire s) := by
  induction l with
  | nil => exact fun h _ => h
  | cons i l ih =>
    exact fun h hidle => ih (h.fireFuel 65 hidle) fun i' hi' => by
      rw [fire_fault_of_not_armed (hidle i' hi')]
      exact hidle i' hi'

theorem Matrix.produce (h : Matrix o s) (hidle : s.idle o) : Matrix o (s.produce k e) := h.fireAll _ hidle

theorem idle_none (s : State) : s.idle none := nofun

theorem idle_some (h : (s.fault k).state ≠ .armed) : s.idle (some k) := by
  intro i hi
  cases hi
  exact h

/-! ## The end of an activation (R89, R103) -/

theorem holdsNothing_congr (h : t.relays = s.relays) (hk : s.holdsNothing k) : t.holdsNothing k := by
  intro c
  have hset : t.relaySet c = s.relaySet c := congrArg (fun y => y.get c) h
  rw [hset]
  exact hk c

/-- The activation of a record that holds nothing ends. -/
theorem Matrix.endActivation (h : Matrix (some k) s) (hk : s.holdsNothing k) (ha : (s.fault k).state ≠ .armed) :
    Matrix none (s.endActivation k) := by
  have hstamped : Matrix (some k) (s.stamped k) := h.updFault rfl
  have hidle : ((s.stamped k).fault k).state ≠ .armed := by rw [stamped_fault]; exact ha
  have hproduced : Matrix (some k) ((s.stamped k).produce k .stop) := hstamped.produce (idle_some hidle)
  have hnothing : ((s.stamped k).produce k .stop).holdsNothing k := holdsNothing_congr (by simp [State.stamped]) hk
  have hended : Matrix none (((s.stamped k).produce k .stop).rearmedOrDone k) := by
    generalize (s.stamped k).produce k .stop = z at hproduced hnothing
    unfold State.rearmedOrDone
    split
    · refine (hproduced.passFault rfl rfl rfl rfl).reinstateLoose hnothing ?_
      rw [updFault_fault, if_pos rfl]
      exact ⟨hproduced.shaped k, not_travels_of_state ⟨nofun, nofun, nofun⟩, nofun, nofun, nofun⟩
    · refine (hproduced.enterDone hnothing).reinstateLoose (holdsNothing_congr (by simp) hnothing) ?_
      rw [enterDone_fault, if_pos rfl]
      exact ⟨hproduced.shaped k, not_travels_of_state ⟨nofun, nofun, nofun⟩, nofun, nofun, nofun⟩
  rw [endActivation_eq]
  split
  · exact hended.showFree _
  · exact hended

/-! ## The end of a stop -/

/-- A channel in its normal set and in service is settled. -/
theorem settled_of_normal (hset : normalSet x) (hn : x.normalising = none) (hs : x.inService = true) : x.Settled := by
  have hopen (n : RelayName) (hr : n ≠ .path) : x.relays.get n = atRest .opened := by
    rw [hset n, normalPosition, if_neg hr]
  refine ⟨⟨fun r r' hr _ _ => .inl (hopen r hr), fun r hr hat => ?_⟩, fun _ _ => hset, fun _ h => ?_, fun h => ?_, fun h => ?_,
    fun _ n hr => by rw [hopen n hr]; rfl⟩
  · refine absurd (hopen r ?_) hat
    rcases hr with rfl | rfl <;> decide
  · rw [hs] at h
    cases h
  · rw [hn] at h
    cases h
  · rw [hn] at h
    cases h

/-- The stop of a record is complete (R101). -/
theorem Transit.stopComplete (h : Transit k ((startSteps (s.fault k)).flatten ++ (stopSteps (s.fault k)).flatten) s)
    (ha : (s.fault k).state ≠ .armed) : Matrix none (s.stopComplete k) := by
  have hsettled (c : Fin 24) (hc : (s.relaySet c).holder = some k) :
      (s.relaySet c).Settled ∧ (s.relaySet c).normalising = none := by
    obtain ⟨hcalm, hservice, hrest⟩ := h.rest c hc
    refine ⟨settled_of_normal (fun n => ?_) hcalm hservice, hcalm⟩
    rw [hrest, planned_over (h.law.shaped k)]
  have hover : Matrix (some k) (s.unsequenced k) := h.law.passFault rfl rfl rfl rfl
  obtain ⟨hreleased, hnothing⟩ := hover.releaseHolders hsettled
  rw [stopComplete_eq]
  refine hreleased.endActivation hnothing ?_
  rw [releaseHolders_fault, unsequenced_fault_self]
  exact ha

/-! ## A sequence goes on (R54) -/

/-- The wishes of the steps before step `i` of a sequence, of a stop the start's too (R54). -/
def behind (f : FaultRecord) (b : Bool) (i : Nat) : List Wish :=
  (if b then (startSteps f).flatten else []) ++ ((sequenceSteps f b).take i).flatten

theorem stepsBehind_of_seq (h : f.seq = some ⟨b, i⟩) : stepsBehind f = behind f b i := by
  rw [stepsBehind, h]
  rfl

theorem behind_succ (h : (sequenceSteps f b)[i]? = some l) : behind f b (i + 1) = behind f b i ++ l := by
  rw [behind, behind, List.take_add_one, h, Option.toList_some, List.flatten_append, List.flatten_singleton,
    List.append_assoc]

theorem stepNow_of_seq (h : f.seq = some ⟨b, i⟩) : stepNow f = (sequenceSteps f b).getD i [] := by
  rw [stepNow, h]

theorem drop_cons {α : Type} {a : List α} {y : α} {ys : List α} (h : a.drop i = y :: ys) :
    a[i]? = some y ∧ y ∈ a ∧ a.drop (i + 1) = ys := by
  have hat : a[i]? = some y := by
    have := List.getElem?_drop (xs := a) (i := i) (j := 0)
    rw [h] at this
    simpa using this.symm
  refine ⟨hat, List.mem_of_getElem? hat, ?_⟩
  rw [← List.tail_drop, h, List.tail_cons]

/-- The state that a sequence is in. -/
def sequenceState (b : Bool) : FaultState := if b then .stopping else .starting

/-- A record in its sequence, at step `i` as that has been commanded, is in order again. -/
theorem Transit.inFlight (h : Transit k (behind (s.fault k) b i) s) (hs : (s.fault k).state = sequenceState b)
    (hl : (sequenceSteps (s.fault k) b)[i]? = some l) :
    Matrix none ((s.runStep l).updFault k fun f => { f with seq := some ⟨b, i⟩ }) := by
  obtain ⟨hlaw, hholds, hset⟩ := h.runStep (List.mem_of_getElem? hl)
  have hself : ((s.runStep l).updFault k fun f => { f with seq := some ⟨b, i⟩ }).fault k =
      { s.fault k with seq := some ⟨b, i⟩ } := by
    rw [updFault_fault, if_pos rfl, runStep_fault]
  have hi : i < (sequenceSteps (s.fault k) b).length := by
    by_contra hlt
    rw [List.getElem?_eq_none (Nat.le_of_not_lt hlt)] at hl
    cases hl
  have hpass : Matrix (some k) ((s.runStep l).updFault k fun f => { f with seq := some ⟨b, i⟩ }) :=
    hlaw.passFault rfl rfl rfl rfl
  refine hpass.onwards (by rw [hself]; exact h.relay) ?_ ?_ ?_ fun c hc => ?_
  · refine ⟨fun c hc => hholds.1 c ?_, fun hk => ?_⟩
    · rw [hself] at hc
      rw [runStep_fault]
      exact hc
    · rw [hself] at hk ⊢
      have := hholds.2
      rw [runStep_fault] at this
      exact this hk
  · rw [hself]
    show (s.fault k).state = .starting ∨ (s.fault k).state = .active ∨ (s.fault k).state = .stopping
    rw [hs]
    cases b
    · exact .inl rfl
    · exact .inr (.inr rfl)
  · rw [hself]
    refine ⟨fun _ => h.relay, fun hstart => ?_, fun hstop => ?_⟩
    · have hb : sequenceState b = .starting := hs.symm.trans hstart
      cases b with
      | false => exact ⟨i, rfl, hi⟩
      | true => cases hb
    · have hb : sequenceState b = .stopping := hs.symm.trans hstop
      cases b with
      | false => cases hb
      | true => exact ⟨i, rfl, hi⟩
  · have hc' : (s.relaySet c).holder = some k := by rw [← runStep_holder l c]; exact hc
    obtain ⟨hcalm, hservice, hon⟩ := hset c hc'
    refine ⟨hcalm, hservice, onCourse_iff.2 ?_⟩
    rw [hself, stepsBehind_of_seq (f := { s.fault k with seq := some ⟨b, i⟩ }) rfl,
      stepNow_of_seq (f := { s.fault k with seq := some ⟨b, i⟩ }) rfl]
    have hstep : (sequenceSteps { s.fault k with seq := some ⟨b, i⟩ } b).getD i [] = l := by
      rw [List.getD_eq_getElem?_getD]
      exact congrArg (Option.getD · []) hl
    rw [hstep]
    exact hon

/-- The steps of a sequence from step `i`: one is in flight, or all are over. -/
theorem Transit.runSteps (rest : List (List Wish)) : ∀ {s : State} {i : Nat}, Transit k (behind (s.fault k) b i) s →
    (s.fault k).state = sequenceState b → (sequenceSteps (s.fault k) b).drop i = rest →
    (∀ z, (runSteps s i rest).2 = some z →
      Matrix none ((runSteps s i rest).1.updFault k fun f => { f with seq := some ⟨b, z⟩ })) ∧
    ((runSteps s i rest).2 = none → Transit k (behind (s.fault k) b (sequenceSteps (s.fault k) b).length) (runSteps s i rest).1) := by
  induction rest with
  | nil =>
    intro s i h hs hsteps
    refine ⟨nofun, fun _ => ?_⟩
    have hlen : behind (s.fault k) b i = behind (s.fault k) b (sequenceSteps (s.fault k) b).length := by
      rw [behind, behind, List.take_of_length_le (List.drop_eq_nil_iff.1 hsteps), List.take_length]
    rw [hlen] at h
    exact h
  | cons l rest ih =>
    intro s i h hs hsteps
    obtain ⟨hat, hmem, hrest⟩ := drop_cons hsteps
    cases hm : (s.runStep l).stepMoving l with
    | true =>
      rw [runSteps_first hm]
      refine ⟨fun z hz => ?_, nofun⟩
      cases hz
      exact h.inFlight hs hat
    | false =>
      rw [runSteps_next hm]
      have hnext : Transit k (behind ((s.runStep l).fault k) b (i + 1)) (s.runStep l) := by
        rw [runStep_fault, behind_succ hat]
        exact h.next hmem hm
      have hgoes := ih hnext (by rw [runStep_fault]; exact hs) (by rw [runStep_fault]; exact hrest)
      rw [runStep_fault] at hgoes
      exact hgoes

/-- A sequence that goes on, in flight or complete. -/
theorem Transit.goOn {done : State → Fin 64 → State} (h : Transit k (behind (s.fault k) b i) s)
    (hs : (s.fault k).state = sequenceState b)
    (hdone : ∀ z : State, z.fault k = s.fault k →
      Transit k (behind (s.fault k) b (sequenceSteps (s.fault k) b).length) z → Matrix none (done z k)) :
    Matrix none (s.goOn k b i done) := by
  obtain ⟨hflight, hover⟩ := h.runSteps ((sequenceSteps (s.fault k) b).drop i) hs rfl
  unfold State.goOn
  dsimp only
  split
  next z hz => exact hflight z hz
  next hz => exact hdone _ (runSteps_fault _ _) (hover hz)

theorem behind_stop (f : FaultRecord) : behind f true (sequenceSteps f true).length =
    (startSteps f).flatten ++ (stopSteps f).flatten := by
  rw [behind, List.take_length]
  rfl

theorem behind_start (f : FaultRecord) : behind f false (sequenceSteps f false).length = (startSteps f).flatten := by
  rw [behind, List.take_length]
  rfl

/-- An ACTIVE relay record enters STOPPING (R54, R100). -/
theorem Transit.beginStop (h : Transit k (startSteps (s.fault k)).flatten s) : Matrix none (s.beginStop k) := by
  have hself : (s.enterStopping k).fault k = { s.fault k with state := .stopping } := (enterStopping_fault k).trans (if_pos rfl)
  have hstop : Transit k (behind ((s.enterStopping k).fault k) true 0) (s.enterStopping k) := by
    have hbehind : behind ((s.enterStopping k).fault k) true 0 = (startSteps (s.fault k)).flatten := by
      rw [hself, behind, if_pos rfl, List.take_zero, List.flatten_nil, List.append_nil]
      rfl
    rw [hbehind]
    exact h.updFault rfl rfl rfl rfl
  refine hstop.goOn (done := State.stopComplete) (by rw [hself]; rfl) fun z hz hover => ?_
  rw [behind_stop, ← hz] at hover
  exact hover.stopComplete (by rw [hz, hself]; nofun)

theorem Matrix.beginStop (h : Matrix none s) (hr : (s.fault k).kind.electronic = false)
    (hs : (s.fault k).state = .active) (hq : (s.fault k).seq = none) : Matrix none (s.beginStop k) :=
  (h.transit_of_active hr hs hq).beginStop

/-- The start of a relay record is complete (R94, R99). -/
theorem Transit.startComplete (h : Transit k (startSteps (s.fault k)).flatten s) : Matrix none (s.startComplete k) := by
  have hself := started_fault_self (s := s) (k := k)
  have htransit : Transit k (startSteps (s.fault k)).flatten (s.updFault k s.startedRecord) := h.updFault rfl rfl rfl rfl
  have hupd : (s.updFault k s.startedRecord).fault k = s.startedRecord (s.fault k) := (updFault_fault _ k).trans (if_pos rfl)
  have hactive : Matrix none (s.updFault k s.startedRecord) :=
    Transit.active (by rw [hupd]; exact htransit) (by rw [hupd]; rfl) (by rw [hupd]; rfl)
  have hproduced : Matrix none ((s.started k).produce k .start) := (hactive.raiseSet _ _).produce (idle_none _)
  have hstill : ((s.started k).produce k .start).fault k = s.startedRecord (s.fault k) := by
    rw [produce_fault_of_not_armed (by rw [hself]; nofun), hself]
  rw [startComplete_of_relay h.relay]
  split
  · exact hproduced.beginStop (by rw [hstill]; exact h.relay) (by rw [hstill]; rfl) (by rw [hstill]; rfl)
  · exact hproduced

end Sys2Proof.Machine
end

section
/-! Normalisations, and what the Relay Matrix holds (R57, R58, R60). -/

namespace Sys2Proof.Machine

variable {s t u v w z : State} {j k : Fin 64} {c d p : Fin 24} {n m r : RelayName} {pos : Position} {x : RelaySet}
  {q : Sequence} {l l' : List Wish} {i : Nat} {f g : FaultRecord} {o : Option (Fin 64)} {b failed : Bool}

/-! ## A relay at rest as it is wanted (R51) -/

theorem want_position {y : Relay} (t : RelayTiming) (h : y.state.moving = false) : (y.want t pos).state.position = pos := by
  have hwant := wantedIn_want t pos y
  unfold wantedIn at hwant
  split at hwant
  next hconfirmed =>
    obtain ⟨hrest, -⟩ := hconfirmed.resolve_left (by rw [h]; decide)
    rw [hwant, hrest]
    cases pos <;> rfl
  next =>
    rw [hwant]
    cases pos <;> rfl

/-- A relay at rest that is not commanded is where it is wanted, with nothing in doubt. -/
theorem want_of_still {y : Relay} {t : RelayTiming} (h : y.state.moving = false) (hm : y.movement.isSome = y.state.moving)
    (hw : (y.want t pos).state.moving = false) : y.want t pos = atRest pos := by
  have hwant := wantedIn_want t pos y
  unfold wantedIn at hwant
  split at hwant
  next hconfirmed =>
    obtain ⟨hrest, hsound⟩ := hconfirmed.resolve_left (by rw [h]; decide)
    rw [hwant]
    exact atRest_iff.2 ⟨hrest, hsound, hm.trans h⟩
  next =>
    rw [hwant] at hw
    cases pos <;> cases hw

/-- A relay at rest open is left there as it is wanted open. -/
theorem want_opened (t : RelayTiming) : (atRest .opened).want t .opened = atRest .opened := rfl

/-! ## Relay sets (R57) -/

theorem guarded_of_opened (h : ∀ n, n ≠ .path → x.relays.get n = atRest .opened) : x.guarded := by
  refine ⟨fun r r' hr _ _ => .inl (h r hr), fun r hr hat => absurd (h r ?_) hat⟩
  rcases hr with rfl | rfl <;> decide

/-- The joining step as it begins, or the end of the normalisation (R57). -/
theorem rejoined_settled (t : RelayTiming) (hc : x.coherent) (hopen : ∀ n, n ≠ .path → x.relays.get n = atRest .opened)
    (hpath : x.relays.path.state.moving = false) : (x.rejoined t).Settled ∧ (x.rejoined t).coherent ∧
      ((x.rejoined t).normalising.isSome = true → (x.rejoined t).inService = x.inService) := by
  have hothers (n : RelayName) (hn : n ≠ .path) : (x.joined t).relays.get n = atRest .opened := by
    cases n with
    | path => exact absurd rfl hn
    | gnd => exact hopen .gnd hn
    | bat => exact hopen .bat hn
    | x0 => exact hopen .x0 hn
    | x1 => exact hopen .x1 hn
  have hcoherent : (x.joined t).coherent := by
    intro n
    cases n with
    | path => exact want_coherent t _ _ (hc .path)
    | gnd => exact hc .gnd
    | bat => exact hc .bat
    | x0 => exact hc .x0
    | x1 => exact hc .x1
  have hguarded : (x.joined t).guarded := guarded_of_opened hothers
  unfold RelaySet.rejoined
  split
  next hm =>
    refine ⟨⟨hguarded, nofun, nofun, nofun, fun _ => ⟨want_position t hpath, hothers⟩, fun _ n hn => ?_⟩, hcoherent, fun _ => rfl⟩
    exact congrArg (fun y : Relay => y.state.position) (hothers n hn)
  next hm =>
    have hclosed : (x.joined t).relays.path = atRest .closed :=
      want_of_still hpath (hc .path).1 (Bool.eq_false_iff.2 hm)
    refine ⟨settled_of_normal (fun n => ?_) rfl rfl, hcoherent, nofun⟩
    by_cases hn : n = .path
    · rw [hn, normalPosition, if_pos rfl]
      exact hclosed
    · rw [normalPosition, if_neg hn]
      exact hothers n hn

/-- A normalisation as it begins on a channel where nothing moves (R57). -/
theorem normalised_settled (t : RelayTiming) (hc : x.coherent) (hg : x.guarded)
    (hstill : ∀ n, (x.relays.get n).state.moving = false) : (x.normalised t).Settled ∧ (x.normalised t).coherent ∧
      ((x.normalised t).normalising.isSome = true → (x.normalised t).inService = x.inService) := by
  have hwant (n : RelayName) (hn : n ≠ .path) : (x.broken t).relays.get n = (x.relays.get n).want t .opened := by
    cases n with
    | path => exact absurd rfl hn
    | gnd | bat | x0 | x1 => rfl
  have hkeeps (n : RelayName) (hn : n ≠ .path) (hat : x.relays.get n = atRest .opened) :
      (x.broken t).relays.get n = atRest .opened := by
    rw [hwant n hn, hat, want_opened]
  have hcoherent : (x.broken t).coherent := by
    intro n
    by_cases hn : n = .path
    · subst hn
      exact hc .path
    · rw [hwant n hn]
      exact want_coherent t _ _ (hc n)
  unfold RelaySet.normalised
  split
  next hb =>
    refine ⟨⟨⟨fun r r' hr hr' hne => ?_, fun r hr hat => ?_⟩, nofun, nofun, fun _ => hstill .path, nofun, fun _ n hn => ?_⟩,
      hcoherent, fun _ => rfl⟩
    · exact (hg.1 r r' hr hr' hne).imp (hkeeps r hr) (hkeeps r' hr')
    · refine hg.2 r hr fun h => hat (hkeeps r ?_ h)
      rcases hr with rfl | rfl <;> decide
    · show ((x.broken t).relays.get n).state.position = .opened
      rw [hwant n hn]
      exact want_position t (hstill n)
  next hb =>
    refine rejoined_settled t hcoherent (fun n hn => ?_) (hstill .path)
    have hquiet : ((x.broken t).relays.get n).state.moving = false := by
      refine Bool.eq_false_iff.2 fun hm => hb (breaks_iff.2 ⟨n, hn, hm⟩)
    rw [hwant n hn] at hquiet ⊢
    exact want_of_still (hstill n) (hc n).1 hquiet

/-! ## A channel that normalises -/

/-- A FAILED record is at rest but for the channels it holds. -/
theorem Matrix.loose_of_failed (h : Matrix o s) (hf : (s.fault k).state = .failed) : Loose (s.fault k) :=
  ⟨h.shaped k, not_travels_of_failed hf, by rw [hf]; nofun, by rw [hf]; exact ⟨nofun, nofun⟩⟩

/-- A channel that normalises is held by a FAILED record or by none, and is settled. -/
theorem Matrix.normalising_settled (h : Matrix none s) (hn : (s.relaySet c).normalising.isSome = true) :
    (s.relaySet c).Settled ∧ ∀ k, (s.relaySet c).holder = some k → (s.fault k).state = .failed := by
  cases hk : (s.relaySet c).holder with
  | none => exact ⟨h.free c hk, nofun⟩
  | some k =>
    rcases h.held c k hk nofun with ⟨-, hcar⟩ | ⟨hf, hs, -⟩
    · rw [hcar.calm] at hn
      cases hn
    · exact ⟨hs, fun j hj => by cases hj; exact hf⟩

/-- The channel of a FAILED record changes, settled and with its holder. -/
theorem Matrix.updHeld (h : Matrix none s) {f : RelaySet → RelaySet} (hk : (s.relaySet c).holder = some k)
    (hholder : (f (s.relaySet c)).holder = some k) (hcoherent : (f (s.relaySet c)).coherent) :
    Matrix (some k) (s.updRelaySet c f) := by
  refine h.between.within rfl (fun d => ?_) (fun _ _ => rfl) rfl rfl rfl rfl
  rw [State.updRelaySet_relaySet]
  by_cases hd : c = d
  · subst hd
    rw [if_pos rfl]
    exact .inr ⟨hk, hholder, hcoherent⟩
  · rw [if_neg hd]
    exact .inl rfl

/-- A FAILED record comes back with its channels settled, one of them normalising. -/
theorem Matrix.reinstateFailed (h : Matrix (some k) s) (hf : (s.fault k).state = .failed)
    (hs : ∀ c, (s.relaySet c).holder = some k → (s.relaySet c).Settled)
    (hd : (s.relaySet d).holder = some k) (hn : (s.relaySet d).normalising.isSome = true) : Matrix none s :=
  h.reinstate ⟨(h.loose_of_failed hf).inOrder, fun ht => absurd ht (not_travels_of_failed hf),
    fun c hc => .inr ⟨hf, hs c hc, d, hd, hn⟩⟩

/-- The channels of a FAILED record are settled. -/
theorem Matrix.failed_settled (h : Matrix none s) (hf : (s.fault k).state = .failed) (hc : (s.relaySet c).holder = some k) :
    (s.relaySet c).Settled := by
  rcases h.held c k hc nofun with ⟨ht, -⟩ | ⟨-, hs, -⟩
  · exact absurd ht (not_travels_of_failed hf)
  · exact hs

theorem updRelaySet_settled {f : RelaySet → RelaySet} (hf : (f (s.relaySet c)).Settled)
    (hs : ∀ d, (s.relaySet d).holder = some k → (s.relaySet d).Settled) (d : Fin 24)
    (hd : ((s.updRelaySet c f).relaySet d).holder = some k) : ((s.updRelaySet c f).relaySet d).Settled := by
  rw [State.updRelaySet_relaySet] at hd ⊢
  split at hd
  next heq =>
    rw [if_pos heq]
    exact hf
  next hne =>
    rw [if_neg hne]
    exact hs d hd

/-- The relay set of a channel that goes on normalising changes. -/
theorem Matrix.renorm (h : Matrix none s) {f : RelaySet → RelaySet} (hn : (s.relaySet c).normalising.isSome = true)
    (hholder : (f (s.relaySet c)).holder = (s.relaySet c).holder) (hcoherent : (f (s.relaySet c)).coherent)
    (hsettled : (f (s.relaySet c)).Settled) (hstill : (f (s.relaySet c)).normalising.isSome = true)
    (hservice : (f (s.relaySet c)).inService = (s.relaySet c).inService) : Matrix none (s.updRelaySet c f) := by
  cases hk : (s.relaySet c).holder with
  | none => exact h.updFree hk (hholder.trans hk) hcoherent hsettled fun _ => hservice.trans (h.recovers c hk hn)
  | some k =>
    have hf := (h.normalising_settled hn).2 k hk
    have hself : (s.updRelaySet c f).relaySet c = f (s.relaySet c) := State.updRelaySet_relaySet_self ..
    exact (h.updHeld hk (hholder.trans hk) hcoherent).reinstateFailed (d := c) hf
      (updRelaySet_settled hsettled fun d hd => h.failed_settled hf hd) (by rw [hself, hholder, hk]) (by rw [hself]; exact hstill)

/-- The normalisation of a channel ends, and with the last of its channels the FAILED record lets go (R53, R57). -/
theorem Matrix.normEnds (h : Matrix none s) {f : RelaySet → RelaySet} (hn : (s.relaySet c).normalising.isSome = true)
    (hholder : (f (s.relaySet c)).holder = (s.relaySet c).holder) (hcoherent : (f (s.relaySet c)).coherent)
    (hsettled : (f (s.relaySet c)).Settled) (hover : (f (s.relaySet c)).normalising = none)
    (hrelays : z.relays = (s.updRelaySet c f).relays) (hbuses : z.buses = s.buses) (hfaults : z.faults = s.faults) :
    Matrix none (z.normEnded c) := by
  have hset (d : Fin 24) : z.relaySet d = (s.updRelaySet c f).relaySet d := congrArg (fun y => y.get d) hrelays
  have hself : z.relaySet c = f (s.relaySet c) := (hset c).trans (State.updRelaySet_relaySet_self ..)
  have hholder' : (z.relaySet c).holder = (s.relaySet c).holder := by rw [hself, hholder]
  cases hk : (s.relaySet c).holder with
  | none =>
    rw [normEnded_of_free (hholder'.trans hk)]
    refine (h.updFree hk (hholder.trans hk) hcoherent hsettled fun hsome => ?_).of_fields hfaults hrelays hbuses
    rw [hover] at hsome
    cases hsome
  | some k =>
    have hf := (h.normalising_settled hn).2 k hk
    have hzf : (z.fault k).state = .failed := by rw [fault_of_faults hfaults]; exact hf
    have hz : Matrix (some k) z := (h.updHeld hk (hholder.trans hk) hcoherent).of_fields hfaults hrelays hbuses
    have hzs (d : Fin 24) (hd : (z.relaySet d).holder = some k) : (z.relaySet d).Settled := by
      rw [hset] at hd ⊢
      exact updRelaySet_settled hsettled (fun d hd => h.failed_settled hf hd) d hd
    by_cases hleft : ∃ d, (z.relaySet d).holder = some k ∧ (z.relaySet d).normalising ≠ none
    · obtain ⟨d, hd, hdn⟩ := hleft
      rw [normEnded_of_held (hholder'.trans hk) hd hdn]
      exact hz.reinstateFailed hzf hzs hd (Option.isSome_iff_ne_none.2 hdn)
    · have hnone (d : Fin 24) (hd : (z.relaySet d).holder = some k) : (z.relaySet d).normalising = none := by
        by_contra hdn
        exact hleft ⟨d, hd, hdn⟩
      have hrelease : z.normEnded c = z.releaseHolders k := by
        rw [State.normEnded, hholder'.trans hk]
        refine if_neg (Bool.eq_false_iff.1 (List.any_eq_false.2 fun d _ => ?_))
        rw [Bool.and_eq_true, beq_iff_eq]
        rintro ⟨hd, hdn⟩
        rw [hnone d hd] at hdn
        cases hdn
      obtain ⟨hreleased, hnothing⟩ := hz.releaseHolders fun d hd => ⟨hzs d hd, hnone d hd⟩
      rw [hrelease]
      refine hreleased.reinstateLoose hnothing ?_
      rw [releaseHolders_fault]
      exact hz.loose_of_failed hzf

/-- A normalisation goes on with PATH, or ends (R57). -/
theorem Matrix.normFrom_one (h : Matrix none s) (hn : (s.relaySet c).normalising.isSome = true)
    (hopen : ∀ n, n ≠ .path → (s.relaySet c).relays.get n = atRest .opened)
    (hpath : (s.relaySet c).relays.path.state.moving = false) : Matrix none (s.normFrom c 1) := by
  obtain ⟨hsettled, hcoherent, hservice⟩ := rejoined_settled s.timing (h.coherent c) hopen hpath
  rw [Machine.normFrom_one]
  split
  next hm =>
    have hsome : ((s.relaySet c).rejoined s.timing).normalising.isSome = true := by rw [rejoined_normalising, if_pos hm]; rfl
    exact h.renorm hn (rejoined_holder _ _) hcoherent hsettled hsome (hservice hsome)
  next hm =>
    exact h.normEnds hn (rejoined_holder _ _) hcoherent hsettled (by rw [rejoined_normalising, if_neg hm]) rfl rfl rfl

/-- A normalisation fails (R58). -/
theorem Matrix.normFails (h : Matrix none s) (hn : (s.relaySet c).normalising.isSome = true)
    (hstill : ∀ n, ((s.relaySet c).relays.get n).state.moving = false) : Matrix none (s.normFails c) := by
  obtain ⟨hs, -⟩ := h.normalising_settled hn
  have hopened := hs.opened (.inl (Option.isSome_iff_ne_none.1 hn))
  refine h.normEnds (f := fun x => { x with normalising := none, inService := false }) hn rfl (h.coherent c)
    ⟨hs.guarded, nofun, fun _ _ => ?_, nofun, nofun, fun _ => hopened⟩ rfl (by simp) (by simp) (by simp)
  refine List.any_eq_false.2 fun r _ => ?_
  rw [hstill r]
  decide

theorem Matrix.normSucceeds (h : Matrix none s) (hn : (s.relaySet c).normalising.isSome = true)
    (hset : normalSet (s.relaySet c)) : Matrix none (s.normSucceeds c) :=
  h.normEnds (f := fun x => { x with normalising := none, inService := true }) hn rfl (h.coherent c)
    (settled_of_normal hset rfl rfl) rfl rfl rfl rfl

/-- What a normalisation does as a movement of its channel has ended (R57, R58). -/
theorem Matrix.normAdvance (h : Matrix none s) {m : NormStep} (hm : (s.relaySet c).normalising = some m) :
    Matrix none (s.normAdvance c m) := by
  have hn : (s.relaySet c).normalising.isSome = true := by rw [hm]; rfl
  obtain ⟨hs, -⟩ := h.normalising_settled hn
  cases m with
  | breaking =>
    have hpath := hs.breaking hm
    cases hb : (s.relaySet c).breaks with
    | true => rw [normAdvance_breaking_waits hb]; exact h
    | false =>
      have hstill (n : RelayName) (hr : n ≠ .path) : ((s.relaySet c).relays.get n).state.moving = false :=
        Bool.eq_false_iff.2 fun hmove => by rw [breaks_iff.2 ⟨n, hr, hmove⟩] at hb; cases hb
      by_cases hfail : ∃ n, n ≠ .path ∧ ((s.relaySet c).relays.get n).failed = true
      · rw [normAdvance_breaking_fails hb hfail]
        refine h.normFails hn fun n => ?_
        by_cases hr : n = .path
        · rw [hr]
          exact hpath
        · exact hstill n hr
      · have hsound (n : RelayName) (hr : n ≠ .path) : ((s.relaySet c).relays.get n).failed = false :=
          Bool.eq_false_iff.2 fun hf => hfail ⟨n, hr, hf⟩
        rw [normAdvance_breaking_next hb hsound]
        refine h.normFrom_one hn (fun n hr => ?_) hpath
        rw [atRest_of_still (h.coherent c n).1 (hstill n hr) (hsound n hr), hs.opened (.inl (by rw [hm]; nofun)) n hr]
  | joining =>
    obtain ⟨hclosed, hopen⟩ := hs.joining hm
    cases hmove : (s.relaySet c).relays.path.state.moving with
    | true =>
      have hwaits : s.stepMoving [(c, .path, .closed)] = true := (stepMoving_joining s c).trans hmove
      have hstays : s.normAdvance c .joining = s := if_pos hwaits
      rw [hstays]
      exact h
    | false =>
      rw [normAdvance_joining hmove]
      split
      next hf =>
        refine h.normFails hn fun n => ?_
        by_cases hr : n = .path
        · rw [hr]
          exact hmove
        · rw [hopen n hr]
          rfl
      next hf =>
        refine h.normSucceeds hn fun n => ?_
        by_cases hr : n = .path
        · have hat := atRest_of_still (h.coherent c .path).1 hmove (Bool.eq_false_iff.2 hf)
          rw [hr, normalPosition, if_pos rfl]
          exact hat.trans (congrArg atRest hclosed)
        · rw [normalPosition, if_neg hr]
          exact hopen n hr

end Sys2Proof.Machine
end

section
/-! Movements that end, and failed sequences, and what the Relay Matrix holds (R48, R49, R54, R55, R102). -/

namespace Sys2Proof

/-- The relay set of a channel once relay `r` has landed. -/
def RelaySet.landing (x : RelaySet) (r : RelayName) (failed : Bool) : RelaySet :=
  { x with relays := x.relays.upd r fun y => y.settle failed }

end Sys2Proof

namespace Sys2Proof.Machine

variable {s t u v w z : State} {j k : Fin 64} {c d p : Fin 24} {n m r : RelayName} {pos : Position} {x : RelaySet}
  {q : Sequence} {l l' : List Wish} {i : Nat} {f g : FaultRecord} {o : Option (Fin 64)} {b failed : Bool}

/-! ## A relay that lands (R48, R49) -/

theorem settle_position (y : Relay) (b : Bool) : (y.settle b).state.position = y.state.position := by
  rw [Relay.settle]
  cases y.state <;> rfl

theorem landing_get (n : RelayName) : (x.landing r failed).relays.get n =
    if r = n then (x.relays.get n).settle failed else x.relays.get n := get_upd ..

theorem landing_coherent (h : x.coherent) : (x.landing r failed).coherent := by
  intro n
  rw [landing_get]
  split
  · rw [settle_moving]
    exact ⟨rfl, nofun⟩
  · exact h n

theorem landing_position (n : RelayName) :
    ((x.landing r failed).relays.get n).state.position = (x.relays.get n).state.position := by
  rw [landing_get]
  split
  · exact settle_position _ _
  · rfl

theorem not_atRest_of_moving {y : Relay} (h : y.state.moving = true) : y ≠ atRest pos := by
  rintro rfl
  cases pos <;> cases h

/-- A relay of a settled channel that moves does so in a normalisation. -/
theorem normalising_of_moving (h : x.Settled) (hm : (x.relays.get r).state.moving = true) : x.normalising.isSome = true := by
  refine Option.isSome_iff_ne_none.2 fun hn => ?_
  cases hs : x.inService with
  | true => exact not_atRest_of_moving hm (h.normal hn hs r)
  | false =>
    have hstill := List.any_eq_false.1 (h.still hn hs) r (by cases r <;> decide)
    exact hstill hm

theorem landing_settled (h : x.Settled) (hm : (x.relays.get r).state.moving = true) :
    (x.landing r failed).Settled := by
  have hsome := normalising_of_moving h hm
  have hother {n : RelayName} (hn : r ≠ n) : (x.landing r failed).relays.get n = x.relays.get n :=
    (landing_get n).trans (if_neg hn)
  have hkeeps {n : RelayName} (hat : x.relays.get n = atRest .opened) :
      (x.landing r failed).relays.get n = atRest .opened := by
    rw [hother, hat]
    rintro rfl
    exact not_atRest_of_moving hm hat
  have hopened (n : RelayName) (hn : n ≠ .path) : ((x.landing r failed).relays.get n).state.position = .opened := by
    rw [landing_position]
    exact h.opened (.inl (Option.isSome_iff_ne_none.1 hsome)) n hn
  refine ⟨⟨fun a a' ha ha' hne => (h.guarded.1 a a' ha ha' hne).imp hkeeps hkeeps, fun a ha hat => ?_⟩,
    fun hn => absurd hn (Option.isSome_iff_ne_none.1 hsome), fun hn => absurd hn (Option.isSome_iff_ne_none.1 hsome),
    fun hn => ?_, fun hn => ⟨?_, fun n hp => hkeeps ((h.joining hn).2 n hp)⟩, fun _ => hopened⟩
  · have hpath := h.guarded.2 a ha fun h' => hat (hkeeps h')
    have hr : r ≠ .path := by
      rintro rfl
      have hmoves : x.relays.path.state.moving = true := hm
      rw [hpath] at hmoves
      cases hmoves
    exact (congrArg Relay.state (hother hr)).trans hpath
  · have hstill := h.breaking hn
    have hr : r ≠ .path := by
      rintro rfl
      have hmoves : x.relays.path.state.moving = true := hm
      rw [hstill] at hmoves
      cases hmoves
    exact (congrArg (fun y : Relay => y.state.moving) (hother hr)).trans hstill
  · exact (landing_position .path).trans (h.joining hn).1

/-- A record stays on its course as one of its relays lands. -/
theorem landing_course (h : s.onStep c l l') (hm : ((s.relaySet c).relays.get r).state.moving = true) :
    (s.landed c r failed).onStep c l l' := by
  intro n
  have hat := h n
  have hrelay : ((s.landed c r failed).relaySet c).relays.get n =
      if r = n then ((s.relaySet c).relays.get n).settle failed else (s.relaySet c).relays.get n := landed_get n
  rw [hrelay]
  split at hat
  next hname =>
    rw [if_pos hname]
    split
    · rw [settle_position]
      exact hat
    · exact hat
  next hname =>
    rw [if_neg hname, if_neg]
    · exact hat
    · rintro rfl
      exact not_atRest_of_moving hm hat

/-- A relay that moves lands. -/
theorem Matrix.landed (h : Matrix none s) (hm : ((s.relaySet c).relays.get r).state.moving = true) :
    Matrix none (s.landed c r failed) := by
  have hsettled (hs : (s.relaySet c).Settled) : Matrix none (s.landed c r failed) := by
    have hsome := normalising_of_moving hs hm
    exact h.renorm (f := fun y => y.landing r failed) hsome rfl (landing_coherent (h.coherent c)) (landing_settled hs hm)
      hsome rfl
  cases hk : (s.relaySet c).holder with
  | none => exact hsettled (h.free c hk)
  | some k =>
    rcases h.held c k hk nofun with ⟨ht, hcar⟩ | ⟨-, hs, -⟩
    · have hother {d : Fin 24} (hd : c ≠ d) : (s.landed c r failed).relaySet d = s.relaySet d := landed_ne hd
      have hself : (s.landed c r failed).relaySet c = (s.relaySet c).landing r failed := landed_self
      have hpass : Matrix (some k) (s.landed c r failed) := h.updHeld hk hk (landing_coherent (h.coherent c))
      have hholder (d : Fin 24) : ((s.landed c r failed).relaySet d).holder = (s.relaySet d).holder := by
        by_cases hd : c = d
        · subst hd
          rw [hself]
          rfl
        · rw [hother hd]
      have hholds := h.holds k nofun ht
      refine hpass.reinstate ⟨h.ordered k nofun, fun _ => ⟨fun d hd => (hholder d).trans (hholds.1 d hd), hholds.2⟩, fun d hd => .inl ⟨ht, ?_⟩⟩
      by_cases hcd : c = d
      · subst hcd
        refine ⟨?_, ?_, landing_course hcar.course hm⟩
        · rw [hself]
          exact hcar.calm
        · rw [hself]
          exact hcar.service
      · rw [hholder] at hd
        rcases h.held d k hd nofun with ⟨-, hcar'⟩ | ⟨hf, -⟩
        · exact ⟨by rw [hother hcd]; exact hcar'.calm, by rw [hother hcd]; exact hcar'.service,
            (onCourse_congr (hother hcd)).2 hcar'.course⟩
        · exact absurd ht (not_travels_of_failed hf)
    · exact hsettled hs

/-! ## A sequence whose movement has ended (R51, R54, R55) -/

/-- A record in its sequence travels, at a step of its sequence's direction. -/
theorem InOrder.of_seq (h : InOrder f) (hs : inSequence f) (hq : f.seq = some ⟨b, i⟩) :
    travels f ∧ f.state = sequenceState b ∧ i < (sequenceSteps f b).length := by
  rcases hs with hs | hs
  · obtain ⟨i', hq', hi⟩ := h.starting hs
    rw [hq] at hq'
    cases hq'
    exact ⟨⟨h.relay (.inr (.inl hs)), .inl hs⟩, hs, hi⟩
  · obtain ⟨i', hq', hi⟩ := h.stopping hs
    rw [hq] at hq'
    cases hq'
    exact ⟨⟨h.relay (.inr (.inr hs)), .inr (.inr hs)⟩, hs, hi⟩

/-- A travelling record's channels are on its course. -/
theorem Matrix.carried (h : Matrix none s) (ht : travels (s.fault k)) (hc : (s.relaySet c).holder = some k) :
    s.Carried c (s.fault k) := by
  rcases h.held c k hc nofun with ⟨-, hcar⟩ | ⟨hf, -⟩
  · exact hcar
  · exact absurd ht (not_travels_of_failed hf)

/-- Once a step is over the record's channels are at rest as it leaves them. -/
theorem Matrix.transit_of_step (h : Matrix none s) (ht : travels (s.fault k)) (hq : (s.fault k).seq = some ⟨b, i⟩)
    (hl : (sequenceSteps (s.fault k) b)[i]? = some l) (hdone : s.stepDone l) : Transit k (behind (s.fault k) b (i + 1)) s := by
  refine ⟨h.between, ht.1, h.holds k nofun ht, fun c hc => ?_⟩
  have hcar := h.carried ht hc
  have hnow : stepNow (s.fault k) = l := by rw [stepNow_of_seq hq, List.getD_eq_getElem?_getD, hl]; rfl
  have hon := onCourse_iff.1 hcar.course
  rw [stepsBehind_of_seq hq, hnow] at hon
  refine ⟨hcar.calm, hcar.service, fun n => ?_⟩
  rw [behind_succ hl]
  exact rest_of_onStep hon (h.coherent c) hdone n

/-- Nothing of the record moves once no movement of its step is in flight. -/
theorem still_of_course (h : s.onCourse c f) (hm : s.stepMoving (stepNow f) = false) (n : RelayName) :
    ((s.relaySet c).relays.get n).state.moving = false := by
  have hat := onCourse_iff.1 h n
  split at hat
  next hname =>
    obtain ⟨pos, hw⟩ := wishNames_iff.1 hname
    have hstill := List.any_eq_false.1 hm _ hw
    exact Bool.eq_false_iff.2 hstill
  next =>
    rw [hat]
    exact Bool.eq_false_iff.2 fun hmove => not_atRest_of_moving hmove rfl

/-- A sequence fails, and the channels of its record normalise (R55, R102). -/
theorem Matrix.sequenceFailed (h : Matrix none s) (ht : travels (s.fault k)) (hm : s.stepMoving (stepNow (s.fault k)) = false)
    {y : Wish} (hin : y ∈ stepNow (s.fault k)) (hf : (s.relay y).failed = true) : Matrix none (s.sequenceFailed k) := by
  obtain ⟨b, l, hl, hyl⟩ := mem_of_stepNow hin
  have hheld : (s.relaySet y.1).holder = some k := (h.holds k nofun ht).1 _ (wish_of_steps hl hyl).1
  have hstill (c : Fin 24) (hc : (s.relaySet c).holder = some k) (n : RelayName) :
      ((s.relaySet c).relays.get n).state.moving = false := still_of_course (h.carried ht hc).course hm n
  obtain ⟨honly, hset⟩ := sequenceFailed_spec (n := y.2.1) hheld (hstill _ hheld _) hf
  have hnorm (c : Fin 24) (hc : (s.relaySet c).holder = some k) :=
    normalised_settled s.timing (h.coherent c) (h.guarded c) (hstill c hc)
  have hfault (j : Fin 64) : (s.sequenceFailed k).fault j = (s.enterFailed k .relayTimeout).fault j :=
    fault_of_faults (by rw [honly]) j
  have hself : (s.sequenceFailed k).fault k =
      { s.fault k with state := .failed, failReason := some .relayTimeout, seq := none } := by
    rw [hfault, enterFailed_fault, if_pos rfl]
  have hpass : Matrix (some k) (s.sequenceFailed k) := by
    refine h.between.within ?_ (fun c => ?_) (fun j hj => ?_) (by rw [hself]) (by rw [hself]) (by rw [hself]) (by rw [hself])
    · rw [honly]
      simp
    · rw [hset]
      split
      next hc => exact .inr ⟨hc, by rw [normalised_holder, hc], (hnorm c hc).2.1⟩
      next => exact .inl rfl
    · rw [hfault, enterFailed_fault, if_neg hj]
  have hholder (c : Fin 24) : ((s.sequenceFailed k).relaySet c).holder = (s.relaySet c).holder := by
    rw [hset]
    split
    · exact normalised_holder _ _
    · rfl
  refine hpass.reinstateFailed (d := y.1) (by rw [hself]) (fun c hc => ?_) ((hholder _).trans hheld) ?_
  · rw [hholder] at hc
    rw [hset, if_pos hc]
    exact (hnorm c hc).1
  · rw [hset, if_pos hheld]
    exact Option.isSome_iff_ne_none.2 (normalised_of_failed (hstill _ hheld _) hf)

/-- What a sequence does as one of its movements has ended (R51, R54, R55). -/
theorem Matrix.seqAdvance (h : Matrix none s) (hs : inSequence (s.fault k)) (hq : (s.fault k).seq = some q) :
    Matrix none (s.seqAdvance k q) := by
  obtain ⟨b, i⟩ := q
  obtain ⟨ht, hstate, hi⟩ := (h.ordered k nofun).of_seq hs hq
  have hat : (sequenceSteps (s.fault k) b)[i]? = some (sequenceSteps (s.fault k) b)[i] := List.getElem?_eq_getElem hi
  obtain ⟨l, hl⟩ : ∃ l, l = (sequenceSteps (s.fault k) b)[i] := ⟨_, rfl⟩
  rw [← hl] at hat
  have hget : (sequenceSteps (s.fault k) b).getD i [] = l := by rw [List.getD_eq_getElem?_getD, hat]; rfl
  have hnow : stepNow (s.fault k) = l := (stepNow_of_seq hq).trans hget
  cases hm : s.stepMoving l with
  | true =>
    rw [seqAdvance_waits (q := ⟨b, i⟩) hget hm]
    exact h
  | false =>
    cases hf : s.stepFailed l with
    | true =>
      obtain ⟨y, hy, hyf⟩ := List.any_eq_true.1 hf
      rw [seqAdvance_fails (q := ⟨b, i⟩) hget hm hf]
      exact h.sequenceFailed ht (by rw [hnow]; exact hm) (by rw [hnow]; exact hy) hyf
    | false =>
      have hdone : s.stepDone l := fun w hw =>
        ⟨Bool.eq_false_iff.2 (List.any_eq_false.1 hm w hw), Bool.eq_false_iff.2 (List.any_eq_false.1 hf w hw)⟩
      have htransit := h.transit_of_step ht hq hat hdone
      rw [seqAdvance_next (q := ⟨b, i⟩) hget hm hf]
      cases b with
      | true =>
        refine htransit.goOn (done := State.stopComplete) hstate fun z hz hover => ?_
        rw [behind_stop, ← hz] at hover
        exact hover.stopComplete (by rw [hz, hstate]; nofun)
      | false =>
        refine htransit.goOn (done := State.startComplete) hstate fun z hz hover => ?_
        rw [behind_start, ← hz] at hover
        exact hover.startComplete

/-- A movement that has ended is handed to whatever commanded it (R49). -/
theorem Matrix.movementEnded (h : Matrix none s) (hb : Booked [] s) (c : Fin 24) : Matrix none (s.movementEnded c) := by
  obtain ⟨n, hn, heq⟩ | ⟨k, q, -, -, hq, heq⟩ | ⟨-, -, heq⟩ := movementEnded_cases s c <;> rw [heq]
  · exact h.normAdvance hn
  · exact h.seqAdvance (hb.seq k (by rw [hq]; rfl)) hq
  · exact h

theorem Matrix.takeMoveComplete (h : Matrix none s) (hb : Booked [] s) (c : Fin 24) (r : RelayName) :
    Matrix none (s.takeMoveComplete c r) := by
  unfold State.takeMoveComplete
  split
  next hends => exact (h.landed (failed := false) (completes_moving hends)).movementEnded (hb.updRelaySet c _) c
  · exact h

theorem Matrix.takeMoveFail (h : Matrix none s) (hb : Booked [] s) (c : Fin 24) (r : RelayName) :
    Matrix none (s.takeMoveFail c r) := by
  unfold State.takeMoveFail
  split
  next hends => exact (h.landed (failed := true) (fails_moving hends)).movementEnded (hb.updRelaySet c _) c
  · exact h

end Sys2Proof.Machine
end

section
/-! The take of a granted record, and the wait list (R52, R95 to R98). -/

namespace Sys2Proof.Machine

variable {s t u v w z : State} {j k : Fin 64} {c d p : Fin 24} {n m r : RelayName} {pos : Position} {x : RelaySet}
  {q : Sequence} {l l' : List Wish} {i : Nat} {f g : FaultRecord} {o : Option (Fin 64)} {b : Bool}

/-- What a record needs becomes its own: channels that nobody holds, and a cross bus for PIN_SHORT (R53). -/
structure Granted (s : State) (k : Fin 64) (t : State) : Prop where
  sets : ∀ c, t.relaySet c = if c ∈ needs (s.fault k) then { s.relaySet c with holder := some k } else s.relaySet c
  free : ∀ c ∈ needs (s.fault k), (s.relaySet c).holder = none
  nothing : s.holdsNothing k
  others : ∀ j, j ≠ k → t.fault j = s.fault j
  bus : ∃ x, t.fault k = { s.fault k with bus := x }
  kept : ∀ b j, s.buses.get b = some j → t.buses.get b = some j
  taken : ∀ b j, t.buses.get b = some j → s.buses.get b = some j ∨
    j = k ∧ (s.fault k).kind = .pinShort ∧ (t.fault k).bus = some b
  pins : (s.fault k).kind = .pinShort → ∃ b, (t.fault k).bus = some b ∧ t.buses.get b = some k

theorem Granted.holder (h : Granted s k t) (hc : c ∈ needs (s.fault k)) : (t.relaySet c).holder = some k := by
  rw [h.sets, if_pos hc]

/-- A channel that another record holds, or that nobody holds afterwards, is as it was. -/
theorem Granted.unchanged (h : Granted s k t) (hc : (t.relaySet c).holder ≠ some k) : t.relaySet c = s.relaySet c := by
  by_cases hn : c ∈ needs (s.fault k)
  · exact absurd (h.holder hn) hc
  · rw [h.sets, if_neg hn]

theorem Granted.heldBefore (h : Granted s k t) (hj : (s.relaySet c).holder = some j) : t.relaySet c = s.relaySet c := by
  rw [h.sets, if_neg]
  intro hc
  rw [h.free c hc] at hj
  cases hj

theorem Granted.mem_needs (h : Granted s k t) (hc : (t.relaySet c).holder = some k) : c ∈ needs (s.fault k) := by
  by_contra hn
  rw [h.sets, if_neg hn] at hc
  exact h.nothing c hc

theorem Granted.matrix (h : Granted s k t) (hs : Matrix none s) : Matrix (some k) t := by
  obtain ⟨x, hbus⟩ := h.bus
  have hne {j : Fin 64} (hjk : j ≠ k) {c : Fin 24} (hj : (t.relaySet c).holder = some j) : t.relaySet c = s.relaySet c :=
    h.unchanged (by rw [hj]; exact fun heq => hjk (Option.some.inj heq))
  refine ⟨fun c => ?_, fun c j hj => ?_, fun c j hj ho => ?_, fun c hc => ?_, fun c hc => ?_, fun b j hb => ?_,
    fun j => ?_, fun j ho => ?_, fun j ho ht => ?_⟩
  · rw [h.sets]
    split
    · exact hs.coherent c
    · exact hs.coherent c
  · by_cases hjk : j = k
    · subst hjk
      rw [hbus]
      exact mem_needs_iff.1 (h.mem_needs hj)
    · rw [h.others j hjk]
      exact hs.named c j (hne hjk hj ▸ hj)
  · have hjk : j ≠ k := fun heq => ho (by rw [heq])
    have hj' := hne hjk hj ▸ hj
    exact heldWell_congr (congrArg FaultRecord.role (h.others j hjk)) (fun _ => h.heldBefore) hj' (hs.held c j hj' nofun)
  · have heq := h.unchanged (c := c) (by rw [hc]; nofun)
    rw [heq] at hc ⊢
    exact hs.free c hc
  · have heq := h.unchanged (c := c) (by rw [hc]; nofun)
    rw [heq] at hc ⊢
    exact hs.recovers c hc
  · rcases h.taken b j hb with hb' | ⟨rfl, hkind, hown⟩
    · obtain ⟨hkind, hjb, d, hd⟩ := hs.buses b j hb'
      have hjk : j ≠ k := by
        rintro rfl
        exact h.nothing d hd
      rw [h.others j hjk]
      exact ⟨hkind, hjb, d, by rw [h.heldBefore hd]; exact hd⟩
    · exact ⟨by rw [hbus]; exact hkind, hown, (s.fault j).target, h.holder (mem_needs_iff.2 (.inl rfl))⟩
  · by_cases hjk : j = k
    · subst hjk
      rw [hbus]
      exact hs.shaped j
    · rw [h.others j hjk]
      exact hs.shaped j
  · rw [h.others j fun heq => ho (by rw [heq])]
    exact hs.ordered j nofun
  · have hjk : j ≠ k := fun heq => ho (by rw [heq])
    exact holds_congr (congrArg FaultRecord.role (h.others j hjk)) (fun d hd => by rw [h.heldBefore hd]; exact hd)
      (fun b hb => h.kept b j hb) (hs.holds j nofun (h.others j hjk ▸ ht))

/-- A granted record in service has its channels at rest in their normal sets (R47, R98). -/
theorem Granted.transit (h : Granted s k t) (hs : Matrix none s) (hr : (s.fault k).kind.electronic = false)
    (hin : ∀ c ∈ needs (s.fault k), (s.relaySet c).inService = true) : Transit k [] t := by
  obtain ⟨x, hbus⟩ := h.bus
  refine ⟨h.matrix hs, by rw [hbus]; exact hr, ⟨fun c hc => ?_, fun hk => ?_⟩, fun c hc => ?_⟩
  · rw [hbus] at hc
    exact h.holder hc
  · refine h.pins ?_
    rw [hbus] at hk
    exact hk
  · have hneed := h.mem_needs hc
    have hfree := h.free c hneed
    have hservice := hin c hneed
    have hcalm : (s.relaySet c).normalising = none := by
      by_contra hn
      rw [hs.recovers c hfree (Option.isSome_iff_ne_none.2 hn)] at hservice
      cases hservice
    rw [h.sets, if_pos hneed]
    exact ⟨hcalm, hservice, fun n => (hs.free c hfree).normal hcalm hservice n⟩

/-- The start sequence of a granted record begins (R52, R54). -/
theorem Transit.beginStart (h : Transit k [] s) : Matrix none (s.beginStart k) := by
  have hself : (s.updFault k fun r => { r with state := .starting }).fault k = { s.fault k with state := .starting } :=
    (updFault_fault _ k).trans (if_pos rfl)
  have hstart : Transit k (behind ((s.updFault k fun r => { r with state := .starting }).fault k) false 0)
      (s.updFault k fun r => { r with state := .starting }) := h.updFault rfl rfl rfl rfl
  refine hstart.goOn (done := State.startComplete) (by rw [hself]; rfl) fun z hz hover => ?_
  rw [behind_start, ← hz] at hover
  exact hover.startComplete

theorem heldBy_relaySet (c : Fin 24) : (s.heldBy k).relaySet c =
    if c ∈ needs (s.fault k) then { s.relaySet c with holder := some k } else s.relaySet c := by
  have hset : (s.heldBy k).relaySet c =
      if (needs (s.fault k)).contains c then { s.relaySet c with holder := some k } else s.relaySet c := mapV_get ..
  rw [hset]
  simp only [List.contains_iff_mem]

theorem heldBy_kept (s : State) (k : Fin 64) : (s.heldBy k).faults = s.faults ∧ (s.heldBy k).buses = s.buses := by
  simp only [State.heldBy, and_self]

theorem heldBy_freeBus : (s.heldBy k).freeBus = s.freeBus := by
  obtain ⟨-, hbuses⟩ := heldBy_kept s k
  rw [State.freeBus, State.freeBus, hbuses]

theorem heldBy_granted (hfree : ∀ c ∈ needs (s.fault k), (s.relaySet c).holder = none) (hk : s.holdsNothing k)
    (hkind : (s.fault k).kind ≠ .pinShort) : Granted s k (s.heldBy k) := by
  obtain ⟨hfaults, hbuses⟩ := heldBy_kept s k
  exact ⟨heldBy_relaySet, hfree, hk, fun j _ => fault_of_faults hfaults j, ⟨(s.fault k).bus, fault_of_faults hfaults k⟩,
    fun _ _ hb => by rw [hbuses]; exact hb, fun _ _ hb => .inl (by rw [hbuses] at hb; exact hb), fun h => absurd h hkind⟩

theorem put_get (y : BusHolders) (b b' : Bus) (j : Option (Fin 64)) :
    (y.put b j).get b' = if b = b' then j else y.get b' := by
  cases b <;> cases b' <;> rfl

theorem withBus_granted {b : Bus} (hfree : ∀ c ∈ needs (s.fault k), (s.relaySet c).holder = none) (hk : s.holdsNothing k)
    (hkind : (s.fault k).kind = .pinShort) (hb : s.buses.get b = none) : Granted s k ((s.heldBy k).withBus k b) := by
  obtain ⟨hfaults, hholders⟩ := heldBy_kept s k
  have hheld := heldBy_relaySet (s := s) (k := k)
  generalize s.heldBy k = y at hfaults hholders hheld
  have hself : (y.withBus k b).fault k = { s.fault k with bus := some b } := by
    rw [withBus_fault, if_pos rfl, fault_of_faults hfaults]
  have hother {j : Fin 64} (hj : j ≠ k) : (y.withBus k b).fault j = s.fault j := by
    rw [withBus_fault, if_neg hj, fault_of_faults hfaults]
  have hset (c : Fin 24) : (y.withBus k b).relaySet c = y.relaySet c := rfl
  have hbuses (b' : Bus) : (y.withBus k b).buses.get b' = if b = b' then some k else s.buses.get b' := by
    rw [← hholders]
    exact put_get _ b b' (some k)
  refine ⟨fun c => (hset c).trans (hheld c), hfree, hk, fun j hj => hother hj, ⟨some b, hself⟩, fun b' j hj => ?_,
    fun b' j hj => ?_, fun _ => ⟨b, by rw [hself], by rw [hbuses, if_pos rfl]⟩⟩
  · rw [hbuses, if_neg]
    · exact hj
    · rintro rfl
      rw [hb] at hj
      cases hj
  · rw [hbuses] at hj
    split at hj
    next heq => exact .inr ⟨(Option.some.inj hj).symm, hkind, by rw [hself, heq]⟩
    next => exact .inl hj

/-- The first free cross bus is free. -/
theorem get_of_freeBus {b : Bus} (h : s.freeBus = some b) : s.buses.get b = none := by
  unfold State.freeBus at h
  split_ifs at h with h0 h1
  · cases h
    exact h0
  · cases h
    exact h1

/-- A granted record is taken (R52, R98). -/
theorem Matrix.take (h : Matrix none s) (hw : (s.fault k).state = .waiting) (hfree : s.needsFree (s.fault k) = true) :
    Matrix none (s.take k) := by
  have hk : s.holdsNothing k := h.holdsNothing nofun (not_travels_of_state (by rw [hw]; exact ⟨nofun, nofun, nofun⟩))
    (by rw [hw]; nofun)
  have hr := (h.ordered k nofun).relay (.inl hw)
  unfold State.needsFree at hfree
  rw [Bool.and_eq_true, List.all_eq_true] at hfree
  obtain ⟨hchannels, hbus⟩ := hfree
  have hnone (c : Fin 24) (hc : c ∈ needs (s.fault k)) : (s.relaySet c).holder = none := by simpa using hchannels c hc
  rw [take_eq]
  split_ifs with hout hbattery hkind
  · exact h.enterFailed hk _
  · exact h.enterFailed hk _
  all_goals
    have hin (c : Fin 24) (hc : c ∈ needs (s.fault k)) : (s.relaySet c).inService = true := by
      by_contra hs
      exact hout (outOfService_eq_true (Machine.mem_needs.1 hc) (by simpa using hs))
  · obtain ⟨b, hb⟩ : ∃ b, s.freeBus = some b := by
      rcases Bool.or_eq_true .. ▸ hbus with hne | hsome
      · exact absurd hkind (by simpa using hne)
      · exact Option.isSome_iff_exists.1 hsome
    have htaken : (s.heldBy k).withFreeBus k = (s.heldBy k).withBus k b := by
      unfold State.withFreeBus
      rw [heldBy_freeBus, hb]
    rw [htaken]
    exact ((withBus_granted hnone hk hkind (get_of_freeBus hb)).transit h hr hin).beginStart
  · exact ((heldBy_granted hnone hk hkind).transit h hr hin).beginStart

/-! ## The wait list (R95 to R98) -/

/-- The rest of a pass. -/
theorem Matrix.examineRest (l : List (Fin 64)) : ∀ {acc : State × List (Fin 64)}, Matrix none acc.1 →
    Booked (l ++ acc.2) acc.1 → Matrix none (l.foldl examineOne acc).1 := by
  induction l with
  | nil => exact fun h _ => h
  | cons k l ih =>
    rintro ⟨u, kept⟩ h hb
    rw [List.foldl_cons]
    unfold examineOne
    dsimp only
    split
    next hfree => exact ih (acc := (u.take k, kept)) (h.take (Booked.waiting hb) hfree.1) (Booked.take hb)
    next =>
      refine ih (acc := (u, kept ++ [k])) h (hb.perm ?_)
      rw [← List.append_assoc]
      exact List.perm_append_singleton k _

theorem Matrix.examine (h : Matrix none s) (hb : Booked [] s) : Matrix none s.examine := by
  have hpass : Matrix none (s.wholeList.foldl examineOne
      ({ s with waitList := [], joining := [], examineDue := false }, [])).1 :=
    Matrix.examineRest _ (h.of_fields rfl rfl rfl) hb.beginPass
  exact hpass.of_fields rfl rfl rfl

theorem Matrix.settleFuel (n : Nat) : ∀ {s : State}, Matrix none s → Booked [] s → Matrix none (settleFuel n s) := by
  induction n with
  | zero => exact fun h _ => h
  | succ n ih =>
    intro s h hb
    unfold Machine.settleFuel
    split
    · exact ih (h.examine hb) hb.examine
    · exact h

theorem Matrix.settle (h : Matrix none s) (hb : Booked [] s) : Matrix none s.settle := h.settleFuel 65 hb

end Sys2Proof.Machine
end

section
/-! Entry to SAFE, requests, events and ticks, and what the Relay Matrix holds; O12. -/

namespace Sys2Proof.Machine

variable {s t u v w z : State} {j k : Fin 64} {c d p : Fin 24} {n m r : RelayName} {pos : Position} {x : RelaySet}
  {q : Sequence} {l l' : List Wish} {i : Nat} {f g : FaultRecord} {o : Option (Fin 64)} {b : Bool}

/-! ## Entry to SAFE and releases (R75, R113) -/

theorem Booked.active_unsequenced {y : List (Fin 64)} (h : Booked y s) (ha : (s.fault k).state = .active) :
    (s.fault k).seq = none := by
  by_contra hq
  rcases h.seq k (Option.isSome_iff_ne_none.2 hq) with hs | hs <;> rw [ha] at hs <;> cases hs

theorem Matrix.noteRelease (h : Matrix o s) : Matrix o (s.updFault k fun r => { r with releasePending := true }) :=
  h.updFault rfl

/-- An ACTIVE electronic record ends. -/
theorem Matrix.endElectronic (h : Matrix none s) (ha : (s.fault k).state = .active)
    (he : (s.fault k).kind.electronic = true) : Matrix none (s.endActivation k) := by
  refine h.between.endActivation (h.holdsNothing nofun (fun ht => ?_) (by rw [ha]; nofun)) (by rw [ha]; nofun)
  rw [ht.1] at he
  cases he

theorem Matrix.safeRecord (h : Matrix none s) (hb : Booked [] s) (k : Fin 64) : Matrix none (s.safeRecord k) := by
  have hresting {y : FaultState} (hk : (s.fault k).state = y) (hy : y ≠ .starting ∧ y ≠ .active ∧ y ≠ .stopping)
      (hf : y ≠ .failed) : s.holdsNothing k :=
    h.holdsNothing nofun (not_travels_of_state (by rw [hk]; exact hy)) (by rw [hk]; exact hf)
  unfold State.safeRecord
  split
  next hk => exact h.enterDone (hresting hk ⟨nofun, nofun, nofun⟩ nofun)
  next hk =>
    have hleft : Matrix none (s.leaveList k) := h.of_fields rfl rfl rfl
    exact hleft.enterDone (holdsNothing_congr rfl (hresting hk ⟨nofun, nofun, nofun⟩ nofun))
  · exact h.noteRelease
  · exact h.noteRelease
  next hk =>
    have hself : (s.updFault k fun r => { r with releasePending := true }).fault k =
        { s.fault k with releasePending := true } := (updFault_fault _ k).trans (if_pos rfl)
    dsimp only
    split
    next he => exact h.noteRelease.endElectronic (by rw [hself]; exact hk) he
    next he =>
      exact h.noteRelease.beginStop (by simpa using he) (by rw [hself]; exact hk) (by rw [hself]; exact hb.active_unsequenced hk)
  all_goals exact h

theorem Matrix.safeFaults (h : Matrix none s) (hb : Booked [] s) : Matrix none s.safeFaults := by
  unfold State.safeFaults
  generalize List.finRange 64 = l
  induction l generalizing s with
  | nil => exact h
  | cons k l ih => exact ih (h.safeRecord hb k) (hb.safeRecord k)

theorem Matrix.takeOnCapture (h : Matrix none s) (k : Fin 64) : Matrix none (s.takeOnCapture k) := by
  unfold State.takeOnCapture
  split
  · exact h.fireFuel 65 (idle_none s)
  · exact h

theorem Matrix.fireCounted (h : Matrix none s) : Matrix none s.fireCounted := by
  unfold State.fireCounted
  split
  · have hfold (l : List Event) : ∀ {u : State}, Matrix none u → Matrix none (l.foldl takeCaptureTrigger u) := by
      induction l with
      | nil => exact fun hu => hu
      | cons e l ih =>
        intro u hu
        refine ih ?_
        cases e with
        | onCapture k => exact hu.takeOnCapture k
        | _ => exact hu
    exact hfold _ (h.of_fields rfl rfl rfl)
  · exact h

theorem Matrix.enterSafe (h : Matrix none s) (hb : Booked [] s) (why : SafeCause) : Matrix none (s.enterSafe why) := by
  by_cases hm : s.run.mode = .run
  · have hentry : Matrix none (s.safeEntry why).haltGenerators :=
      h.fireCounted.of_fields (by simp [State.safeEntry]) (by simp [State.safeEntry]) (by simp [State.safeEntry])
    have hbooked : Booked [] (s.safeEntry why).haltGenerators :=
      hb.fireCounted.of_ledger (ledger_of_fields (by simp [State.safeEntry]) (by simp [State.safeEntry])
        (by simp [State.safeEntry])) (by simp [State.safeEntry])
    rw [enterSafe_eq why hm]
    exact (hentry.safeFaults hbooked).of_fields (by simp) (by simp) (by simp)
  · rw [enterSafe_of_not_run why hm]
    exact h

/-! ## Requests -/

theorem Matrix.judgedForStop (h : Matrix none s) (hb : Booked [] s) : Matrix none s.judgedForStop := by
  unfold State.judgedForStop
  split
  · exact h.fireCounted.settle hb.fireCounted
  · exact h

/-- A record that is not in use and holds no channel may be written anew (R73). -/
theorem Matrix.holdsNothing_of_not_busy (h : Matrix none s) (hk : s.recordBusy k = false) : s.holdsNothing k := by
  intro c hc
  have hnot := Bool.eq_false_iff.1 hk
  rw [ne_eq, recordBusy_iff, not_or] at hnot
  rcases h.held c k hc nofun with ⟨⟨-, hs⟩, -⟩ | ⟨hf, -⟩
  · refine hnot.1 ?_
    rcases hs with hs | hs | hs <;> rw [hs] <;> rfl
  · exact hnot.2 ⟨hf, c, hc⟩

theorem judgeFault_loose {y : FaultArgs} (h : judgeFault s k y = some f) : Loose f := by
  obtain ⟨c, kind, a, p, e, d, -, -, -, hp, -, -, -, rfl⟩ := judgeFault_eq_some_iff.1 h
  refine ⟨?_, not_travels_of_state ⟨nofun, nofun, nofun⟩, nofun, nofun, nofun⟩
  unfold judgePartner at hp
  split at hp
  next hkind =>
    split at hp
    next p' hp' =>
      split at hp
      next => cases hp
      next hne =>
        cases hp
        exact ⟨⟨fun _ => rfl, fun _ => hkind⟩, fun heq => hne (Option.some.inj heq)⟩
    next => cases hp
  next hkind =>
    cases hp
    exact ⟨⟨fun hk => absurd hk hkind, nofun⟩, nofun⟩

theorem loose_fresh : Loose {} :=
  ⟨⟨⟨nofun, nofun⟩, nofun⟩, not_travels_of_state ⟨nofun, nofun, nofun⟩, nofun, nofun, nofun⟩

/-- The recovery of out-of-service channels begins (R60). -/
theorem Matrix.recover (h : Matrix none s) : Matrix none s.recover := by
  obtain ⟨honly, hrecovers, hstays⟩ := recover_spec s
  refine h.aside (by rw [honly]) (by rw [honly]) fun c => ?_
  by_cases hc : s.recovers c
  · obtain ⟨hout, -, hnorm, hfree⟩ := id hc
    have hs := h.free c hfree
    have hstill (n : RelayName) : ((s.relaySet c).relays.get n).state.moving = false :=
      Bool.eq_false_iff.2 (List.any_eq_false.1 (hs.still hnorm hout) n (by cases n <;> decide))
    obtain ⟨hsettled, hcoherent, hservice⟩ := normalised_settled s.timing (h.coherent c) hs.guarded hstill
    rw [hrecovers c hc]
    exact .inr ⟨hfree, by rw [normalised_holder, hfree], hcoherent, hsettled, fun hn => (hservice hn).trans hout⟩
  · exact .inl (hstays c hc)

theorem Matrix.restoreDrivers (h : Matrix o s) : Matrix o s.restoreDrivers :=
  h.of_fields (by simp) (by simp) (by simp)

theorem Matrix.recoveries (h : Matrix none s) (a : Port) (y : BitVec 9) : Matrix none (s.recoveries a y) := by
  cases a with
  | M => exact h
  | B =>
    rw [recoveries_B]
    split
    · split
      · exact h.restoreDrivers.recover
      · exact h.recover
    · split
      · exact h.restoreDrivers
      · exact h

theorem leaves_matrix (hl : Leaves s t) (h : Matrix none s) (hb : Booked [] s) : Matrix none t := by
  cases hl with
  | counted => exact h.judgedForStop hb
  | stop _ _ _ =>
    exact (h.judgedForStop hb).of_fields (by simp [State.stopRun]) (by simp [State.stopRun]) (by simp [State.stopRun])
  | enterSafe _ => exact (h.enterSafe hb _).settle (hb.enterSafe _)
  | reset => exact (matrixLaw_iff.1 reset_matrixLaw).of_fields rfl rfl rfl
  | deadline m _ _ => exact h.of_fields rfl rfl rfl
  | arm k y r hk hr => exact h.loosen (h.holdsNothing_of_not_busy hk) (judgeFault_loose hr)
  | clear k hk => exact h.loosen (h.holdsNothing_of_not_busy hk) loose_fresh
  | release k => rw [release_eq_safeRecord]; exact (h.safeRecord hb k).settle (hb.safeRecord k)
  | live l =>
    refine h.of_fields ?_ ?_ ?_ <;> rw [liveUpdated_frame]
  | stepMark => exact h.of_fields (by rw [marked_frame]) (by rw [marked_frame]) (by rw [marked_frame])
  | channel c y _ =>
    have hw : Matrix none (s.fieldsWritten c y) := by
      refine h.of_fields ?_ ?_ ?_ <;> rw [fieldsWritten_frame]
    split
    · exact hw
    · exact hw.of_fields (by simp) (by simp) (by simp)
  | force c y =>
    have hw : Matrix none (s.forcedWritten c y) := by
      refine h.of_fields ?_ ?_ ?_ <;> rw [forcedWritten_frame]
    exact hw.of_fields (by simp) (by simp) (by simp)
  | transfer y _ _ _ _ =>
    refine h.of_fields ?_ ?_ ?_ <;> rw [beginTransfer_frame]
  | queueReplay y d _ _ _ =>
    refine h.of_fields ?_ ?_ ?_ <;> rw [enqueue_frame]
  | stopReplay y =>
    have hd : Matrix none ((s.discardAll y).took (.replayAdvance y)) := by
      refine h.of_fields ?_ ?_ ?_ <;> rw [discardAll_frame] <;> rfl
    have hbooked : Booked [] ((s.discardAll y).took (.replayAdvance y)) := by
      refine hb.of_fields ?_ ?_ ?_ ?_ <;> rw [discardAll_frame] <;> rfl
    exact hd.settle hbooked
  | clearNotices a y => exact Matrix.recoveries (h.of_fields (by simp) (by simp) (by simp)) a y
  | same | start _ | resume _ _ | speed _ _ _ | angleBase _ _ | active _ _ _ | staged _ _ _ | timing _ | define _ _ _ _ _ _
  | free _ _ _ | setReplay _ _ _ _ _ | setCapture _ _ _ _ | takeCaptures _ _ | enables _ _ =>
    exact h.of_fields (by simp) (by simp) (by simp)

/-! ## Events -/

theorem Matrix.countEdge (h : Matrix o s) (a : Fin 16) (rise : Bool) : Matrix o (s.countEdge a rise) := by
  refine h.ease (by simp) (by simp) fun j => .inl ?_
  rw [countEdge_fault]
  unfold edgeRecord
  (repeat' split) <;> rfl

theorem Matrix.edgeRecorded (h : Matrix o s) (a : Fin 16) (y : Bool) (st : Stamp) : Matrix o (s.edgeRecorded a y st) := by
  unfold State.edgeRecorded
  dsimp only
  refine Matrix.countEdge ?_ a (!y)
  split
  · exact h.of_fields (by simp) (by simp) (by simp)
  · exact h.of_fields (by simp) (by simp) (by simp)

theorem Matrix.takeCaptureReport (h : Matrix none s) (hb : Booked [] s) (a : Fin 16) : Matrix none (s.takeCaptureReport a) := by
  obtain heq | ⟨y, st, -, -, ⟨-, heq⟩ | ⟨-, heq⟩⟩ := takeCaptureReport_cases s a <;> rw [heq]
  · exact h
  · exact h.edgeRecorded a y st
  · exact (h.edgeRecorded a y st).enterSafe (hb.edgeRecorded a y st) _

theorem Matrix.updRun (h : Matrix o s) {f : RunControl → RunControl} : Matrix o (s.updRun f) := h.of_fields rfl rfl rfl

theorem Matrix.takeSafeLine (h : Matrix none s) (hb : Booked [] s) : Matrix none s.takeSafeLine := by
  unfold State.takeSafeLine
  dsimp only
  split_ifs
  · exact h.updRun.enterSafe (hb.updRun rfl) _
  · exact h.updRun
  · exact h

theorem Matrix.takeDeadline (h : Matrix none s) (hb : Booked [] s) : Matrix none s.takeDeadline := by
  have hmiss : Matrix none ((s.updRun fun r => { r with monitor := r.monitor.miss }).raiseBoth .deadlineMissed) :=
    (h.updRun (f := fun r => { r with monitor := r.monitor.miss })).of_fields (by simp) (by simp) (by simp)
  have hbooked : Booked [] ((s.updRun fun r => { r with monitor := r.monitor.miss }).raiseBoth .deadlineMissed) :=
    (hb.updRun (f := fun r => { r with monitor := r.monitor.miss }) rfl).of_fields (by simp) (by simp) (by simp) (by simp)
  unfold State.takeDeadline
  dsimp only
  split_ifs
  · exact hmiss.enterSafe hbooked _
  · exact hmiss
  · exact h

theorem Matrix.takeAtTime (h : Matrix none s) (k : Fin 64) : Matrix none (s.takeAtTime k) := by
  unfold State.takeAtTime
  dsimp only
  split
  · split
    · exact h.fireFuel 65 (idle_none s)
    · exact h
  all_goals exact h

theorem Matrix.takeDurationEnd (h : Matrix none s) (hb : Booked [] s) (k : Fin 64) : Matrix none (s.takeDurationEnd k) := by
  unfold State.takeDurationEnd
  dsimp only
  split
  next hk =>
    split
    next he => exact h.endElectronic hk.1 he
    next he => exact h.beginStop (by simpa using he) hk.1 (hb.active_unsequenced hk.1)
  · exact h

theorem Matrix.perform (h : Matrix none s) (hb : Booked [] s) (e : Event) : Matrix none (s.perform e) := by
  cases e with
  | moveComplete c r => exact h.takeMoveComplete hb c r
  | moveFail c r => exact h.takeMoveFail hb c r
  | atTime k => exact h.takeAtTime k
  | captureReport a => exact h.takeCaptureReport hb a
  | onCapture k => exact h.takeOnCapture k
  | durationEnd k => exact h.takeDurationEnd hb k
  | deadline => exact h.takeDeadline hb
  | safeLine => exact h.takeSafeLine hb
  | _ => exact h.of_fields (by simp [State.perform]) (by simp [State.perform]) (by simp [State.perform])

end Sys2Proof.Machine
end

section
/-! A tick, and O12. -/

namespace Sys2Proof

/-- Relay sets whose relays differ at most in how long they have been moving. -/
structure RelaySet.Like (x y : RelaySet) : Prop where
  service : x.inService = y.inService
  holder : x.holder = y.holder
  normalising : x.normalising = y.normalising
  state : ∀ n, (x.relays.get n).state = (y.relays.get n).state
  failed : ∀ n, (x.relays.get n).failed = (y.relays.get n).failed
  movement : ∀ n, (x.relays.get n).movement.isSome = (y.relays.get n).movement.isSome

end Sys2Proof

namespace Sys2Proof.Machine

variable {s t u v w z : State} {j k : Fin 64} {c d p : Fin 24} {n m r : RelayName} {pos : Position} {x y : RelaySet}
  {f g : FaultRecord} {o : Option (Fin 64)}

theorem like_atRest (h : x.Like y) : x.relays.get n = atRest pos ↔ y.relays.get n = atRest pos := by
  rw [atRest_iff, atRest_iff, h.state, h.failed, h.movement]

theorem like_path (h : x.Like y) : x.relays.path.state = y.relays.path.state := h.state .path

theorem like_coherent (h : x.Like y) (hy : y.coherent) : x.coherent := by
  intro n
  rw [h.movement, h.state, h.failed]
  exact hy n

theorem like_settled (h : x.Like y) (hy : y.Settled) : x.Settled := by
  have hat {n : RelayName} {pos : Position} := like_atRest (n := n) (pos := pos) h
  refine ⟨⟨fun r r' hr hr' hne => ?_, fun r hr hn => ?_⟩, fun hn hs r => ?_, fun hn hs => ?_, fun hn => ?_, fun hn => ?_,
    fun hor n hr => ?_⟩
  · rw [hat, hat]
    exact hy.guarded.1 r r' hr hr' hne
  · rw [like_path h]
    exact hy.guarded.2 r hr fun h' => hn (hat.2 h')
  · rw [h.normalising] at hn
    rw [h.service] at hs
    exact hat.2 (hy.normal hn hs r)
  · rw [h.normalising] at hn
    rw [h.service] at hs
    refine List.any_eq_false.2 fun r hr => ?_
    rw [h.state]
    exact List.any_eq_false.1 (hy.still hn hs) r hr
  · rw [h.normalising] at hn
    rw [like_path h]
    exact hy.breaking hn
  · rw [h.normalising] at hn
    rw [like_path h]
    exact ⟨(hy.joining hn).1, fun n hr => hat.2 ((hy.joining hn).2 n hr)⟩
  · rw [h.normalising, h.service] at hor
    rw [h.state]
    exact hy.opened hor n hr

theorem like_course (h : (t.relaySet c).Like (s.relaySet c)) (hs : s.onCourse c f) : t.onCourse c f := by
  refine onCourse_iff.2 fun n => ?_
  have hn := onCourse_iff.1 hs n
  split at hn
  next hname =>
    rw [if_pos hname, h.state]
    exact hn
  next hname =>
    rw [if_neg hname]
    exact (like_atRest h).2 hn

/-- Movements that go on change nothing that the Relay Matrix holds. -/
theorem Matrix.like (h : Matrix o s) (hset : ∀ c, (t.relaySet c).Like (s.relaySet c)) (hbuses : t.buses = s.buses)
    (hf : ∀ j, (t.fault j).role = (s.fault j).role) : Matrix o t := by
  have hholder (c : Fin 24) : (t.relaySet c).holder = (s.relaySet c).holder := (hset c).holder
  refine ⟨fun c => like_coherent (hset c) (h.coherent c), fun c k hk => ?_, fun c k hk ho => ?_, fun c hk => ?_,
    fun c hk hn => ?_, fun b k hb => ?_, fun k => (role_shaped (hf k)).2 (h.shaped k),
    fun k ho => role_inOrder (hf k) (h.ordered k ho), fun k ho ht => ?_⟩
  · rw [hholder] at hk
    rw [role_target (hf k), role_partner (hf k)]
    exact h.named c k hk
  · rw [hholder] at hk
    rcases h.held c k hk ho with ⟨ht, hcar⟩ | ⟨hstate, hs, d, hd, hn⟩
    · exact .inl ⟨(role_travels (hf k)).2 ht, (hset c).normalising.trans hcar.calm, (hset c).service.trans hcar.service,
        (role_onCourse (hf k)).2 (like_course (hset c) hcar.course)⟩
    · exact .inr ⟨(role_state (hf k)).trans hstate, like_settled (hset c) hs, d, (hholder d).trans hd,
        by rw [(hset d).normalising]; exact hn⟩
  · rw [hholder] at hk
    exact like_settled (hset c) (h.free c hk)
  · rw [hholder] at hk
    rw [(hset c).normalising] at hn
    exact (hset c).service.trans (h.recovers c hk hn)
  · rw [hbuses] at hb
    obtain ⟨hkind, hkb, c, hc⟩ := h.buses b k hb
    exact ⟨(role_kind (hf k)).trans hkind, (role_bus (hf k)).trans hkb, c, (hholder c).trans hc⟩
  · obtain ⟨hneeds, hb⟩ := h.holds k ho ((role_travels (hf k)).1 ht)
    unfold State.holds
    rw [role_needs (hf k), role_kind (hf k), role_bus (hf k), hbuses]
    exact ⟨fun c hc => (hholder c).trans (hneeds c hc), hb⟩

theorem ticked_like (x : RelaySet) : ({ x with relays := x.relays.map Relay.ticked } : RelaySet).Like x := by
  have hget (n : RelayName) : (x.relays.map Relay.ticked).get n = (x.relays.get n).ticked := by cases n <;> rfl
  refine ⟨rfl, rfl, rfl, fun n => ?_, fun n => ?_, fun n => ?_⟩ <;> rw [hget]
  · rfl
  · rfl
  · exact Option.isSome_map

theorem Matrix.tickCounted (h : Matrix none s) : Matrix none s.tickCounted := by
  refine h.like (fun c => ?_) (tickCounted_matrix s).1 fun j => ?_
  · rw [tickCounted_relaySet]
    exact ticked_like _
  · rw [tickCounted_fault]
    rfl

theorem Matrix.fireAtAngle (h : Matrix none s) (a e : Nat) (y y' : Half) : Matrix none (s.fireAtAngle a e y y') := by
  unfold State.fireAtAngle
  split
  · exact h.fireAll _ (idle_none s)
  · exact h

theorem Matrix.makeTick (h : Matrix none s) (hb : Booked [] s) : Matrix none s.makeTick := by
  have hfired : Matrix none s.tickFired := h.tickCounted.fireAtAngle _ _ _ _
  have hsampled : Matrix none s.tickSampled := by
    refine hfired.of_fields ?_ ?_ ?_ <;> simp [State.tickSampled, State.tickGridded]
  rw [makeTick_eq]
  exact hsampled.settle hb.tickSampled

/-- The laws of the wait list and of the Relay Matrix together. -/
def Governed (s : State) : Prop := Booked [] s ∧ Matrix none s

theorem kept_governed : Kept Governed where
  pending s l h := ⟨kept_booked.pending s l h.1, h.2.of_fields rfl rfl rfl⟩
  port s p f hf h := ⟨kept_booked.port s p f hf h.1, h.2.of_fields (by simp) (by simp) (by simp)⟩
  request i s h := ⟨kept_booked.request i s h.1, leaves_matrix (handle_leaves s i) h.2 h.1⟩
  transfer s x hx h := ⟨kept_booked.transfer s x hx h.1, h.2.of_fields rfl rfl rfl⟩
  perform s e h := ⟨kept_booked.perform s e h.1, h.2.perform h.1 e⟩
  settle s h := ⟨kept_booked.settle s h.1, h.2.settle h.1⟩
  due s l h := ⟨kept_booked.due s l h.1, h.2.of_fields rfl rfl rfl⟩
  pins s x h := ⟨kept_booked.pins s x h.1, h.2.of_fields rfl rfl rfl⟩
  count s b h := ⟨kept_booked.count s b h.1, h.2.of_fields (by simp) (by simp) (by simp)⟩
  tick s h := ⟨kept_booked.tick s h.1, h.2.makeTick h.1⟩
  voltage s i v h := ⟨kept_booked.voltage s i v h.1, h.2.of_fields (by simp) (by simp) (by simp)⟩
  powerOn s h := ⟨kept_booked.powerOn s h.1, (matrixLaw_iff.1 reset_matrixLaw).of_fields rfl rfl rfl⟩
  rigReset s h := ⟨kept_booked.rigReset s h.1, (matrixLaw_iff.1 reset_matrixLaw).of_fields rfl rfl rfl⟩

/-- Settles O12: the matrix is kept by every operation with at most one record in between, and comes back in order. -/
theorem stepKeepsRelayMatrix : Obligations.StepKeepsRelayMatrix := fun _ _ hrecords hmatrix ht =>
  matrixLaw_iff.2 (kept_governed.step ⟨recordLaw_iff.1 hrecords, matrixLaw_iff.1 hmatrix⟩ ht).2

end Sys2Proof.Machine
end
